-- ==== Sys2Proof/Syntax.lean ====
section
/-! DEFINITION. The commands of the block: one constructor for each row of the table of operations and events, with what
the world outside or the module's own hardware brings with it (an address and a value written, a read's answer, a measured
quantity, the unit concerned). -/

namespace Sys2Proof

/-- The part of a 64-bit register that a write addresses (R19). -/
inductive Part where
  | whole | low | high
  deriving DecidableEq, Repr

/-- What a SECDED or Reed–Solomon check of a word found: no error, an error it corrected, or one it cannot correct. -/
inductive Secded where
  | clean | corrected | uncorrectable
  deriving DecidableEq, Repr

/-- What the checks of a bundle's fetch, of its L-slot load and of the descriptor its M slot reads found (R177, R184, R212). -/
structure TileEcc where
  fetch : Secded
  load : Secded
  desc : Secded
  deriving DecidableEq, Repr

/-- What an engine's operation met in the words it read (R184): nothing, a corrected word at an address, an uncorrectable scratchpad
word at an address in row, step or vector `step`, a parity error of an accumulator entry in that row. -/
inductive EngErr where
  | none
  | corrected (addr : Nat)
  | sram (step addr : Nat)
  | parity (step : Nat)
  deriving DecidableEq, Repr

/-- What stage 5 finds at a stack: its device ID, whether restore-and-verify passed, whether training and self-test passed, how many
rows it repaired. -/
structure StackTest where
  device : Word
  restored : Bool
  ok : Bool
  rows : BitVec 8
  deriving DecidableEq, Repr

/-- The answer to a read of host memory: data, or UR, CA, poison or a completion timeout. -/
inductive HostRead where
  | data (bytes : List Byte)
  | failed
  deriving DecidableEq, Repr

/-- Where a management message arrives: MCTP over PCI Express VDM of PF0, MCTP over I3C, or the DOE mailbox of PF0
(R509, R515). -/
inductive MgmtPort where
  | vdm | i3c | doe
  deriving DecidableEq, Repr


/-- The commands of the block: one per row of spec/opcode_table.json. -/
inductive Instr where
  /-- REGISTER_WRITE, R22. -/
  | registerWrite (func : Fin 17) (off : Nat) (part : Part) (v : Word)
  /-- BAR_WIDE_REQUEST, R572. -/
  | barWideRequest (func : Fin 17) (write : Bool) (off : Nat) (len : Nat) (data : List Byte)
  /-- START_WAIT_EXIT, R61. -/
  | startWaitExit (ga : BitVec 3) (scanEn : Bool) (vin : BitVec 16) (held : BitVec 16)
  /-- BANK_CHARGED, R61. -/
  | bankCharged (vbank : BitVec 16) (vin : BitVec 16)
  /-- THERMAL_WAIT_END, R94. -/
  | thermalWaitEnd (inlet : BitVec 8) (hottest : BitVec 8)
  /-- DIP_ENTRY, R44. -/
  | dipEntry (vin : BitVec 16)
  /-- DIP_EXIT, R46. -/
  | dipExit (vin : BitVec 16)
  /-- UNPINNED_STEP_DOWN, R44. -/
  | unpinnedStepDown
  /-- UNPINNED_STEP_UP, R46. -/
  | unpinnedStepUp
  /-- SAG, R47. -/
  | sag (vin : BitVec 16)
  /-- SURGE_ENTRY, R36. -/
  | surgeEntry (vin : BitVec 16)
  /-- SURGE_LONG, R36. -/
  | surgeLong (vin : BitVec 16)
  /-- OVERVOLT, R36. -/
  | overvolt (vin : BitVec 16)
  /-- OVERCURRENT, R42. -/
  | overcurrent (vin : BitVec 16)
  /-- RIPPLE, R38. -/
  | ripple (on : Bool)
  /-- STOP_RECORD_WRITE, R49. -/
  | stopRecordWrite
  /-- POWER_CONNECTOR_PULL, R66. -/
  | powerConnectorPull (vin : BitVec 16)
  /-- VT_RAIL_FAULT, R540. -/
  | vtRailFault (die : Fin 4) (mv : BitVec 16)
  /-- OTHER_RAIL_FAULT, R540. -/
  | otherRailFault (rail : Fin 16) (mv : BitVec 16)
  /-- SLEW_GRANT, R52. -/
  | slewGrant (share : Fin 18)
  /-- PWR_SLEW_WRITE, R57. -/
  | pwrSlewWrite (part : Part) (v : Word)
  /-- PREWARM, R55. -/
  | prewarm (func : Fin 17) (ring : Fin 16) (index : BitVec 32)
  /-- PINNED_COMMON_START, R55. -/
  | pinnedCommonStart (func : Fin 17) (ring : Fin 16) (index : BitVec 32)
  /-- LOAD_MARK, R420. -/
  | loadMark (tile : Fin 64)
  /-- DRIZZLE_WINDOW_END, R56. -/
  | drizzleWindowEnd (tile : Fin 64) (panel : Fin 4)
  /-- PWR_DRIZZLE_WRITE, R58. -/
  | pwrDrizzleWrite (part : Part) (v : Word)
  /-- PWR_IN_EXTREMES_CLEAR, R22. -/
  | pwrInExtremesClear (v : Word)
  /-- PWR_RESTART_WRITE, R59. -/
  | pwrRestartWrite (part : Part) (v : Word)
  /-- I3C_SETDASA, R71. -/
  | i3cSetdasa (static : BitVec 7) (address : BitVec 7)
  /-- I3C_ENTDAA, R71. -/
  | i3cEntdaa (address : BitVec 7)
  /-- I3C_GETSTATUS, R156. -/
  | i3cGetstatus
  /-- THERMAL_SENSOR_READ, R82. -/
  | thermalSensorRead (dies : List (BitVec 8)) (base : List (BitVec 8)) (hbmStacks : List (BitVec 8)) (inlet : BitVec 8) (outlet : BitVec 8)
  /-- HARDWARE_THERMAL_TRIP, R84. -/
  | hardwareThermalTrip
  /-- TAP_RESET, R90. -/
  | tapReset (trst : Bool)
  /-- BYPASS, R89. -/
  | bypass (tdi : Bool)
  /-- IDCODE, R89. -/
  | idcode
  /-- SAMPLE_PRELOAD, R93. -/
  | samplePreload (pins : BitVec 58) (cells : BitVec 58)
  /-- EXTEST, R90. -/
  | extest (pins : BitVec 58) (cells : BitVec 58)
  /-- CLAMP, R90. -/
  | clamp
  /-- HIGHZ, R90. -/
  | highz
  /-- EXTEST_PULSE, R90. -/
  | extestPulse (pins : BitVec 58) (cells : BitVec 58)
  /-- EXTEST_TRAIN, R90. -/
  | extestTrain (pins : BitVec 58) (cells : BitVec 58)
  /-- PERST_ASSERT, R433. -/
  | perstAssert
  /-- PERST_DEASSERT, R149. -/
  | perstDeassert
  /-- CONFIG_REQUEST, R149. -/
  | configRequest (func : Fin 17) (write : Bool) (off : BitVec 12) (v : BitVec 32)
  /-- PWR_DOM_REQ, R124. -/
  | pwrDomReq (dom : Fin 86) (v : Word)
  /-- DOMAIN_WAKE, R109. -/
  | domainWake (dom : Fin 86)
  /-- DOMAIN_EXIT_DONE, R103. -/
  | domainExitDone (dom : Fin 86)
  /-- EXIT_TIMEOUT, R104. -/
  | exitTimeout (dom : Fin 86)
  /-- SHADOW_COPY_DONE, R98. -/
  | shadowCopyDone (tile : Fin 64)
  /-- CONTEXT_SAVE_DONE, R99. -/
  | contextSaveDone (tile : Fin 64) (ok : Bool)
  /-- RIME_IDLE_TIMEOUT, R106. -/
  | rimeIdleTimeout (die : Fin 4)
  /-- FABRIC_IDLE_TIMEOUT, R106. -/
  | fabricIdleTimeout (dom : Fin 86)
  /-- WAIT_DEEPEN, R108. -/
  | waitDeepen (tile : Fin 64)
  /-- POWER_MANAGER_TICK, R116. -/
  | powerManagerTick (vin : BitVec 16) (iin : BitVec 16) (pin : BitVec 16) (vbank : BitVec 16) (draws : List Nat)
  /-- RAIL_TARGET_REACHED, R40. -/
  | railTargetReached (die : Fin 4)
  /-- PWR_BUDGET_WRITE, R125. -/
  | pwrBudgetWrite (part : Part) (v : Word)
  /-- PWR_TNCAP_WRITE, R113. -/
  | pwrTncapWrite (t : Fin 17) (part : Part) (v : Word)
  /-- POWER_DEEP_FROST_ENTER, R121. -/
  | powerDeepFrostEnter (tag : BitVec 16)
  /-- POWER_DEEP_FROST_LEAVE, R122. -/
  | powerDeepFrostLeave (tag : BitVec 16)
  /-- DEEP_FROST_WAKE, R122. -/
  | deepFrostWake
  /-- DEEP_FROST_EXIT_DONE, R122. -/
  | deepFrostExitDone
  /-- POWER_OFF, R63. -/
  | powerOff (tag : BitVec 16)
  /-- POWER_RESTART, R154. -/
  | powerRestart (tag : BitVec 16)
  /-- BRINGUP_STAGE_0, R132. -/
  | bringupStage0 (vin : BitVec 16) (capacity : BitVec 16) (vaonOk : Bool) (coolantOk : Bool) (bad : List (BitVec 8)) (inlet : BitVec 8) (hot : BitVec 8)
  /-- BRINGUP_STAGE_1, R136. -/
  | bringupStage1 (lockstepOk : Bool) (romOk : Bool) (sramOk : Bool) (sense : List (Fin 64))
  /-- BRINGUP_STAGE_2, R132. -/
  | bringupStage2 (ok : Bool) (phyUs : BitVec 32)
  /-- BRINGUP_STAGE_3, R560. -/
  | bringupStage3
  /-- BRINGUP_STAGE_4, R132. -/
  | bringupStage4 (bad : List (Fin 16))
  /-- BRINGUP_STAGE_5, R132. -/
  | bringupStage5 (hbmStacks : List StackTest)
  /-- BRINGUP_STAGE_6, R132. -/
  | bringupStage6 (badTiles : List (Fin 64)) (badRime : List (Fin 4)) (badFabric : List (Fin 4))
  /-- BRINGUP_STAGE_7, R133. -/
  | bringupStage7 (badLinks : List (Fin 64))
  /-- BRINGUP_STAGE_8, R132. -/
  | bringupStage8 (ok : Bool)
  /-- BRINGUP_STAGE_9, R132. -/
  | bringupStage9
  /-- LINK_LIGHT_DETECT, R134. -/
  | linkLightDetect (link : Fin 64) (serial : Word)
  /-- LINK_TRAIN_DONE, R134. -/
  | linkTrainDone (link : Fin 64) (rx : Bool) (laneOrder : Bool) (verified : Bool) (flight : BitVec 16) (lambda : BitVec 16)
  /-- LINK_TRAIN_TIMEOUT, R134. -/
  | linkTrainTimeout (link : Fin 64)
  /-- LINK_QUAL_WINDOW_END, R147. -/
  | linkQualWindowEnd (link : Fin 64)
  /-- LINK_QUAL_ERROR, R148. -/
  | linkQualError (link : Fin 64)
  /-- TRAINING_RECORD_WRITE, R145. -/
  | trainingRecordWrite (item : Fin 72) (device : Word) (body : List Byte)
  /-- BRU_DISCARD, R144. -/
  | bruDiscard (v : Word)
  /-- BRU_FORCECOLD_WRITE, R146. -/
  | bruForcecoldWrite (part : Part) (v : Word)
  /-- RETIREMENT_UNDO, R142. -/
  | retirementUndo (links : Bool) (part : Part) (v : Word)
  /-- RETIREMENT_RECORD_WRITE, R141. -/
  | retirementRecordWrite
  /-- BUNDLE_ISSUE, R162. -/
  | bundleIssue (tile : Fin 64) (dep : Nat) (mem : Nat) (other : Nat) (ecc : TileEcc)
  /-- STORE_BUFFER_DRAIN, R181. -/
  | storeBufferDrain (tile : Fin 64) (ecc : Secded)
  /-- CORE_PORT_RESCUE, R179. -/
  | corePortRescue (tile : Fin 64) (ecc : Secded)
  /-- HALT_COMPLETE, R189. -/
  | haltComplete (tile : Fin 64)
  /-- TILE_DBG_HALT, R191. -/
  | tileDbgHalt (tile : Fin 64)
  /-- TILE_DBG_RESUME, R191. -/
  | tileDbgResume (tile : Fin 64)
  /-- TILE_DBG_STEP, R191. -/
  | tileDbgStep (tile : Fin 64)
  /-- TILE_DBG_DATA_ACCESS, R193. -/
  | tileDbgDataAccess (tile : Fin 64) (write : Bool) (part : Part) (v : Word)
  /-- ISTORE_LOAD_DONE, R197. -/
  | istoreLoadDone (tile : Fin 64)
  /-- MLOAD_RUN, R210. -/
  | mloadRun (tile : Fin 64) (panel : Fin 4) (err : EngErr)
  /-- MMUL_RUN, R201. -/
  | mmulRun (tile : Fin 64) (panel : Fin 4) (err : EngErr) (upset : List (Nat × Nat × Int)) (tclk : Nat)
  /-- MREAD_RUN, R235. -/
  | mreadRun (tile : Fin 64) (panel : Fin 4) (err : EngErr)
  /-- MSPILL_RUN, R237. -/
  | mspillRun (tile : Fin 64) (panel : Fin 4) (err : EngErr)
  /-- MMOM_RUN, R244. -/
  | mmomRun (tile : Fin 64) (panel : Fin 4) (err : EngErr) (tclk : Nat)
  /-- MDRZ_RUN, R220. -/
  | mdrzRun (tile : Fin 64) (panel : Fin 4) (tclk : Nat)
  /-- VECTOR_OP_RUN, R270. -/
  | vectorOpRun (tile : Fin 64) (err : EngErr)
  /-- TOKEN_APPLY, R287. -/
  | tokenApply (k : Nat) (more : Bool)
  /-- PQ_WAIT_ARRIVE, R285. -/
  | pqWaitArrive (k : Nat) (more : Bool)
  /-- PQ_REPLY_ARRIVE, R285. -/
  | pqReplyArrive (k : Nat)
  /-- PQ_CANCEL_ARRIVE, R299. -/
  | pqCancelArrive (k : Nat)
  /-- WAIT_TIMEOUT, R299. -/
  | waitTimeout (unit : Fin 68)
  /-- ISOBAR_CRC_ERROR, R284. -/
  | isobarCrcError (k : Nat) (station : Nat)
  /-- ISOBAR_RESEND, R284. -/
  | isobarResend (k : Nat)
  /-- SWEEP_CHECK_END, R305. -/
  | sweepCheckEnd (t : Fin 17)
  /-- SWEEP_RELEASE, R305. -/
  | sweepRelease (t : Fin 17)
  /-- PQ_SNAP_GO, R303. -/
  | pqSnapGo (v : Word)
  /-- PQ_SNAP_DONE, R303. -/
  | pqSnapDone
  /-- PQ_TNCFG_WRITE, R280. -/
  | pqTncfgWrite (t : Fin 17) (part : Part) (v : Word)
  /-- FLIT_FORWARD, R320. -/
  | flitForward (k : Nat) (port : Nat) (half : Bool) (waited : Nat) (ecc : Secded)
  /-- JS_WRITE, R318. -/
  | jsWrite (k : Nat)
  /-- JS_READ, R318. -/
  | jsRead (k : Nat) (ecc : Secded)
  /-- JS_RDATA, R318. -/
  | jsRdata (k : Nat)
  /-- JS_WACK, R318. -/
  | jsWack (k : Nat)
  /-- JS_ISWRITE, R176. -/
  | jsIswrite (k : Nat)
  /-- MEMORY_SLOT, R321. -/
  | memorySlot (hc : Fin 8) (pcs : Fin 32) (busy : Bool) (ecc : Secded)
  /-- HBM_DYNAMIC_ACCESS, R326. -/
  | hbmDynamicAccess (hc : Fin 8) (pcs : Fin 32) (j : Nat) (ecc : Secded)
  /-- HBM_CORRECTED_REWRITE, R338. -/
  | hbmCorrectedRewrite (hc : Fin 8) (pcs : Fin 32)
  /-- SCRUB_READ, R340. -/
  | scrubRead (hc : Fin 8) (ecc : Secded)
  /-- MEM_GROUPMODE_WRITE, R336. -/
  | memGroupmodeWrite (part : Part) (v : Word)
  /-- BREEZE_CMD, R411. -/
  | breezeCmd (k : Nat)
  /-- BREEZE_EPOCH, R495. -/
  | breezeEpoch (k : Nat)
  /-- BREEZE_REPORT, R329. -/
  | breezeReport (k : Nat)
  /-- BREEZE_CTRL, R329. -/
  | breezeCtrl (k : Nat)
  /-- BREEZE_CRC_ERROR, R330. -/
  | breezeCrcError (k : Nat) (unit : Nat)
  /-- BREEZE_RESEND, R330. -/
  | breezeResend (k : Nat)
  /-- DMA_DESCRIPTOR_START, R347. -/
  | dmaDescriptorStart (tile : Fin 64) (chan : Fin 4) (ecc : Secded)
  /-- DMA_DESCRIPTOR_DONE, R292. -/
  | dmaDescriptorDone (tile : Fin 64) (chan : Fin 4)
  /-- LINK_FLIT_RECEIVE, R360. -/
  | linkFlitReceive (link : Fin 64) (flit : List Byte) (uncorr : Bool) (fecsym : Nat) (frame : Word) (slot : Fin 150)
  /-- LINK_FLIT_RELEASE, R375. -/
  | linkFlitRelease (link : Fin 64)
  /-- LINK_LOSS_OF_LOCK, R368. -/
  | linkLossOfLock (link : Fin 64)
  /-- LINK_RETRY_TIMER, R368. -/
  | linkRetryTimer (link : Fin 64) (loopOk : Bool)
  /-- QUAL, R362. -/
  | qual (link : Fin 64) (part : BitVec 4) (body : BitVec 112)
  /-- IDENT, R369. -/
  | ident (link : Fin 64) (part : BitVec 4) (body : BitVec 112)
  /-- DIGEST, R371. -/
  | digest (link : Fin 64) (part : BitVec 4) (body : BitVec 112)
  /-- TIME, R377. -/
  | time (link : Fin 64) (part : BitVec 4) (body : BitVec 112) (stamp : Nat)
  /-- UPMAP, R376. -/
  | upmap (link : Fin 64) (part : BitVec 4) (body : BitVec 112)
  /-- FENCE_CONTROL_WORD, R381. -/
  | fenceControlWord (link : Fin 64) (part : BitVec 4) (body : BitVec 112)
  /-- DOWN, R370. -/
  | down (link : Fin 64) (part : BitVec 4) (body : BitVec 112)
  /-- MAP, R373. -/
  | map (link : Fin 64) (part : BitVec 4) (body : BitVec 112)
  /-- FRAME_BOUNDARY, R376. -/
  | frameBoundary
  /-- LINK_ENABLE_WRITE, R370. -/
  | linkEnableWrite (link : Fin 64) (en : Bool)
  /-- LINK_RETRAIN, R370. -/
  | linkRetrain (link : Fin 64)
  /-- SPARE_CONFIG_WRITE, R367. -/
  | spareConfigWrite (v : Word)
  /-- DOMAIN_EN_WRITE, R371. -/
  | domainEnWrite (part : Part) (v : Word)
  /-- DOMAIN_REJOIN, R382. -/
  | domainRejoin
  /-- DOORBELL_POLL, R406. -/
  | doorbellPoll (func : Fin 17) (ring : Fin 16)
  /-- DOORBELL_READ_DONE, R408. -/
  | doorbellReadDone (func : Fin 17) (ring : Fin 16) (res : HostRead)
  /-- DESCRIPTOR_FETCH_DONE, R409. -/
  | descriptorFetchDone (func : Fin 17) (ring : Fin 16) (res : HostRead)
  /-- COMMAND_DISPATCH, R410. -/
  | commandDispatch (func : Fin 17) (ring : Fin 16)
  /-- NOP, R412. -/
  | nop (func : Fin 17) (ring : Fin 16) (index : BitVec 32)
  /-- LAUNCH, R421. -/
  | launch (func : Fin 17) (ring : Fin 16) (index : BitVec 32)
  /-- ABORT, R424. -/
  | abort (func : Fin 17) (ring : Fin 16) (index : BitVec 32)
  /-- ALLOC, R447. -/
  | alloc (func : Fin 17) (ring : Fin 16) (index : BitVec 32) (failed : Option Nat)
  /-- FREE, R450. -/
  | free (func : Fin 17) (ring : Fin 16) (index : BitVec 32)
  /-- COPYIN, R414. -/
  | copyin (func : Fin 17) (ring : Fin 16) (index : BitVec 32)
  /-- COPYOUT, R414. -/
  | copyout (func : Fin 17) (ring : Fin 16) (index : BitVec 32)
  /-- SIGNALQ, R412. -/
  | signalq (func : Fin 17) (ring : Fin 16) (index : BitVec 32)
  /-- WAITQ, R416. -/
  | waitq (func : Fin 17) (ring : Fin 16) (index : BitVec 32)
  /-- DBGCTL_HALT, R415. -/
  | dbgctlHalt (func : Fin 17) (ring : Fin 16) (index : BitVec 32)
  /-- DBGCTL_RESUME, R415. -/
  | dbgctlResume (func : Fin 17) (ring : Fin 16) (index : BitVec 32)
  /-- DBGCTL_STEP, R415. -/
  | dbgctlStep (func : Fin 17) (ring : Fin 16) (index : BitVec 32)
  /-- DBGCTL_ARM, R415. -/
  | dbgctlArm (func : Fin 17) (ring : Fin 16) (index : BitVec 32)
  /-- DBGCTL_DISARM, R415. -/
  | dbgctlDisarm (func : Fin 17) (ring : Fin 16) (index : BitVec 32)
  /-- DBGREAD, R415. -/
  | dbgread (func : Fin 17) (ring : Fin 16) (index : BitVec 32)
  /-- DBGWRITE, R415. -/
  | dbgwrite (func : Fin 17) (ring : Fin 16) (index : BitVec 32)
  /-- RKEYLOAD, R478. -/
  | rkeyload (func : Fin 17) (ring : Fin 16) (index : BitVec 32)
  /-- RREFRESH, R472. -/
  | rrefresh (func : Fin 17) (ring : Fin 16) (index : BitVec 32)
  /-- RLINEAR, R472. -/
  | rlinear (func : Fin 17) (ring : Fin 16) (index : BitVec 32)
  /-- LAUNCH_COMPLETE, R413. -/
  | launchComplete (func : Fin 17) (ring : Fin 16) (index : BitVec 32)
  /-- COPY_DONE, R414. -/
  | copyDone (func : Fin 17) (ring : Fin 16) (index : BitVec 32)
  /-- WAITQ_POLL, R416. -/
  | waitqPoll (func : Fin 17) (ring : Fin 16) (index : BitVec 32)
  /-- IRQ_TIMER, R426. -/
  | irqTimer (func : Fin 17) (ring : Fin 16)
  /-- RING_ENABLE, R429. -/
  | ringEnable (func : Fin 17) (ring : Fin 16) (part : Part) (v : Word)
  /-- RING_DISABLE, R430. -/
  | ringDisable (func : Fin 17) (ring : Fin 16) (part : Part) (v : Word)
  /-- IDE_STATE_CHANGE, R399. -/
  | ideStateChange (func : Fin 17) (secure : Bool)
  /-- MSIX_UNMASK, R400. -/
  | msixUnmask (func : Fin 17) (vector : Fin 64)
  /-- FLR_VF, R432. -/
  | flrVf (func : Fin 17)
  /-- FLR_PF0, R433. -/
  | flrPf0
  /-- HOT_RESET, R433. -/
  | hotReset
  /-- UNCOMMANDED_LINK_DOWN, R433. -/
  | uncommandedLinkDown
  /-- CREATE, R439. -/
  | create (t : Fin 17) (perm : BitVec 2)
  /-- START, R441. -/
  | start (t : Fin 17)
  /-- STOP, R442. -/
  | stop (t : Fin 17)
  /-- TENANCY_STOP_DONE, R442. -/
  | tenancyStopDone (t : Fin 17)
  /-- DESTROY, R443. -/
  | destroy (t : Fin 17)
  /-- TN_TILES_WRITE, R440. -/
  | tnTilesWrite (t : Fin 17) (part : Part) (v : Word)
  /-- TN_CFG_WRITE, R440. -/
  | tnCfgWrite (t : Fin 17) (part : Part) (v : Word)
  /-- TN_SLOTQ_WRITE, R440. -/
  | tnSlotqWrite (t : Fin 17) (part : Part) (v : Word)
  /-- TN_SAVE_WRITE, R440. -/
  | tnSaveWrite (t : Fin 17) (part : Part) (v : Word)
  /-- TILE_SCRUB_DONE, R445. -/
  | tileScrubDone (tile : Fin 64)
  /-- SCRUB_TIMEOUT, R445. -/
  | scrubTimeout (tile : Fin 64)
  /-- TN_ISO_CLAIM_WRITE, R455. -/
  | tnIsoClaimWrite (v : Word)
  /-- TN_BUFQ_WRITE, R574. -/
  | tnBufqWrite (t : Fin 17) (part : Part) (v : Word)
  /-- RIME_COMMAND_START, R476. -/
  | rimeCommandStart (die : Fin 4)
  /-- RIME_KEY_LOAD_DONE, R478. -/
  | rimeKeyLoadDone (die : Fin 4)
  /-- RIME_WAVE_DONE, R476. -/
  | rimeWaveDone (die : Fin 4) (ecc : Secded) (mem : Option (Nat × Secded))
  /-- QUIESCE_FENCE, R496. -/
  | quiesceFence (unit : BitVec 8)
  /-- QUIESCE_DRAIN_END, R496. -/
  | quiesceDrainEnd (unit : BitVec 8)
  /-- QUIESCE_RESET_DONE, R501. -/
  | quiesceResetDone (unit : BitVec 8)
  /-- QUIESCE_DRAIN_TIMEOUT, R496. -/
  | quiesceDrainTimeout (unit : BitVec 8)
  /-- EPOCH_AUDIT, R504. -/
  | epochAudit (wrong : List (BitVec 8))
  /-- STATUS, R507. -/
  | status (tag : BitVec 16)
  /-- EPOCHREAD, R507. -/
  | epochread (tag : BitVec 16) (unit : Byte)
  /-- TENANCY, R507. -/
  | tenancy (tag : BitVec 16) (t : Byte) (op : Byte) (perm : Byte)
  /-- QUIESCE_RESET_RELEASE, R508. -/
  | quiesceResetRelease (tag : BitVec 16) (unit : Byte)
  /-- QUIESCE_FENCE_HOLD, R508. -/
  | quiesceFenceHold (tag : BitVec 16) (unit : Byte)
  /-- QUIESCE_RELEASE_HELD, R508. -/
  | quiesceReleaseHeld (tag : BitVec 16) (unit : Byte)
  /-- SNAPSHOT, R303. -/
  | snapshot (tag : BitVec 16)
  /-- CONTROLLER_FAILURE, R517. -/
  | controllerFailure (cause : Fin 3)
  /-- SET_ENDPOINT_ID, R509. -/
  | setEndpointId (port : MgmtPort) (eid : Byte)
  /-- GET_ENDPOINT_ID, R509. -/
  | getEndpointId (port : MgmtPort)
  /-- GET_ENDPOINT_UUID, R509. -/
  | getEndpointUuid (port : MgmtPort)
  /-- GET_MCTP_VERSION_SUPPORT, R509. -/
  | getMctpVersionSupport (port : MgmtPort) (msgType : Byte)
  /-- GET_MESSAGE_TYPE_SUPPORT, R509. -/
  | getMessageTypeSupport (port : MgmtPort)
  /-- GET_TID, R511. -/
  | getTid (port : MgmtPort)
  /-- SET_TID, R511. -/
  | setTid (port : MgmtPort) (tid : Byte)
  /-- GET_PLDM_VERSION, R511. -/
  | getPldmVersion (port : MgmtPort) (type : Byte)
  /-- GET_PLDM_TYPES, R511. -/
  | getPldmTypes (port : MgmtPort)
  /-- GET_PLDM_COMMANDS, R511. -/
  | getPldmCommands (port : MgmtPort) (type : Byte)
  /-- GET_SENSOR_READING, R512. -/
  | getSensorReading (port : MgmtPort) (sensor : BitVec 16)
  /-- GET_STATE_SENSOR_READINGS, R512. -/
  | getStateSensorReadings (port : MgmtPort) (sensor : BitVec 16)
  /-- SET_NUMERIC_EFFECTER_VALUE, R512. -/
  | setNumericEffecterValue (port : MgmtPort) (effecter : BitVec 16) (value : BitVec 32)
  /-- GET_NUMERIC_EFFECTER_VALUE, R512. -/
  | getNumericEffecterValue (port : MgmtPort) (effecter : BitVec 16)
  /-- SET_STATE_EFFECTER_STATES, R512. -/
  | setStateEffecterStates (port : MgmtPort) (effecter : BitVec 16) (state : Byte)
  /-- GET_STATE_EFFECTER_STATES, R512. -/
  | getStateEffecterStates (port : MgmtPort) (effecter : BitVec 16)
  /-- GET_PDR_REPOSITORY_INFO, R511. -/
  | getPdrRepositoryInfo (port : MgmtPort)
  /-- GET_PDR, R511. -/
  | getPdr (port : MgmtPort) (handle : BitVec 32)
  /-- SET_EVENT_RECEIVER, R513. -/
  | setEventReceiver (port : MgmtPort) (enable : Bool)
  /-- EVENT_MESSAGE_SUPPORTED, R511. -/
  | eventMessageSupported (port : MgmtPort)
  /-- EVENT_MESSAGE_BUFFER_SIZE, R511. -/
  | eventMessageBufferSize (port : MgmtPort) (size : BitVec 16)
  /-- POLL_FOR_PLATFORM_EVENT_MESSAGE, R514. -/
  | pollForPlatformEventMessage (port : MgmtPort) (ack : BitVec 16)
  /-- QUERY_DEVICE_IDENTIFIERS, R511. -/
  | queryDeviceIdentifiers (port : MgmtPort)
  /-- GET_FIRMWARE_PARAMETERS, R563. -/
  | getFirmwareParameters (port : MgmtPort)
  /-- REQUEST_UPDATE, R563. -/
  | requestUpdate (port : MgmtPort)
  /-- PASS_COMPONENT_TABLE, R511. -/
  | passComponentTable (port : MgmtPort) (ident : BitVec 16)
  /-- UPDATE_COMPONENT, R563. -/
  | updateComponent (port : MgmtPort) (ident : BitVec 16)
  /-- REQUEST_FIRMWARE_DATA, R563. -/
  | requestFirmwareData (port : MgmtPort) (data : List Byte)
  /-- TRANSFER_COMPLETE, R511. -/
  | transferComplete (port : MgmtPort)
  /-- VERIFY_COMPLETE, R563. -/
  | verifyComplete (port : MgmtPort)
  /-- APPLY_COMPLETE, R511. -/
  | applyComplete (port : MgmtPort)
  /-- ACTIVATE_FIRMWARE, R563. -/
  | activateFirmware (port : MgmtPort) (selfContained : Bool)
  /-- GET_STATUS, R511. -/
  | getStatus (port : MgmtPort)
  /-- CANCEL_UPDATE_COMPONENT, R511. -/
  | cancelUpdateComponent (port : MgmtPort)
  /-- CANCEL_UPDATE, R563. -/
  | cancelUpdate (port : MgmtPort)
  /-- GET_VERSION, R515. -/
  | getVersion (port : MgmtPort)
  /-- GET_CAPABILITIES, R515. -/
  | getCapabilities (port : MgmtPort)
  /-- NEGOTIATE_ALGORITHMS, R515. -/
  | negotiateAlgorithms (port : MgmtPort) (fit : Bool)
  /-- GET_DIGESTS, R515. -/
  | getDigests (port : MgmtPort)
  /-- GET_CERTIFICATE, R515. -/
  | getCertificate (port : MgmtPort) (slot : Byte) (off : BitVec 16) (len : BitVec 16)
  /-- CHALLENGE, R515. -/
  | challenge (port : MgmtPort) (slot : Byte)
  /-- GET_MEASUREMENTS, R516. -/
  | getMeasurements (port : MgmtPort) (index : Byte) (signature : Bool)
  /-- KEY_EXCHANGE, R515. -/
  | keyExchange (port : MgmtPort)
  /-- FINISH, R515. -/
  | finish (port : MgmtPort) (id : Byte) (ok : Bool)
  /-- HEARTBEAT, R515. -/
  | heartbeat (port : MgmtPort) (id : Byte)
  /-- KEY_UPDATE, R515. -/
  | keyUpdate (port : MgmtPort) (id : Byte)
  /-- END_SESSION, R515. -/
  | endSession (port : MgmtPort) (id : Byte)
  /-- VENDOR_DEFINED_REQUEST, R398. -/
  | vendorDefinedRequest (port : MgmtPort) (id : Byte) (func : Fin 17) (op : Fin 3)
  /-- EVENT_RECORD_WRITE, R535. -/
  | eventRecordWrite (ring : Fin 18) (ok : Bool)
  /-- EVR_DOORBELL_POLL, R535. -/
  | evrDoorbellPoll (ring : Fin 18) (res : HostRead)
  /-- EVR_MSIX, R536. -/
  | evrMsix (ring : Fin 18)
  /-- EVR_CTL_WRITE, R542. -/
  | evrCtlWrite (ring : Fin 18) (part : Part) (v : Word)
  /-- TWIN_COMPARE, R528. -/
  | twinCompare (tile : Fin 64) (equal : Bool)
  /-- GRANULE_WITHHOLD_UNDO, R539. -/
  | granuleWithholdUndo (k : Fin 4) (part : Part) (v : Word)
  /-- READ, R550. -/
  | read (len : BitVec 13)
  /-- PROGRAM, R552. -/
  | program (len : BitVec 13)
  /-- ERASE, R550. -/
  | erase (len : BitVec 13)
  /-- STORE_OP_DONE, R547. -/
  | storeOpDone (ok : Bool)
  /-- UNIT_RECORD_WRITE, R548. -/
  | unitRecordWrite
  /-- SLOTINFO, R562. -/
  | slotinfo (tag : BitVec 16)
  /-- ERASESLOT, R562. -/
  | eraseslot (tag : BitVec 16) (slot : Byte)
  /-- ERASE_SECTOR_DONE, R562. -/
  | eraseSectorDone (ok : Bool)
  /-- VERIFY, R556. -/
  | verify (tag : BitVec 16) (slot : Byte)
  /-- ACTIVATE, R562. -/
  | activate (tag : BitVec 16) (slot : Byte) (flags : Byte)
  /-- CONFIRM, R561. -/
  | confirm (tag : BitVec 16)
  /-- REVERT, R561. -/
  | revert (tag : BitVec 16)
  /-- COMMITSVN, R557. -/
  | commitsvn (tag : BitVec 16)
  /-- FUSE_BIT_BLOWN, R557. -/
  | fuseBitBlown (ok : Bool)
  /-- OWNERKEY, R558. -/
  | ownerkey (tag : BitVec 16) (key : List Byte) (sig : List Byte)
  /-- SURGE_EXIT, R36. -/
  | surgeExit (vin : BitVec 16)
  /-- POWER_ON, R36. -/
  | powerOn
  /-- ALWAYS_ON_POWER_LOSS, R49. -/
  | alwaysOnPowerLoss
  /-- PCIE_LINK_UP, R149. -/
  | pcieLinkUp (speed : Fin 4) (width : Fin 32) (flit : Bool)
  /-- HOST_READ_COMPLETION, R414. -/
  | hostReadCompletion (func : Fin 17) (ring : Fin 16) (index : BitVec 32) (res : HostRead)
  /-- HOST_COMPLETION_TIMEOUT, R394. -/
  | hostCompletionTimeout (func : Fin 17) (ring : Fin 16) (index : BitVec 32)
  /-- LINK_SLOT, R356. -/
  | linkSlot (link : Fin 64)
  /-- STORE_READ_DONE, R550. -/
  | storeReadDone
  deriving DecidableEq, Repr

end Sys2Proof
end

