-- ==== Sys2Proof/Config.lean ====
section
/-! DEFINITION. The free values: constants with no body, so that nothing can evaluate them and every claim holds whatever
they are. Each is applied to the number of the draw (State.free) or to what the value depends on. -/

namespace Sys2Proof

/-- A free yes or no for draw `n`: which of the values that the spec allows a byte, a bundle or an order takes. -/
opaque Config.freeBool : Nat → Bool

/-- A free byte for draw `n`: a byte that the spec calls unpredictable. -/
opaque Config.freeByte : Nat → Byte

/-- A free natural number for draw `n`: how far an abandoned transfer had come. -/
opaque Config.freeNat : Nat → Nat

/-- Free bytes of a string of length `len` for draw `n`: random numbers, signatures and certificates that the spec names and
does not give. -/
opaque Config.freeBytes : (n len : Nat) → Vector Byte len

/-- The PCI-SIG vendor identifier of the maker (R394), which the spec names and does not give. -/
opaque Config.vendorId : BitVec 16

/-- The MCTP UUID formed from a serial (R509); how is not given. -/
opaque Config.uuid : Nat → Vector Byte 16

/-- The PDR that a repository component holds under a record handle (R512); the repository's format is not given. -/
opaque Config.pdr : (component : List Byte) → (handle : Nat) → List Byte

/-- The version that GetPLDMVersion answers for a PLDM type (R511). -/
opaque Config.pldmVersion : Nat → BitVec 32

/-- The certificate chain of slot 0 of the unit with a serial (R515). -/
opaque Config.certChain : Nat → List Byte

/-- The measurement of the boot ROM (R516). -/
opaque Config.bootRomDigest : Vector Byte 48

end Sys2Proof
end

