-- ==== Sys2Proof/Machine/Sparse.lean ====
section
/-! DEFINITION. Sparse tables: a list of (key, value) pairs in one canonical form, keys strictly rising and no entry
equal to what an unlisted key reads as. Memories, the register file and every large table of the module are held in
this form, so that equal contents are equal data. -/

namespace Sys2Proof.Machine

/-- What the table holds at a key: the listed value, or `d`. -/
def spGet {α : Type} (d : α) : List (Nat × α) → Nat → α
  | [], _ => d
  | (k, v) :: l, i => if k = i then v else spGet d l i

/-- The table with the entry of key `i` taken out. -/
def spDel {α : Type} : List (Nat × α) → Nat → List (Nat × α)
  | [], _ => []
  | (k, v) :: l, i => if k = i then spDel l i else (k, v) :: spDel l i

/-- The table with `v` put in at key `i`, in rising order. -/
def spIns {α : Type} : List (Nat × α) → Nat → α → List (Nat × α)
  | [], i, v => [(i, v)]
  | (k, w) :: l, i, v =>
    if i < k then (i, v) :: (k, w) :: l
    else if i = k then (i, v) :: l
    else (k, w) :: spIns l i v

/-- Writing a key. Writing what an unlisted key reads as takes the entry out. -/
def spSet {α : Type} [DecidableEq α] (d : α) (l : List (Nat × α)) (i : Nat) (v : α) : List (Nat × α) :=
  if v = d then spDel l i else spIns l i v

/-- The table with every key for which `f` holds read back as unlisted. -/
def spClear {α : Type} (f : Nat → Bool) (l : List (Nat × α)) : List (Nat × α) :=
  l.filter (fun e => !f e.1)

/-- The table with its value at a key changed by `f`. -/
def spMod {α : Type} [DecidableEq α] (d : α) (l : List (Nat × α)) (i : Nat) (f : α → α) : List (Nat × α) :=
  spSet d l i (f (spGet d l i))

/-- Keys strictly rising from `n` on, and no entry equal to `d`. -/
def spWfFrom {α : Type} [DecidableEq α] (d : α) : Nat → List (Nat × α) → Bool
  | _, [] => true
  | n, (k, v) :: l => n ≤ k && v ≠ d && spWfFrom d (k + 1) l

/-- The canonical form. -/
def spWf {α : Type} [DecidableEq α] (d : α) (l : List (Nat × α)) : Bool := spWfFrom d 0 l

/-! Byte memories. `d` is the byte that an unlisted address reads as. -/

/-- The canonical form of a byte memory. -/
def Memory.wf (d : Byte) (m : List Host.Cell) : Bool := spWf d m

/-- `n` bytes from address `a` on. -/
def memRead (d : Byte) (m : List Host.Cell) (a : Nat) : Nat → List Byte
  | 0 => []
  | n + 1 => spGet d m a :: memRead d m (a + 1) n

/-- The bytes of a string written from address `a` on. -/
def memWrite (d : Byte) (m : List Host.Cell) (a : Nat) : List Byte → List Host.Cell
  | [] => m
  | b :: bs => memWrite d (spSet d m a b) (a + 1) bs

/-- The little-endian number of `n` bytes at address `a` (R18). -/
def memNat (d : Byte) (m : List Host.Cell) (a n : Nat) : Nat := leNat (memRead d m a n)

/-- The bytes of a range read back as unlisted. -/
def memClear (m : List Host.Cell) (a n : Nat) : List Host.Cell :=
  spClear (fun k => decide (a ≤ k ∧ k < a + n)) m

end Sys2Proof.Machine
end

