-- ==== Sys2Proof/Machine/Fields.lean ====
section
/-! DEFINITION. The register fields of BAR0, each under the name the spec gives it, with its offset, lowest bit, width, reset
value and access code, and the register table that the address map makes of them (R568, R570, R573). An index `i` is the
copy of a repeated register or block, `j` the ring of a tenancy block or the word of a view. -/

namespace Sys2Proof.Machine

/-- The access codes of R22. -/
inductive Access where
  | ro | rw | w1c | wo | rwl
  deriving DecidableEq, Repr

/-- A register field: the BAR0 offset of its register, its lowest bit, its width, its reset value and its access code. -/
structure Fld where
  off : Nat
  lo : Nat
  width : Nat
  reset : Nat
  acc : Access
  deriving DecidableEq, Repr

/-- A row of the register table: where the copies of a register stand, and the fields of a copy. -/
structure RegRow where
  base : Nat
  stride : Nat
  count : Nat
  stride2 : Nat
  count2 : Nat
  fields : Nat → Nat → List Fld

namespace Reg

/-! ID_VARIANT: R8 of spec/00_scope.md. -/
def ID_VARIANT_CODE : Fld := ⟨0x8, 0, 8, 0, .ro⟩
def ID_VARIANT_TILES : Fld := ⟨0x8, 8, 8, 0, .ro⟩
def ID_VARIANT_STACKS : Fld := ⟨0x8, 16, 8, 0, .ro⟩
def ID_VARIANT_LINKS : Fld := ⟨0x8, 24, 8, 0, .ro⟩
def ID_VARIANT_MAXDOMAIN : Fld := ⟨0x8, 32, 8, 0, .ro⟩
def row_ID_VARIANT : RegRow := ⟨0x8, 0x0, 1, 0x0, 1, fun _ _ => [ID_VARIANT_CODE, ID_VARIANT_TILES, ID_VARIANT_STACKS, ID_VARIANT_LINKS, ID_VARIANT_MAXDOMAIN]⟩

/-! ID_COMPAT: R14 of spec/00_scope.md. -/
def ID_COMPAT_LEVELS : Fld := ⟨0x10, 0, 16, 1, .ro⟩
def ID_COMPAT_REV : Fld := ⟨0x10, 16, 8, 0xB0, .ro⟩
def ID_COMPAT_ORDERSET : Fld := ⟨0x10, 32, 16, 1, .ro⟩
def row_ID_COMPAT : RegRow := ⟨0x10, 0x0, 1, 0x0, 1, fun _ _ => [ID_COMPAT_LEVELS, ID_COMPAT_REV, ID_COMPAT_ORDERSET]⟩

/-! PWR_IN_STATUS: R56 of spec/02_bus_input_and_load_shaping.md. -/
def PWR_IN_STATUS_BAND : Fld := ⟨0xB08000, 0, 3, 0, .ro⟩
def PWR_IN_STATUS_BURST_OK : Fld := ⟨0xB08000, 3, 1, 0, .ro⟩
def PWR_IN_STATUS_RIPPLE : Fld := ⟨0xB08000, 4, 1, 0, .ro⟩
def PWR_IN_STATUS_DIP_OVERLOAD : Fld := ⟨0xB08000, 5, 1, 0, .ro⟩
def row_PWR_IN_STATUS : RegRow := ⟨0xB08000, 0x0, 1, 0x0, 1, fun _ _ => [PWR_IN_STATUS_BAND, PWR_IN_STATUS_BURST_OK, PWR_IN_STATUS_RIPPLE, PWR_IN_STATUS_DIP_OVERLOAD]⟩

/-! PWR_IN_SAMPLE: R56 of spec/02_bus_input_and_load_shaping.md. -/
def PWR_IN_SAMPLE_VIN : Fld := ⟨0xB08008, 0, 16, 0, .ro⟩
def PWR_IN_SAMPLE_IIN : Fld := ⟨0xB08008, 16, 16, 0, .ro⟩
def PWR_IN_SAMPLE_PIN : Fld := ⟨0xB08008, 32, 16, 0, .ro⟩
def PWR_IN_SAMPLE_SEQ : Fld := ⟨0xB08008, 48, 16, 0, .ro⟩
def row_PWR_IN_SAMPLE : RegRow := ⟨0xB08008, 0x0, 1, 0x0, 1, fun _ _ => [PWR_IN_SAMPLE_VIN, PWR_IN_SAMPLE_IIN, PWR_IN_SAMPLE_PIN, PWR_IN_SAMPLE_SEQ]⟩

/-! PWR_IN_ENERGY: R56 of spec/02_bus_input_and_load_shaping.md. -/
def PWR_IN_ENERGY_UJ : Fld := ⟨0xB08010, 0, 64, 0, .ro⟩
def row_PWR_IN_ENERGY : RegRow := ⟨0xB08010, 0x0, 1, 0x0, 1, fun _ _ => [PWR_IN_ENERGY_UJ]⟩

/-! PWR_IN_EXTREMES: R56 of spec/02_bus_input_and_load_shaping.md. -/
def PWR_IN_EXTREMES_VMIN : Fld := ⟨0xB08018, 0, 16, 0xFFFF, .ro⟩
def PWR_IN_EXTREMES_VMAX : Fld := ⟨0xB08018, 16, 16, 0, .ro⟩
def PWR_IN_EXTREMES_IPEAK : Fld := ⟨0xB08018, 32, 16, 0, .ro⟩
def PWR_IN_EXTREMES_CLEAR : Fld := ⟨0xB08018, 63, 1, 0, .wo⟩
def row_PWR_IN_EXTREMES : RegRow := ⟨0xB08018, 0x0, 1, 0x0, 1, fun _ _ => [PWR_IN_EXTREMES_VMIN, PWR_IN_EXTREMES_VMAX, PWR_IN_EXTREMES_IPEAK, PWR_IN_EXTREMES_CLEAR]⟩

/-! PWR_SLEW: R56 of spec/02_bus_input_and_load_shaping.md. -/
def PWR_SLEW_LIMIT : Fld := ⟨0xB08020, 0, 16, 0x64, .rw⟩
def PWR_SLEW_SCHED : Fld := ⟨0xB08020, 16, 16, 0, .ro⟩
def row_PWR_SLEW : RegRow := ⟨0xB08020, 0x0, 1, 0x0, 1, fun _ _ => [PWR_SLEW_LIMIT, PWR_SLEW_SCHED]⟩

/-! PWR_DRIZZLE: R57 of spec/02_bus_input_and_load_shaping.md. -/
def PWR_DRIZZLE_WINDOW : Fld := ⟨0xB08028, 0, 16, 0xC00, .rw⟩
def PWR_DRIZZLE_LEVEL : Fld := ⟨0xB08028, 16, 4, 0xC, .rw⟩
def row_PWR_DRIZZLE : RegRow := ⟨0xB08028, 0x0, 1, 0x0, 1, fun _ _ => [PWR_DRIZZLE_WINDOW, PWR_DRIZZLE_LEVEL]⟩

/-! PWR_BANK: R58 of spec/02_bus_input_and_load_shaping.md. -/
def PWR_BANK_VBANK : Fld := ⟨0xB08030, 0, 16, 0, .ro⟩
def PWR_BANK_CAP : Fld := ⟨0xB08030, 16, 16, 0, .ro⟩
def PWR_BANK_LOW : Fld := ⟨0xB08030, 32, 1, 0, .ro⟩
def row_PWR_BANK : RegRow := ⟨0xB08030, 0x0, 1, 0x0, 1, fun _ _ => [PWR_BANK_VBANK, PWR_BANK_CAP, PWR_BANK_LOW]⟩

/-! PWR_SUPPLY_EVENT: R58 of spec/02_bus_input_and_load_shaping.md. -/
def PWR_SUPPLY_EVENT_CAUSE : Fld := ⟨0xB08038, 0, 4, 0, .ro⟩
def PWR_SUPPLY_EVENT_VATSTOP : Fld := ⟨0xB08038, 8, 16, 0, .ro⟩
def PWR_SUPPLY_EVENT_STOPS : Fld := ⟨0xB08038, 32, 32, 0, .ro⟩
def row_PWR_SUPPLY_EVENT : RegRow := ⟨0xB08038, 0x0, 1, 0x0, 1, fun _ _ => [PWR_SUPPLY_EVENT_CAUSE, PWR_SUPPLY_EVENT_VATSTOP, PWR_SUPPLY_EVENT_STOPS]⟩

/-! PWR_RESTART: R58 of spec/02_bus_input_and_load_shaping.md. -/
def PWR_RESTART_AUTO : Fld := ⟨0xB08040, 0, 1, 1, .rw⟩
def PWR_RESTART_HOLDOFF : Fld := ⟨0xB08040, 8, 8, 0, .rw⟩
def row_PWR_RESTART : RegRow := ⟨0xB08040, 0x0, 1, 0x0, 1, fun _ _ => [PWR_RESTART_AUTO, PWR_RESTART_HOLDOFF]⟩

/-! PWR_THERMAL: R84 of spec/03_connectors_and_package.md. -/
def PWR_THERMAL_TCD : Fld := ⟨0xB08048, 0, 8, 0, .ro⟩
def PWR_THERMAL_TBD : Fld := ⟨0xB08048, 8, 8, 0, .ro⟩
def PWR_THERMAL_THBM : Fld := ⟨0xB08048, 16, 8, 0, .ro⟩
def PWR_THERMAL_TIN : Fld := ⟨0xB08048, 24, 8, 0, .ro⟩
def PWR_THERMAL_TOUT : Fld := ⟨0xB08048, 32, 8, 0, .ro⟩
def PWR_THERMAL_STATE : Fld := ⟨0xB08048, 40, 3, 0, .ro⟩
def PWR_THERMAL_HOTDIE : Fld := ⟨0xB08048, 48, 4, 0, .ro⟩
def row_PWR_THERMAL : RegRow := ⟨0xB08048, 0x0, 1, 0x0, 1, fun _ _ => [PWR_THERMAL_TCD, PWR_THERMAL_TBD, PWR_THERMAL_THBM, PWR_THERMAL_TIN, PWR_THERMAL_TOUT, PWR_THERMAL_STATE, PWR_THERMAL_HOTDIE]⟩

/-! PWR_DOM_ID: R123 of spec/04_weather_ladder.md. -/
def PWR_DOM_ID_INDEX (i : Nat) : Fld := ⟨0xB00000 + 0x100 * i, 0, 8, i, .ro⟩
def PWR_DOM_ID_KIND (i : Nat) : Fld := ⟨0xB00000 + 0x100 * i, 8, 3, (if i < 64 then 0 else if i < 68 then 1 else if i < 72 then 2 else if i < 80 then 3 else if i < 84 then 4 else if i = 84 then 5 else 6), .ro⟩
def PWR_DOM_ID_PRESENT (i : Nat) : Fld := ⟨0xB00000 + 0x100 * i, 11, 1, 0, .ro⟩
def PWR_DOM_ID_OWNER (i : Nat) : Fld := ⟨0xB00000 + 0x100 * i, 16, 5, 0x1F, .ro⟩
def row_PWR_DOM_ID : RegRow := ⟨0xB00000, 0x100, 86, 0x0, 1, fun i _ => [PWR_DOM_ID_INDEX i, PWR_DOM_ID_KIND i, PWR_DOM_ID_PRESENT i, PWR_DOM_ID_OWNER i]⟩

/-! PWR_DOM_CTL: R123 of spec/04_weather_ladder.md. -/
def PWR_DOM_CTL_MAXSTATE (i : Nat) : Fld := ⟨0xB00008 + 0x100 * i, 0, 3, 3, .rwl⟩
def PWR_DOM_CTL_HOLD (i : Nat) : Fld := ⟨0xB00008 + 0x100 * i, 3, 1, 0, .rwl⟩
def row_PWR_DOM_CTL : RegRow := ⟨0xB00008, 0x100, 86, 0x0, 1, fun i _ => [PWR_DOM_CTL_MAXSTATE i, PWR_DOM_CTL_HOLD i]⟩

/-! PWR_DOM_REQ: R123 of spec/04_weather_ladder.md. -/
def PWR_DOM_REQ_TARGET (i : Nat) : Fld := ⟨0xB00010 + 0x100 * i, 0, 3, 0, .wo⟩
def PWR_DOM_REQ_GO (i : Nat) : Fld := ⟨0xB00010 + 0x100 * i, 3, 1, 0, .wo⟩
def row_PWR_DOM_REQ : RegRow := ⟨0xB00010, 0x100, 86, 0x0, 1, fun i _ => [PWR_DOM_REQ_TARGET i, PWR_DOM_REQ_GO i]⟩

/-! PWR_DOM_STATE: R123 of spec/04_weather_ladder.md. -/
def PWR_DOM_STATE_STATE (i : Nat) : Fld := ⟨0xB00018 + 0x100 * i, 0, 3, 5, .ro⟩
def PWR_DOM_STATE_STEP (i : Nat) : Fld := ⟨0xB00018 + 0x100 * i, 3, 2, 0, .ro⟩
def PWR_DOM_STATE_PINNED (i : Nat) : Fld := ⟨0xB00018 + 0x100 * i, 5, 1, 0, .ro⟩
def PWR_DOM_STATE_LENDING (i : Nat) : Fld := ⟨0xB00018 + 0x100 * i, 6, 1, 0, .ro⟩
def PWR_DOM_STATE_BORROWING (i : Nat) : Fld := ⟨0xB00018 + 0x100 * i, 7, 1, 0, .ro⟩
def PWR_DOM_STATE_WAITLULL (i : Nat) : Fld := ⟨0xB00018 + 0x100 * i, 8, 1, 0, .ro⟩
def PWR_DOM_STATE_ALLOW (i : Nat) : Fld := ⟨0xB00018 + 0x100 * i, 16, 16, 0, .ro⟩
def PWR_DOM_STATE_EST (i : Nat) : Fld := ⟨0xB00018 + 0x100 * i, 32, 16, 0, .ro⟩
def row_PWR_DOM_STATE : RegRow := ⟨0xB00018, 0x100, 86, 0x0, 1, fun i _ => [PWR_DOM_STATE_STATE i, PWR_DOM_STATE_STEP i, PWR_DOM_STATE_PINNED i, PWR_DOM_STATE_LENDING i, PWR_DOM_STATE_BORROWING i, PWR_DOM_STATE_WAITLULL i, PWR_DOM_STATE_ALLOW i, PWR_DOM_STATE_EST i]⟩

/-! PWR_DOM_ENERGY: R123 of spec/04_weather_ladder.md. -/
def PWR_DOM_ENERGY_UJ (i : Nat) : Fld := ⟨0xB00020 + 0x100 * i, 0, 64, 0, .ro⟩
def row_PWR_DOM_ENERGY : RegRow := ⟨0xB00020, 0x100, 86, 0x0, 1, fun i _ => [PWR_DOM_ENERGY_UJ i]⟩

/-! PWR_DOM_WAKES: R123 of spec/04_weather_ladder.md. -/
def PWR_DOM_WAKES_WAKES (i : Nat) : Fld := ⟨0xB00028 + 0x100 * i, 0, 32, 0, .ro⟩
def PWR_DOM_WAKES_LASTEXIT (i : Nat) : Fld := ⟨0xB00028 + 0x100 * i, 32, 32, 0, .ro⟩
def row_PWR_DOM_WAKES : RegRow := ⟨0xB00028, 0x100, 86, 0x0, 1, fun i _ => [PWR_DOM_WAKES_WAKES i, PWR_DOM_WAKES_LASTEXIT i]⟩

/-! PWR_BUDGET: R124 of spec/04_weather_ladder.md. -/
def PWR_BUDGET_MODCAP : Fld := ⟨0xB08050, 0, 16, 0x44C, .rw⟩
def PWR_BUDGET_RESERVE : Fld := ⟨0xB08050, 16, 16, 0xC8, .rw⟩
def PWR_BUDGET_XLEND : Fld := ⟨0xB08050, 32, 1, 0, .rw⟩
def PWR_BUDGET_BURST_EN : Fld := ⟨0xB08050, 33, 1, 1, .rw⟩
def row_PWR_BUDGET : RegRow := ⟨0xB08050, 0x0, 1, 0x0, 1, fun _ _ => [PWR_BUDGET_MODCAP, PWR_BUDGET_RESERVE, PWR_BUDGET_XLEND, PWR_BUDGET_BURST_EN]⟩

/-! PWR_BUDGET_STATUS: R124 of spec/04_weather_ladder.md. -/
def PWR_BUDGET_STATUS_ASSIGNED : Fld := ⟨0xB08058, 0, 16, 0, .ro⟩
def PWR_BUDGET_STATUS_SHARED : Fld := ⟨0xB08058, 16, 16, 0, .ro⟩
def PWR_BUDGET_STATUS_LENT : Fld := ⟨0xB08058, 32, 16, 0, .ro⟩
def PWR_BUDGET_STATUS_RESERVE_OVER : Fld := ⟨0xB08058, 48, 1, 0, .ro⟩
def row_PWR_BUDGET_STATUS : RegRow := ⟨0xB08058, 0x0, 1, 0x0, 1, fun _ _ => [PWR_BUDGET_STATUS_ASSIGNED, PWR_BUDGET_STATUS_SHARED, PWR_BUDGET_STATUS_LENT, PWR_BUDGET_STATUS_RESERVE_OVER]⟩

/-! PWR_TNCAP: R124 of spec/04_weather_ladder.md. -/
def PWR_TNCAP_CAP (i : Nat) : Fld := ⟨0xB08100 + 0x8 * i, 0, 16, 0, .rwl⟩
def PWR_TNCAP_MAXSTEP (i : Nat) : Fld := ⟨0xB08100 + 0x8 * i, 16, 2, 0, .rwl⟩
def PWR_TNCAP_DRAW (i : Nat) : Fld := ⟨0xB08100 + 0x8 * i, 32, 16, 0, .ro⟩
def PWR_TNCAP_BORROWED (i : Nat) : Fld := ⟨0xB08100 + 0x8 * i, 48, 12, 0, .ro⟩
def PWR_TNCAP_OVERCAP (i : Nat) : Fld := ⟨0xB08100 + 0x8 * i, 60, 1, 0, .ro⟩
def PWR_TNCAP_PINNED (i : Nat) : Fld := ⟨0xB08100 + 0x8 * i, 61, 1, 0, .ro⟩
def row_PWR_TNCAP : RegRow := ⟨0xB08100, 0x8, 17, 0x0, 1, fun i _ => [PWR_TNCAP_CAP i, PWR_TNCAP_MAXSTEP i, PWR_TNCAP_DRAW i, PWR_TNCAP_BORROWED i, PWR_TNCAP_OVERCAP i, PWR_TNCAP_PINNED i]⟩

/-! ID_PART: R138 of spec/05_staged_bring_up.md. -/
def ID_PART_PART : Fld := ⟨0x0, 0, 16, 0xA36C, .ro⟩
def ID_PART_VERSION : Fld := ⟨0x0, 16, 4, 1, .ro⟩
def row_ID_PART : RegRow := ⟨0x0, 0x0, 1, 0x0, 1, fun _ _ => [ID_PART_PART, ID_PART_VERSION]⟩

/-! ID_TILEMAP: R138 of spec/05_staged_bring_up.md. -/
def ID_TILEMAP_MAP : Fld := ⟨0x18, 0, 64, 0, .ro⟩
def row_ID_TILEMAP : RegRow := ⟨0x18, 0x0, 1, 0x0, 1, fun _ _ => [ID_TILEMAP_MAP]⟩

/-! ID_STACKMAP: R138 of spec/05_staged_bring_up.md. -/
def ID_STACKMAP_MAP : Fld := ⟨0x20, 0, 8, 0, .ro⟩
def row_ID_STACKMAP : RegRow := ⟨0x20, 0x0, 1, 0x0, 1, fun _ _ => [ID_STACKMAP_MAP]⟩

/-! ID_LINKMAP: R138 of spec/05_staged_bring_up.md. -/
def ID_LINKMAP_MAP : Fld := ⟨0x28, 0, 64, 0, .ro⟩
def row_ID_LINKMAP : RegRow := ⟨0x28, 0x0, 1, 0x0, 1, fun _ _ => [ID_LINKMAP_MAP]⟩

/-! ID_UNIT: R138 of spec/05_staged_bring_up.md. -/
def ID_UNIT_SERIAL : Fld := ⟨0x30, 0, 64, 0, .ro⟩
def row_ID_UNIT : RegRow := ⟨0x30, 0x0, 1, 0x0, 1, fun _ _ => [ID_UNIT_SERIAL]⟩

/-! BRU_REPORT0: R154 of spec/05_staged_bring_up.md. -/
def BRU_REPORT0_STAGE (i : Nat) : Fld := ⟨0x200 + 0x40 * i, 0, 4, 0, .ro⟩
def BRU_REPORT0_RESULT (i : Nat) : Fld := ⟨0x200 + 0x40 * i, 4, 2, 0, .ro⟩
def BRU_REPORT0_PATH (i : Nat) : Fld := ⟨0x200 + 0x40 * i, 6, 1, 0, .ro⟩
def BRU_REPORT0_STATUS (i : Nat) : Fld := ⟨0x200 + 0x40 * i, 8, 8, 0, .ro⟩
def BRU_REPORT0_DETAIL (i : Nat) : Fld := ⟨0x200 + 0x40 * i, 16, 16, 0, .ro⟩
def BRU_REPORT0_DURATION (i : Nat) : Fld := ⟨0x200 + 0x40 * i, 32, 32, 0, .ro⟩
def row_BRU_REPORT0 : RegRow := ⟨0x200, 0x40, 10, 0x0, 1, fun i _ => [BRU_REPORT0_STAGE i, BRU_REPORT0_RESULT i, BRU_REPORT0_PATH i, BRU_REPORT0_STATUS i, BRU_REPORT0_DETAIL i, BRU_REPORT0_DURATION i]⟩

/-! BRU_REPORT1: R154 of spec/05_staged_bring_up.md. -/
def BRU_REPORT1_START (i : Nat) : Fld := ⟨0x208 + 0x40 * i, 0, 64, 0, .ro⟩
def row_BRU_REPORT1 : RegRow := ⟨0x208, 0x40, 10, 0x0, 1, fun i _ => [BRU_REPORT1_START i]⟩

/-! BRU_STATUS: R155 of spec/05_staged_bring_up.md. -/
def BRU_STATUS_STAGE : Fld := ⟨0x100, 0, 4, 0, .ro⟩
def BRU_STATUS_RUNNING : Fld := ⟨0x100, 4, 1, 0, .ro⟩
def BRU_STATUS_READY : Fld := ⟨0x100, 5, 1, 0, .ro⟩
def BRU_STATUS_HALTED : Fld := ⟨0x100, 6, 1, 0, .ro⟩
def BRU_STATUS_RECOVERY : Fld := ⟨0x100, 7, 1, 0, .ro⟩
def BRU_STATUS_FAILSTATUS : Fld := ⟨0x100, 8, 8, 0, .ro⟩
def BRU_STATUS_FAILDETAIL : Fld := ⟨0x100, 16, 16, 0, .ro⟩
def BRU_STATUS_FAILSTAGE : Fld := ⟨0x100, 32, 4, 0xF, .ro⟩
def BRU_STATUS_FAST : Fld := ⟨0x100, 36, 1, 0, .ro⟩
def BRU_STATUS_EARLYWRITES : Fld := ⟨0x100, 40, 16, 0, .ro⟩
def row_BRU_STATUS : RegRow := ⟨0x100, 0x0, 1, 0x0, 1, fun _ _ => [BRU_STATUS_STAGE, BRU_STATUS_RUNNING, BRU_STATUS_READY, BRU_STATUS_HALTED, BRU_STATUS_RECOVERY, BRU_STATUS_FAILSTATUS, BRU_STATUS_FAILDETAIL, BRU_STATUS_FAILSTAGE, BRU_STATUS_FAST, BRU_STATUS_EARLYWRITES]⟩

/-! BRU_CTL: R155 of spec/05_staged_bring_up.md. -/
def BRU_CTL_FORCECOLD : Fld := ⟨0x110, 0, 1, 0, .rw⟩
def BRU_CTL_DISCARD : Fld := ⟨0x110, 1, 1, 0, .wo⟩
def row_BRU_CTL : RegRow := ⟨0x110, 0x0, 1, 0x0, 1, fun _ _ => [BRU_CTL_FORCECOLD, BRU_CTL_DISCARD]⟩

/-! BRU_RETIRED_T: R155 of spec/05_staged_bring_up.md. -/
def BRU_RETIRED_T_TILES : Fld := ⟨0x118, 0, 64, 0, .w1c⟩
def row_BRU_RETIRED_T : RegRow := ⟨0x118, 0x0, 1, 0x0, 1, fun _ _ => [BRU_RETIRED_T_TILES]⟩

/-! BRU_RETIRED_L: R155 of spec/05_staged_bring_up.md. -/
def BRU_RETIRED_L_LINKS : Fld := ⟨0x120, 0, 64, 0, .w1c⟩
def row_BRU_RETIRED_L : RegRow := ⟨0x120, 0x0, 1, 0x0, 1, fun _ _ => [BRU_RETIRED_L_LINKS]⟩

/-! BRU_TIMES: R155 of spec/05_staged_bring_up.md. -/
def BRU_TIMES_READYUS : Fld := ⟨0x128, 0, 32, 0, .ro⟩
def BRU_TIMES_ENUMUS : Fld := ⟨0x128, 32, 32, 0, .ro⟩
def row_BRU_TIMES : RegRow := ⟨0x128, 0x0, 1, 0x0, 1, fun _ _ => [BRU_TIMES_READYUS, BRU_TIMES_ENUMUS]⟩

/-! TILE_STATE: R195 of spec/06_tile_core.md. -/
def TILE_STATE_RUN (i : Nat) : Fld := ⟨0x400000 + 0x10000 * i, 0, 3, 0, .ro⟩
def TILE_STATE_SBCOUNT (i : Nat) : Fld := ⟨0x400000 + 0x10000 * i, 8, 4, 0, .ro⟩
def TILE_STATE_BA (i : Nat) : Fld := ⟨0x400000 + 0x10000 * i, 16, 11, 0, .ro⟩
def TILE_STATE_TENANCY (i : Nat) : Fld := ⟨0x400000 + 0x10000 * i, 32, 5, 0x1F, .ro⟩
def TILE_STATE_EPOCH (i : Nat) : Fld := ⟨0x400000 + 0x10000 * i, 48, 16, 0, .ro⟩
def row_TILE_STATE : RegRow := ⟨0x400000, 0x10000, 64, 0x0, 1, fun i _ => [TILE_STATE_RUN i, TILE_STATE_SBCOUNT i, TILE_STATE_BA i, TILE_STATE_TENANCY i, TILE_STATE_EPOCH i]⟩

/-! TILE_FAULT_INFO: R195 of spec/06_tile_core.md. -/
def TILE_FAULT_INFO_CODE (i : Nat) : Fld := ⟨0x400008 + 0x10000 * i, 0, 8, 0, .ro⟩
def TILE_FAULT_INFO_STATUS (i : Nat) : Fld := ⟨0x400008 + 0x10000 * i, 8, 8, 0, .ro⟩
def TILE_FAULT_INFO_SLOT (i : Nat) : Fld := ⟨0x400008 + 0x10000 * i, 16, 4, 0, .ro⟩
def TILE_FAULT_INFO_BA (i : Nat) : Fld := ⟨0x400008 + 0x10000 * i, 20, 11, 0, .ro⟩
def TILE_FAULT_INFO_EPOCH (i : Nat) : Fld := ⟨0x400008 + 0x10000 * i, 32, 16, 0, .ro⟩
def TILE_FAULT_INFO_VALID (i : Nat) : Fld := ⟨0x400008 + 0x10000 * i, 63, 1, 0, .ro⟩
def row_TILE_FAULT_INFO : RegRow := ⟨0x400008, 0x10000, 64, 0x0, 1, fun i _ => [TILE_FAULT_INFO_CODE i, TILE_FAULT_INFO_STATUS i, TILE_FAULT_INFO_SLOT i, TILE_FAULT_INFO_BA i, TILE_FAULT_INFO_EPOCH i, TILE_FAULT_INFO_VALID i]⟩

/-! TILE_FAULT_ADDR: R195 of spec/06_tile_core.md. -/
def TILE_FAULT_ADDR_ADDR (i : Nat) : Fld := ⟨0x400010 + 0x10000 * i, 0, 48, 0, .ro⟩
def row_TILE_FAULT_ADDR : RegRow := ⟨0x400010, 0x10000, 64, 0x0, 1, fun i _ => [TILE_FAULT_ADDR_ADDR i]⟩

/-! TILE_DBG_CTL: R195 of spec/06_tile_core.md. -/
def TILE_DBG_CTL_HALT (i : Nat) : Fld := ⟨0x400018 + 0x10000 * i, 0, 1, 0, .wo⟩
def TILE_DBG_CTL_RESUME (i : Nat) : Fld := ⟨0x400018 + 0x10000 * i, 1, 1, 0, .wo⟩
def TILE_DBG_CTL_STEP (i : Nat) : Fld := ⟨0x400018 + 0x10000 * i, 2, 1, 0, .wo⟩
def TILE_DBG_CTL_ARM (i : Nat) : Fld := ⟨0x400018 + 0x10000 * i, 3, 1, 0, .rw⟩
def TILE_DBG_CTL_LHALT (i : Nat) : Fld := ⟨0x400018 + 0x10000 * i, 4, 1, 0, .rw⟩
def row_TILE_DBG_CTL : RegRow := ⟨0x400018, 0x10000, 64, 0x0, 1, fun i _ => [TILE_DBG_CTL_HALT i, TILE_DBG_CTL_RESUME i, TILE_DBG_CTL_STEP i, TILE_DBG_CTL_ARM i, TILE_DBG_CTL_LHALT i]⟩

/-! TILE_DBG_BP: R195 of spec/06_tile_core.md. -/
def TILE_DBG_BP_BP0 (i : Nat) : Fld := ⟨0x400020 + 0x10000 * i, 0, 11, 0, .rw⟩
def TILE_DBG_BP_EN0 (i : Nat) : Fld := ⟨0x400020 + 0x10000 * i, 15, 1, 0, .rw⟩
def TILE_DBG_BP_BP1 (i : Nat) : Fld := ⟨0x400020 + 0x10000 * i, 16, 11, 0, .rw⟩
def TILE_DBG_BP_EN1 (i : Nat) : Fld := ⟨0x400020 + 0x10000 * i, 31, 1, 0, .rw⟩
def row_TILE_DBG_BP : RegRow := ⟨0x400020, 0x10000, 64, 0x0, 1, fun i _ => [TILE_DBG_BP_BP0 i, TILE_DBG_BP_EN0 i, TILE_DBG_BP_BP1 i, TILE_DBG_BP_EN1 i]⟩

/-! TILE_DBG_SEL: R195 of spec/06_tile_core.md. -/
def TILE_DBG_SEL_SPACE (i : Nat) : Fld := ⟨0x400028 + 0x10000 * i, 0, 2, 0, .rw⟩
def TILE_DBG_SEL_AUTOINC (i : Nat) : Fld := ⟨0x400028 + 0x10000 * i, 2, 1, 0, .rw⟩
def TILE_DBG_SEL_OFFSET (i : Nat) : Fld := ⟨0x400028 + 0x10000 * i, 8, 24, 0, .rw⟩
def row_TILE_DBG_SEL : RegRow := ⟨0x400028, 0x10000, 64, 0x0, 1, fun i _ => [TILE_DBG_SEL_SPACE i, TILE_DBG_SEL_AUTOINC i, TILE_DBG_SEL_OFFSET i]⟩

/-! TILE_DBG_DATA: R195 of spec/06_tile_core.md. -/
def TILE_DBG_DATA_DATA (i : Nat) : Fld := ⟨0x400030 + 0x10000 * i, 0, 64, 0, .rw⟩
def row_TILE_DBG_DATA : RegRow := ⟨0x400030, 0x10000, 64, 0x0, 1, fun i _ => [TILE_DBG_DATA_DATA i]⟩

/-! TILE_PERF: R195 of spec/06_tile_core.md. -/
def TILE_PERF_ISSUED (i : Nat) : Fld := ⟨0x400038 + 0x10000 * i, 0, 64, 0, .ro⟩
def row_TILE_PERF : RegRow := ⟨0x400038, 0x10000, 64, 0x0, 1, fun i _ => [TILE_PERF_ISSUED i]⟩

/-! TILE_STALL: R195 of spec/06_tile_core.md. -/
def TILE_STALL_DEP (i : Nat) : Fld := ⟨0x400040 + 0x10000 * i, 0, 32, 0, .ro⟩
def TILE_STALL_MEM (i : Nat) : Fld := ⟨0x400040 + 0x10000 * i, 32, 32, 0, .ro⟩
def row_TILE_STALL : RegRow := ⟨0x400040, 0x10000, 64, 0x0, 1, fun i _ => [TILE_STALL_DEP i, TILE_STALL_MEM i]⟩

/-! TILE_ECC: R195 of spec/06_tile_core.md. -/
def TILE_ECC_SPCORR (i : Nat) : Fld := ⟨0x400048 + 0x10000 * i, 0, 16, 0, .ro⟩
def TILE_ECC_ISCORR (i : Nat) : Fld := ⟨0x400048 + 0x10000 * i, 16, 16, 0, .ro⟩
def row_TILE_ECC : RegRow := ⟨0x400048, 0x10000, 64, 0x0, 1, fun i _ => [TILE_ECC_SPCORR i, TILE_ECC_ISCORR i]⟩

/-! TILE_MX_CFG: R226 of spec/07_panels_and_cubes.md. -/
def TILE_MX_CFG_GANG (i : Nat) : Fld := ⟨0x400080 + 0x10000 * i, 0, 2, 0, .ro⟩
def TILE_MX_CFG_CUBE (i : Nat) : Fld := ⟨0x400080 + 0x10000 * i, 2, 1, 0, .ro⟩
def TILE_MX_CFG_FMTA (i : Nat) : Fld := ⟨0x400080 + 0x10000 * i, 3, 3, 0, .ro⟩
def TILE_MX_CFG_FMTB (i : Nat) : Fld := ⟨0x400080 + 0x10000 * i, 6, 3, 0, .ro⟩
def TILE_MX_CFG_ACC (i : Nat) : Fld := ⟨0x400080 + 0x10000 * i, 9, 2, 0, .ro⟩
def TILE_MX_CFG_FEED (i : Nat) : Fld := ⟨0x400080 + 0x10000 * i, 11, 1, 0, .ro⟩
def TILE_MX_CFG_LOADED (i : Nat) : Fld := ⟨0x400080 + 0x10000 * i, 12, 4, 0, .ro⟩
def row_TILE_MX_CFG : RegRow := ⟨0x400080, 0x10000, 64, 0x0, 1, fun i _ => [TILE_MX_CFG_GANG i, TILE_MX_CFG_CUBE i, TILE_MX_CFG_FMTA i, TILE_MX_CFG_FMTB i, TILE_MX_CFG_ACC i, TILE_MX_CFG_FEED i, TILE_MX_CFG_LOADED i]⟩

/-! TILE_MX_STATUS: R226 of spec/07_panels_and_cubes.md. -/
def TILE_MX_STATUS_BUSY (i : Nat) : Fld := ⟨0x400088 + 0x10000 * i, 0, 4, 0, .ro⟩
def TILE_MX_STATUS_QCOUNT (i : Nat) : Fld := ⟨0x400088 + 0x10000 * i, 4, 8, 0, .ro⟩
def TILE_MX_STATUS_ISAT (i : Nat) : Fld := ⟨0x400088 + 0x10000 * i, 12, 1, 0, .ro⟩
def row_TILE_MX_STATUS : RegRow := ⟨0x400088, 0x10000, 64, 0x0, 1, fun i _ => [TILE_MX_STATUS_BUSY i, TILE_MX_STATUS_QCOUNT i, TILE_MX_STATUS_ISAT i]⟩

/-! TILE_MX_CSUM: R226 of spec/07_panels_and_cubes.md. -/
def TILE_MX_CSUM_COMPARES (i : Nat) : Fld := ⟨0x400090 + 0x10000 * i, 0, 48, 0, .ro⟩
def TILE_MX_CSUM_MISMATCH (i : Nat) : Fld := ⟨0x400090 + 0x10000 * i, 48, 16, 0, .ro⟩
def row_TILE_MX_CSUM : RegRow := ⟨0x400090, 0x10000, 64, 0x0, 1, fun i _ => [TILE_MX_CSUM_COMPARES i, TILE_MX_CSUM_MISMATCH i]⟩

/-! TILE_MX_WORK: R226 of spec/07_panels_and_cubes.md. -/
def TILE_MX_WORK_STREAMTCLK (i : Nat) : Fld := ⟨0x400098 + 0x10000 * i, 0, 40, 0, .ro⟩
def TILE_MX_WORK_DRIZZLE (i : Nat) : Fld := ⟨0x400098 + 0x10000 * i, 40, 24, 0, .ro⟩
def row_TILE_MX_WORK : RegRow := ⟨0x400098, 0x10000, 64, 0x0, 1, fun i _ => [TILE_MX_WORK_STREAMTCLK i, TILE_MX_WORK_DRIZZLE i]⟩

/-! TILE_VX_STATUS: R275 of spec/09_vector_engine.md. -/
def TILE_VX_STATUS_BUSY (i : Nat) : Fld := ⟨0x4000A0 + 0x10000 * i, 0, 1, 0, .ro⟩
def TILE_VX_STATUS_QCOUNT (i : Nat) : Fld := ⟨0x4000A0 + 0x10000 * i, 1, 3, 0, .ro⟩
def TILE_VX_STATUS_CLAIMED (i : Nat) : Fld := ⟨0x4000A0 + 0x10000 * i, 4, 1, 0, .ro⟩
def TILE_VX_STATUS_CPANEL (i : Nat) : Fld := ⟨0x4000A0 + 0x10000 * i, 5, 2, 0, .ro⟩
def TILE_VX_STATUS_CBANK (i : Nat) : Fld := ⟨0x4000A0 + 0x10000 * i, 7, 1, 0, .ro⟩
def TILE_VX_STATUS_EMPTY (i : Nat) : Fld := ⟨0x4000A0 + 0x10000 * i, 8, 1, 0, .ro⟩
def TILE_VX_STATUS_ISAT (i : Nat) : Fld := ⟨0x4000A0 + 0x10000 * i, 9, 1, 0, .ro⟩
def row_TILE_VX_STATUS : RegRow := ⟨0x4000A0, 0x10000, 64, 0x0, 1, fun i _ => [TILE_VX_STATUS_BUSY i, TILE_VX_STATUS_QCOUNT i, TILE_VX_STATUS_CLAIMED i, TILE_VX_STATUS_CPANEL i, TILE_VX_STATUS_CBANK i, TILE_VX_STATUS_EMPTY i, TILE_VX_STATUS_ISAT i]⟩

/-! TILE_VX_WORK: R275 of spec/09_vector_engine.md. -/
def TILE_VX_WORK_LANETCLK (i : Nat) : Fld := ⟨0x4000A8 + 0x10000 * i, 0, 40, 0, .ro⟩
def TILE_VX_WORK_EMPTYROWS (i : Nat) : Fld := ⟨0x4000A8 + 0x10000 * i, 40, 24, 0, .ro⟩
def row_TILE_VX_WORK : RegRow := ⟨0x4000A8, 0x10000, 64, 0x0, 1, fun i _ => [TILE_VX_WORK_LANETCLK i, TILE_VX_WORK_EMPTYROWS i]⟩

/-! PQ_SET: R279 of spec/10_token_queues.md. -/
def PQ_SET_REST (i : Nat) : Fld := ⟨0xC08000 + 0x8 * i, 0, 24, 0, .rwl⟩
def PQ_SET_STRICT (i : Nat) : Fld := ⟨0xC08000 + 0x8 * i, 24, 1, 0, .rwl⟩
def PQ_SET_SWEEP (i : Nat) : Fld := ⟨0xC08000 + 0x8 * i, 25, 1, 0, .rwl⟩
def PQ_SET_OVF (i : Nat) : Fld := ⟨0xC08000 + 0x8 * i, 26, 1, 0, .w1c⟩
def PQ_SET_LASTSRC (i : Nat) : Fld := ⟨0xC08000 + 0x8 * i, 32, 6, 0, .ro⟩
def PQ_SET_LASTMOD (i : Nat) : Fld := ⟨0xC08000 + 0x8 * i, 38, 6, 0, .ro⟩
def PQ_SET_LASTVALID (i : Nat) : Fld := ⟨0xC08000 + 0x8 * i, 44, 1, 0, .ro⟩
def PQ_SET_LASTDMA (i : Nat) : Fld := ⟨0xC08000 + 0x8 * i, 45, 1, 0, .ro⟩
def PQ_SET_LASTHOST (i : Nat) : Fld := ⟨0xC08000 + 0x8 * i, 46, 1, 0, .ro⟩
def PQ_SET_LASTRIME (i : Nat) : Fld := ⟨0xC08000 + 0x8 * i, 47, 1, 0, .ro⟩
def PQ_SET_OWNER (i : Nat) : Fld := ⟨0xC08000 + 0x8 * i, 48, 5, 0x1F, .ro⟩
def row_PQ_SET : RegRow := ⟨0xC08000, 0x8, 4096, 0x0, 1, fun i _ => [PQ_SET_REST i, PQ_SET_STRICT i, PQ_SET_SWEEP i, PQ_SET_OVF i, PQ_SET_LASTSRC i, PQ_SET_LASTMOD i, PQ_SET_LASTVALID i, PQ_SET_LASTDMA i, PQ_SET_LASTHOST i, PQ_SET_LASTRIME i, PQ_SET_OWNER i]⟩

/-! TILE_Q_WAIT: R308 of spec/10_token_queues.md. -/
def TILE_Q_WAIT_QUEUE (i : Nat) : Fld := ⟨0x4000B0 + 0x10000 * i, 0, 12, 0, .ro⟩
def TILE_Q_WAIT_POOL (i : Nat) : Fld := ⟨0x4000B0 + 0x10000 * i, 12, 1, 0, .ro⟩
def TILE_Q_WAIT_OP (i : Nat) : Fld := ⟨0x4000B0 + 0x10000 * i, 13, 3, 0, .ro⟩
def TILE_Q_WAIT_DEPTH (i : Nat) : Fld := ⟨0x4000B0 + 0x10000 * i, 16, 2, 0, .ro⟩
def TILE_Q_WAIT_ACTIVE (i : Nat) : Fld := ⟨0x4000B0 + 0x10000 * i, 18, 1, 0, .ro⟩
def TILE_Q_WAIT_SWEEPLATCH (i : Nat) : Fld := ⟨0x4000B0 + 0x10000 * i, 19, 1, 0, .ro⟩
def TILE_Q_WAIT_COUNT (i : Nat) : Fld := ⟨0x4000B0 + 0x10000 * i, 24, 24, 0, .ro⟩
def row_TILE_Q_WAIT : RegRow := ⟨0x4000B0, 0x10000, 64, 0x0, 1, fun i _ => [TILE_Q_WAIT_QUEUE i, TILE_Q_WAIT_POOL i, TILE_Q_WAIT_OP i, TILE_Q_WAIT_DEPTH i, TILE_Q_WAIT_ACTIVE i, TILE_Q_WAIT_SWEEPLATCH i, TILE_Q_WAIT_COUNT i]⟩

/-! TILE_Q_WSTART: R308 of spec/10_token_queues.md. -/
def TILE_Q_WSTART_TICK (i : Nat) : Fld := ⟨0x4000B8 + 0x10000 * i, 0, 64, 0, .ro⟩
def row_TILE_Q_WSTART : RegRow := ⟨0x4000B8, 0x10000, 64, 0x0, 1, fun i _ => [TILE_Q_WSTART_TICK i]⟩

/-! PQ_VAL: R308 of spec/10_token_queues.md. -/
def PQ_VAL_VALUE (i : Nat) : Fld := ⟨0xC00000 + 0x8 * i, 0, 24, 0, .rwl⟩
def row_PQ_VAL : RegRow := ⟨0xC00000, 0x8, 4096, 0x0, 1, fun i _ => [PQ_VAL_VALUE i]⟩

/-! PQ_TNCFG: R308 of spec/10_token_queues.md. -/
def PQ_TNCFG_BASE (i : Nat) : Fld := ⟨0xC10000 + 0x8 * i, 0, 12, 0, .rwl⟩
def PQ_TNCFG_COUNT (i : Nat) : Fld := ⟨0xC10000 + 0x8 * i, 16, 13, 0, .rwl⟩
def PQ_TNCFG_TIMEOUT (i : Nat) : Fld := ⟨0xC10000 + 0x8 * i, 32, 20, 0x186A0, .rwl⟩
def row_PQ_TNCFG : RegRow := ⟨0xC10000, 0x8, 17, 0x0, 1, fun i _ => [PQ_TNCFG_BASE i, PQ_TNCFG_COUNT i, PQ_TNCFG_TIMEOUT i]⟩

/-! PQ_TNSWEEP: R308 of spec/10_token_queues.md. -/
def PQ_TNSWEEP_SWEEPQ (i : Nat) : Fld := ⟨0xC10100 + 0x8 * i, 0, 12, 0, .rwl⟩
def PQ_TNSWEEP_EN (i : Nat) : Fld := ⟨0xC10100 + 0x8 * i, 12, 1, 0, .rwl⟩
def PQ_TNSWEEP_DRIFTSTOP (i : Nat) : Fld := ⟨0xC10100 + 0x8 * i, 13, 1, 0, .rwl⟩
def PQ_TNSWEEP_N (i : Nat) : Fld := ⟨0xC10100 + 0x8 * i, 16, 7, 0, .ro⟩
def PQ_TNSWEEP_SWEEPS (i : Nat) : Fld := ⟨0xC10100 + 0x8 * i, 32, 16, 0, .ro⟩
def PQ_TNSWEEP_DRIFTS (i : Nat) : Fld := ⟨0xC10100 + 0x8 * i, 48, 16, 0, .ro⟩
def row_PQ_TNSWEEP : RegRow := ⟨0xC10100, 0x8, 17, 0x0, 1, fun i _ => [PQ_TNSWEEP_SWEEPQ i, PQ_TNSWEEP_EN i, PQ_TNSWEEP_DRIFTSTOP i, PQ_TNSWEEP_N i, PQ_TNSWEEP_SWEEPS i, PQ_TNSWEEP_DRIFTS i]⟩

/-! PQ_SNAP_CTL: R308 of spec/10_token_queues.md. -/
def PQ_SNAP_CTL_GO : Fld := ⟨0xC10200, 0, 1, 0, .wo⟩
def PQ_SNAP_CTL_DONE : Fld := ⟨0xC10200, 1, 1, 0, .ro⟩
def PQ_SNAP_CTL_BUSY : Fld := ⟨0xC10200, 2, 1, 0, .ro⟩
def row_PQ_SNAP_CTL : RegRow := ⟨0xC10200, 0x0, 1, 0x0, 1, fun _ _ => [PQ_SNAP_CTL_GO, PQ_SNAP_CTL_DONE, PQ_SNAP_CTL_BUSY]⟩

/-! PQ_ISO_ERR: R308 of spec/10_token_queues.md. -/
def PQ_ISO_ERR_RETRIED : Fld := ⟨0xC10208, 0, 32, 0, .ro⟩
def PQ_ISO_ERR_STALE : Fld := ⟨0xC10208, 32, 16, 0, .ro⟩
def PQ_ISO_ERR_FAILED : Fld := ⟨0xC10208, 48, 16, 0, .ro⟩
def row_PQ_ISO_ERR : RegRow := ⟨0xC10208, 0x0, 1, 0x0, 1, fun _ _ => [PQ_ISO_ERR_RETRIED, PQ_ISO_ERR_STALE, PQ_ISO_ERR_FAILED]⟩

/-! TILE_DMA_STATUS: R349 of spec/11_jetstream_memory_dma.md. -/
def TILE_DMA_STATUS_QC (i : Nat) : Fld := ⟨0x4000C0 + 0x10000 * i, 0, 12, 0, .ro⟩
def row_TILE_DMA_STATUS : RegRow := ⟨0x4000C0, 0x10000, 64, 0x0, 1, fun i _ => [TILE_DMA_STATUS_QC i]⟩

/-! TILE_DMA_BYTES: R349 of spec/11_jetstream_memory_dma.md. -/
def TILE_DMA_BYTES_BYTES (i : Nat) : Fld := ⟨0x4000C8 + 0x10000 * i, 0, 64, 0, .ro⟩
def row_TILE_DMA_BYTES : RegRow := ⟨0x4000C8, 0x10000, 64, 0x0, 1, fun i _ => [TILE_DMA_BYTES_BYTES i]⟩

/-! TILE_JS_STAT: R349 of spec/11_jetstream_memory_dma.md. -/
def TILE_JS_STAT_DYNWAIT (i : Nat) : Fld := ⟨0x4000D0 + 0x10000 * i, 0, 32, 0, .ro⟩
def TILE_JS_STAT_LATE (i : Nat) : Fld := ⟨0x4000D0 + 0x10000 * i, 32, 16, 0, .ro⟩
def row_TILE_JS_STAT : RegRow := ⟨0x4000D0, 0x10000, 64, 0x0, 1, fun i _ => [TILE_JS_STAT_DYNWAIT i, TILE_JS_STAT_LATE i]⟩

/-! TILE_JS_ERR: R349 of spec/11_jetstream_memory_dma.md. -/
def TILE_JS_ERR_CORR (i : Nat) : Fld := ⟨0x4000D8 + 0x10000 * i, 0, 16, 0, .ro⟩
def TILE_JS_ERR_UNCORR (i : Nat) : Fld := ⟨0x4000D8 + 0x10000 * i, 16, 16, 0, .ro⟩
def row_TILE_JS_ERR : RegRow := ⟨0x4000D8, 0x10000, 64, 0x0, 1, fun i _ => [TILE_JS_ERR_CORR i, TILE_JS_ERR_UNCORR i]⟩

/-! TILE_JS_SLOTSEL: R349 of spec/11_jetstream_memory_dma.md. -/
def TILE_JS_SLOTSEL_SLOT (i : Nat) : Fld := ⟨0x4000E0 + 0x10000 * i, 0, 10, 0, .rw⟩
def TILE_JS_SLOTSEL_OUTPORT (i : Nat) : Fld := ⟨0x4000E0 + 0x10000 * i, 10, 3, 0, .rw⟩
def row_TILE_JS_SLOTSEL : RegRow := ⟨0x4000E0, 0x10000, 64, 0x0, 1, fun i _ => [TILE_JS_SLOTSEL_SLOT i, TILE_JS_SLOTSEL_OUTPORT i]⟩

/-! TILE_JS_SLOTDATA: R349 of spec/11_jetstream_memory_dma.md. -/
def TILE_JS_SLOTDATA_ENTRY (i : Nat) : Fld := ⟨0x4000E8 + 0x10000 * i, 0, 32, 0, .ro⟩
def row_TILE_JS_SLOTDATA : RegRow := ⟨0x4000E8, 0x10000, 64, 0x0, 1, fun i _ => [TILE_JS_SLOTDATA_ENTRY i]⟩

/-! MEM_STATUS: R350 of spec/11_jetstream_memory_dma.md. -/
def MEM_STATUS_STATE (i : Nat) : Fld := ⟨0x800000 + 0x10000 * i, 0, 3, 5, .ro⟩
def MEM_STATUS_PRESENT (i : Nat) : Fld := ⟨0x800000 + 0x10000 * i, 3, 1, 0, .ro⟩
def MEM_STATUS_HOT (i : Nat) : Fld := ⟨0x800000 + 0x10000 * i, 4, 1, 0, .ro⟩
def MEM_STATUS_BEHIND (i : Nat) : Fld := ⟨0x800000 + 0x10000 * i, 5, 1, 0, .ro⟩
def MEM_STATUS_TEMP (i : Nat) : Fld := ⟨0x800000 + 0x10000 * i, 8, 8, 0, .ro⟩
def row_MEM_STATUS : RegRow := ⟨0x800000, 0x10000, 8, 0x0, 1, fun i _ => [MEM_STATUS_STATE i, MEM_STATUS_PRESENT i, MEM_STATUS_HOT i, MEM_STATUS_BEHIND i, MEM_STATUS_TEMP i]⟩

/-! MEM_ECC: R350 of spec/11_jetstream_memory_dma.md. -/
def MEM_ECC_CORR (i : Nat) : Fld := ⟨0x800008 + 0x10000 * i, 0, 32, 0, .ro⟩
def MEM_ECC_UNCORR (i : Nat) : Fld := ⟨0x800008 + 0x10000 * i, 32, 16, 0, .ro⟩
def MEM_ECC_POISON (i : Nat) : Fld := ⟨0x800008 + 0x10000 * i, 48, 16, 0, .ro⟩
def row_MEM_ECC : RegRow := ⟨0x800008, 0x10000, 8, 0x0, 1, fun i _ => [MEM_ECC_CORR i, MEM_ECC_UNCORR i, MEM_ECC_POISON i]⟩

/-! MEM_ECC_ADDR: R350 of spec/11_jetstream_memory_dma.md. -/
def MEM_ECC_ADDR_ADDR (i : Nat) : Fld := ⟨0x800010 + 0x10000 * i, 0, 38, 0, .ro⟩
def MEM_ECC_ADDR_OWNER (i : Nat) : Fld := ⟨0x800010 + 0x10000 * i, 40, 5, 0x1F, .ro⟩
def MEM_ECC_ADDR_VALID (i : Nat) : Fld := ⟨0x800010 + 0x10000 * i, 63, 1, 0, .w1c⟩
def row_MEM_ECC_ADDR : RegRow := ⟨0x800010, 0x10000, 8, 0x0, 1, fun i _ => [MEM_ECC_ADDR_ADDR i, MEM_ECC_ADDR_OWNER i, MEM_ECC_ADDR_VALID i]⟩

/-! MEM_SCRUB: R350 of spec/11_jetstream_memory_dma.md. -/
def MEM_SCRUB_PERIOD (i : Nat) : Fld := ⟨0x800018 + 0x10000 * i, 0, 8, 0xC, .rw⟩
def MEM_SCRUB_EN (i : Nat) : Fld := ⟨0x800018 + 0x10000 * i, 8, 1, 1, .rw⟩
def MEM_SCRUB_BEHIND (i : Nat) : Fld := ⟨0x800018 + 0x10000 * i, 9, 1, 0, .ro⟩
def MEM_SCRUB_PASSES (i : Nat) : Fld := ⟨0x800018 + 0x10000 * i, 16, 32, 0, .ro⟩
def MEM_SCRUB_PROGRESS (i : Nat) : Fld := ⟨0x800018 + 0x10000 * i, 48, 16, 0, .ro⟩
def row_MEM_SCRUB : RegRow := ⟨0x800018, 0x10000, 8, 0x0, 1, fun i _ => [MEM_SCRUB_PERIOD i, MEM_SCRUB_EN i, MEM_SCRUB_BEHIND i, MEM_SCRUB_PASSES i, MEM_SCRUB_PROGRESS i]⟩

/-! MEM_TRAFFIC: R350 of spec/11_jetstream_memory_dma.md. -/
def MEM_TRAFFIC_RDMIB (i : Nat) : Fld := ⟨0x800020 + 0x10000 * i, 0, 32, 0, .ro⟩
def MEM_TRAFFIC_WRMIB (i : Nat) : Fld := ⟨0x800020 + 0x10000 * i, 32, 32, 0, .ro⟩
def row_MEM_TRAFFIC : RegRow := ⟨0x800020, 0x10000, 8, 0x0, 1, fun i _ => [MEM_TRAFFIC_RDMIB i, MEM_TRAFFIC_WRMIB i]⟩

/-! MEM_SLOT_STAT: R350 of spec/11_jetstream_memory_dma.md. -/
def MEM_SLOT_STAT_LATE (i : Nat) : Fld := ⟨0x800028 + 0x10000 * i, 0, 32, 0, .ro⟩
def MEM_SLOT_STAT_FREED (i : Nat) : Fld := ⟨0x800028 + 0x10000 * i, 32, 32, 0, .ro⟩
def row_MEM_SLOT_STAT : RegRow := ⟨0x800028, 0x10000, 8, 0x0, 1, fun i _ => [MEM_SLOT_STAT_LATE i, MEM_SLOT_STAT_FREED i]⟩

/-! MEM_SLOTSEL: R350 of spec/11_jetstream_memory_dma.md. -/
def MEM_SLOTSEL_SLOT (i : Nat) : Fld := ⟨0x800030 + 0x10000 * i, 0, 9, 0, .rw⟩
def MEM_SLOTSEL_PCS (i : Nat) : Fld := ⟨0x800030 + 0x10000 * i, 9, 5, 0, .rw⟩
def row_MEM_SLOTSEL : RegRow := ⟨0x800030, 0x10000, 8, 0x0, 1, fun i _ => [MEM_SLOTSEL_SLOT i, MEM_SLOTSEL_PCS i]⟩

/-! MEM_SLOTDATA: R350 of spec/11_jetstream_memory_dma.md. -/
def MEM_SLOTDATA_ENTRY (i : Nat) : Fld := ⟨0x800038 + 0x10000 * i, 0, 32, 0, .ro⟩
def row_MEM_SLOTDATA : RegRow := ⟨0x800038, 0x10000, 8, 0x0, 1, fun i _ => [MEM_SLOTDATA_ENTRY i]⟩

/-! MEM_GROUPMODE: R351 of spec/11_jetstream_memory_dma.md. -/
def MEM_GROUPMODE_LOCAL : Fld := ⟨0x880000, 0, 32, 0, .rw⟩
def row_MEM_GROUPMODE : RegRow := ⟨0x880000, 0x0, 1, 0x0, 1, fun _ _ => [MEM_GROUPMODE_LOCAL]⟩

/-! MEM_BSW_STAT: R351 of spec/11_jetstream_memory_dma.md. -/
def MEM_BSW_STAT_BRWAIT : Fld := ⟨0x880008, 0, 32, 0, .ro⟩
def MEM_BSW_STAT_LATE : Fld := ⟨0x880008, 32, 16, 0, .ro⟩
def MEM_BSW_STAT_UNCORR : Fld := ⟨0x880008, 48, 16, 0, .ro⟩
def row_MEM_BSW_STAT : RegRow := ⟨0x880008, 0x0, 1, 0x0, 1, fun _ _ => [MEM_BSW_STAT_BRWAIT, MEM_BSW_STAT_LATE, MEM_BSW_STAT_UNCORR]⟩

/-! MEM_BSW_SLOTSEL: R351 of spec/11_jetstream_memory_dma.md. -/
def MEM_BSW_SLOTSEL_SLOT : Fld := ⟨0x880010, 0, 10, 0, .rw⟩
def MEM_BSW_SLOTSEL_OUTPORT : Fld := ⟨0x880010, 10, 7, 0, .rw⟩
def MEM_BSW_SLOTSEL_QUAD : Fld := ⟨0x880010, 17, 2, 0, .rw⟩
def row_MEM_BSW_SLOTSEL : RegRow := ⟨0x880010, 0x0, 1, 0x0, 1, fun _ _ => [MEM_BSW_SLOTSEL_SLOT, MEM_BSW_SLOTSEL_OUTPORT, MEM_BSW_SLOTSEL_QUAD]⟩

/-! MEM_BSW_SLOTDATA: R351 of spec/11_jetstream_memory_dma.md. -/
def MEM_BSW_SLOTDATA_ENTRY : Fld := ⟨0x880018, 0, 32, 0, .ro⟩
def row_MEM_BSW_SLOTDATA : RegRow := ⟨0x880018, 0x0, 1, 0x0, 1, fun _ _ => [MEM_BSW_SLOTDATA_ENTRY]⟩

/-! LNK_STATUS: R389 of spec/12_full_mesh_domain.md. -/
def LNK_STATUS_STATE (i : Nat) : Fld := ⟨0x900000 + 0x1000 * i, 0, 4, 0, .ro⟩
def LNK_STATUS_CAUSE (i : Nat) : Fld := ⟨0x900000 + 0x1000 * i, 4, 4, 0, .ro⟩
def LNK_STATUS_PEERMOD (i : Nat) : Fld := ⟨0x900000 + 0x1000 * i, 8, 6, 0, .ro⟩
def LNK_STATUS_PEERLINK (i : Nat) : Fld := ⟨0x900000 + 0x1000 * i, 14, 6, 0, .ro⟩
def LNK_STATUS_LANEORDER (i : Nat) : Fld := ⟨0x900000 + 0x1000 * i, 20, 1, 0, .ro⟩
def LNK_STATUS_SPARE (i : Nat) : Fld := ⟨0x900000 + 0x1000 * i, 21, 1, 0, .ro⟩
def LNK_STATUS_MEMBER (i : Nat) : Fld := ⟨0x900000 + 0x1000 * i, 22, 6, 0, .ro⟩
def LNK_STATUS_DOWNS (i : Nat) : Fld := ⟨0x900000 + 0x1000 * i, 32, 16, 0, .ro⟩
def row_LNK_STATUS : RegRow := ⟨0x900000, 0x1000, 64, 0x0, 1, fun i _ => [LNK_STATUS_STATE i, LNK_STATUS_CAUSE i, LNK_STATUS_PEERMOD i, LNK_STATUS_PEERLINK i, LNK_STATUS_LANEORDER i, LNK_STATUS_SPARE i, LNK_STATUS_MEMBER i, LNK_STATUS_DOWNS i]⟩

/-! LNK_CTL: R389 of spec/12_full_mesh_domain.md. -/
def LNK_CTL_EN (i : Nat) : Fld := ⟨0x900008 + 0x1000 * i, 0, 1, 1, .rw⟩
def LNK_CTL_RETRAIN (i : Nat) : Fld := ⟨0x900008 + 0x1000 * i, 1, 1, 0, .wo⟩
def LNK_CTL_SPAREPEER (i : Nat) : Fld := ⟨0x900008 + 0x1000 * i, 8, 6, 0, .rw⟩
def LNK_CTL_SPAREEN (i : Nat) : Fld := ⟨0x900008 + 0x1000 * i, 14, 1, 0, .rw⟩
def LNK_CTL_SPAREMEMBER (i : Nat) : Fld := ⟨0x900008 + 0x1000 * i, 16, 6, 0, .rw⟩
def row_LNK_CTL : RegRow := ⟨0x900008, 0x1000, 64, 0x0, 1, fun i _ => [LNK_CTL_EN i, LNK_CTL_RETRAIN i, LNK_CTL_SPAREPEER i, LNK_CTL_SPAREEN i, LNK_CTL_SPAREMEMBER i]⟩

/-! LNK_PEER: R389 of spec/12_full_mesh_domain.md. -/
def LNK_PEER_SERIAL (i : Nat) : Fld := ⟨0x900010 + 0x1000 * i, 0, 64, 0, .ro⟩
def row_LNK_PEER : RegRow := ⟨0x900010, 0x1000, 64, 0x0, 1, fun i _ => [LNK_PEER_SERIAL i]⟩

/-! LNK_TIME: R389 of spec/12_full_mesh_domain.md. -/
def LNK_TIME_FLIGHT (i : Nat) : Fld := ⟨0x900018 + 0x1000 * i, 0, 16, 0, .ro⟩
def LNK_TIME_LAMBDA (i : Nat) : Fld := ⟨0x900018 + 0x1000 * i, 16, 16, 0, .ro⟩
def LNK_TIME_OFFSET (i : Nat) : Fld := ⟨0x900018 + 0x1000 * i, 32, 16, 0, .ro⟩
def row_LNK_TIME : RegRow := ⟨0x900018, 0x1000, 64, 0x0, 1, fun i _ => [LNK_TIME_FLIGHT i, LNK_TIME_LAMBDA i, LNK_TIME_OFFSET i]⟩

/-! LNK_ERR: R389 of spec/12_full_mesh_domain.md. -/
def LNK_ERR_FECSYM (i : Nat) : Fld := ⟨0x900020 + 0x1000 * i, 0, 32, 0, .ro⟩
def LNK_ERR_UNCORR (i : Nat) : Fld := ⟨0x900020 + 0x1000 * i, 32, 16, 0, .ro⟩
def LNK_ERR_REPLAYS (i : Nat) : Fld := ⟨0x900020 + 0x1000 * i, 48, 16, 0, .ro⟩
def row_LNK_ERR : RegRow := ⟨0x900020, 0x1000, 64, 0x0, 1, fun i _ => [LNK_ERR_FECSYM i, LNK_ERR_UNCORR i, LNK_ERR_REPLAYS i]⟩

/-! LNK_QUAL: R389 of spec/12_full_mesh_domain.md. -/
def LNK_QUAL_FAILED (i : Nat) : Fld := ⟨0x900028 + 0x1000 * i, 0, 2, 0, .ro⟩
def LNK_QUAL_RXQUAL (i : Nat) : Fld := ⟨0x900028 + 0x1000 * i, 2, 1, 0, .ro⟩
def LNK_QUAL_TXQUAL (i : Nat) : Fld := ⟨0x900028 + 0x1000 * i, 3, 1, 0, .ro⟩
def row_LNK_QUAL : RegRow := ⟨0x900028, 0x1000, 64, 0x0, 1, fun i _ => [LNK_QUAL_FAILED i, LNK_QUAL_RXQUAL i, LNK_QUAL_TXQUAL i]⟩

/-! LNK_LATE: R389 of spec/12_full_mesh_domain.md. -/
def LNK_LATE_LATE (i : Nat) : Fld := ⟨0x900030 + 0x1000 * i, 0, 32, 0, .ro⟩
def LNK_LATE_DISCARD (i : Nat) : Fld := ⟨0x900030 + 0x1000 * i, 32, 16, 0, .ro⟩
def LNK_LATE_RELAYED (i : Nat) : Fld := ⟨0x900030 + 0x1000 * i, 48, 16, 0, .ro⟩
def row_LNK_LATE : RegRow := ⟨0x900030, 0x1000, 64, 0x0, 1, fun i _ => [LNK_LATE_LATE i, LNK_LATE_DISCARD i, LNK_LATE_RELAYED i]⟩

/-! LNK_SLOTSEL: R389 of spec/12_full_mesh_domain.md. -/
def LNK_SLOTSEL_SLOT (i : Nat) : Fld := ⟨0x900038 + 0x1000 * i, 0, 8, 0, .rw⟩
def row_LNK_SLOTSEL : RegRow := ⟨0x900038, 0x1000, 64, 0x0, 1, fun i _ => [LNK_SLOTSEL_SLOT i]⟩

/-! LNK_SLOTDATA: R389 of spec/12_full_mesh_domain.md. -/
def LNK_SLOTDATA_ENTRY (i : Nat) : Fld := ⟨0x900040 + 0x1000 * i, 0, 32, 0, .ro⟩
def row_LNK_SLOTDATA : RegRow := ⟨0x900040, 0x1000, 64, 0x0, 1, fun i _ => [LNK_SLOTDATA_ENTRY i]⟩

/-! LNK_DOM_CFG: R390 of spec/12_full_mesh_domain.md. -/
def LNK_DOM_CFG_MODNUM : Fld := ⟨0x940000, 0, 6, 0, .rw⟩
def LNK_DOM_CFG_N : Fld := ⟨0x940000, 6, 7, 0, .rw⟩
def LNK_DOM_CFG_P31 : Fld := ⟨0x940000, 13, 1, 0, .rw⟩
def LNK_DOM_CFG_HOLD : Fld := ⟨0x940000, 16, 9, 0x96, .rw⟩
def LNK_DOM_CFG_EN : Fld := ⟨0x940000, 32, 1, 0, .rw⟩
def LNK_DOM_CFG_REJOIN : Fld := ⟨0x940000, 33, 1, 0, .wo⟩
def row_LNK_DOM_CFG : RegRow := ⟨0x940000, 0x0, 1, 0x0, 1, fun _ _ => [LNK_DOM_CFG_MODNUM, LNK_DOM_CFG_N, LNK_DOM_CFG_P31, LNK_DOM_CFG_HOLD, LNK_DOM_CFG_EN, LNK_DOM_CFG_REJOIN]⟩

/-! LNK_DOM_DESC: R390 of spec/12_full_mesh_domain.md. -/
def LNK_DOM_DESC_DESC (i : Nat) : Fld := ⟨0x940040 + 0x8 * i, 0, 64, 0, .rw⟩
def row_LNK_DOM_DESC : RegRow := ⟨0x940040, 0x8, 8, 0x0, 1, fun i _ => [LNK_DOM_DESC_DESC i]⟩

/-! LNK_DOM_DIGEST: R390 of spec/12_full_mesh_domain.md. -/
def LNK_DOM_DIGEST_DIGEST (i : Nat) : Fld := ⟨0x940080 + 0x8 * i, 0, 64, 0, .ro⟩
def row_LNK_DOM_DIGEST : RegRow := ⟨0x940080, 0x8, 6, 0x0, 1, fun i _ => [LNK_DOM_DIGEST_DIGEST i]⟩

/-! LNK_DOM_TIME: R390 of spec/12_full_mesh_domain.md. -/
def LNK_DOM_TIME_MASTER : Fld := ⟨0x9400C0, 0, 6, 0, .ro⟩
def LNK_DOM_TIME_ISMASTER : Fld := ⟨0x9400C0, 6, 1, 0, .ro⟩
def LNK_DOM_TIME_SYNCED : Fld := ⟨0x9400C0, 7, 1, 0, .ro⟩
def LNK_DOM_TIME_FENCED : Fld := ⟨0x9400C0, 8, 1, 0, .ro⟩
def LNK_DOM_TIME_OFFSET : Fld := ⟨0x9400C0, 16, 16, 0, .ro⟩
def LNK_DOM_TIME_STEER : Fld := ⟨0x9400C0, 32, 16, 0, .ro⟩
def row_LNK_DOM_TIME : RegRow := ⟨0x9400C0, 0x0, 1, 0x0, 1, fun _ _ => [LNK_DOM_TIME_MASTER, LNK_DOM_TIME_ISMASTER, LNK_DOM_TIME_SYNCED, LNK_DOM_TIME_FENCED, LNK_DOM_TIME_OFFSET, LNK_DOM_TIME_STEER]⟩

/-! LNK_DOM_MAP: R390 of spec/12_full_mesh_domain.md. -/
def LNK_DOM_MAP_MAP (i : Nat) : Fld := ⟨0x9400C8 + 0x8 * i, 0, 64, 0, .ro⟩
def row_LNK_DOM_MAP : RegRow := ⟨0x9400C8, 0x8, 4, 0x0, 1, fun i _ => [LNK_DOM_MAP_MAP i]⟩

/-! RING_CTL: R430 of spec/13_host_rings.md. -/
def RING_CTL_EN (i j : Nat) : Fld := ⟨0x208000 + 0x10000 * i + 0x100 * j, 0, 1, 0, .rw⟩
def RING_CTL_IRQEN (i j : Nat) : Fld := ⟨0x208000 + 0x10000 * i + 0x100 * j, 1, 1, 0, .rw⟩
def RING_CTL_IDEREQ (i j : Nat) : Fld := ⟨0x208000 + 0x10000 * i + 0x100 * j, 2, 1, 0, .rwl⟩
def RING_CTL_RO (i j : Nat) : Fld := ⟨0x208000 + 0x10000 * i + 0x100 * j, 3, 1, 0, .rwl⟩
def RING_CTL_VECTOR (i j : Nat) : Fld := ⟨0x208000 + 0x10000 * i + 0x100 * j, 8, 6, 1, .rwl⟩
def row_RING_CTL : RegRow := ⟨0x208000, 0x10000, 17, 0x100, 16, fun i j => [RING_CTL_EN i j, RING_CTL_IRQEN i j, RING_CTL_IDEREQ i j, RING_CTL_RO i j, RING_CTL_VECTOR i j]⟩

/-! RING_CMDBASE: R430 of spec/13_host_rings.md. -/
def RING_CMDBASE_ADDR (i j : Nat) : Fld := ⟨0x208008 + 0x10000 * i + 0x100 * j, 6, 58, 0, .rwl⟩
def row_RING_CMDBASE : RegRow := ⟨0x208008, 0x10000, 17, 0x100, 16, fun i j => [RING_CMDBASE_ADDR i j]⟩

/-! RING_CPLBASE: R430 of spec/13_host_rings.md. -/
def RING_CPLBASE_ADDR (i j : Nat) : Fld := ⟨0x208010 + 0x10000 * i + 0x100 * j, 6, 58, 0, .rwl⟩
def row_RING_CPLBASE : RegRow := ⟨0x208010, 0x10000, 17, 0x100, 16, fun i j => [RING_CPLBASE_ADDR i j]⟩

/-! RING_DBADDR: R430 of spec/13_host_rings.md. -/
def RING_DBADDR_ADDR (i j : Nat) : Fld := ⟨0x208018 + 0x10000 * i + 0x100 * j, 6, 58, 0, .rwl⟩
def row_RING_DBADDR : RegRow := ⟨0x208018, 0x10000, 17, 0x100, 16, fun i j => [RING_DBADDR_ADDR i j]⟩

/-! RING_STADDR: R430 of spec/13_host_rings.md. -/
def RING_STADDR_ADDR (i j : Nat) : Fld := ⟨0x208020 + 0x10000 * i + 0x100 * j, 6, 58, 0, .rwl⟩
def row_RING_STADDR : RegRow := ⟨0x208020, 0x10000, 17, 0x100, 16, fun i j => [RING_STADDR_ADDR i j]⟩

/-! RING_SIZE: R430 of spec/13_host_rings.md. -/
def RING_SIZE_CMDLOG2 (i j : Nat) : Fld := ⟨0x208028 + 0x10000 * i + 0x100 * j, 0, 5, 8, .rwl⟩
def RING_SIZE_CPLLOG2 (i j : Nat) : Fld := ⟨0x208028 + 0x10000 * i + 0x100 * j, 8, 5, 8, .rwl⟩
def row_RING_SIZE : RegRow := ⟨0x208028, 0x10000, 17, 0x100, 16, fun i j => [RING_SIZE_CMDLOG2 i j, RING_SIZE_CPLLOG2 i j]⟩

/-! RING_POLL: R430 of spec/13_host_rings.md. -/
def RING_POLL_MIN (i j : Nat) : Fld := ⟨0x208030 + 0x10000 * i + 0x100 * j, 0, 8, 1, .rwl⟩
def RING_POLL_MAX (i j : Nat) : Fld := ⟨0x208030 + 0x10000 * i + 0x100 * j, 8, 8, 0xC8, .rwl⟩
def row_RING_POLL : RegRow := ⟨0x208030, 0x10000, 17, 0x100, 16, fun i j => [RING_POLL_MIN i j, RING_POLL_MAX i j]⟩

/-! RING_IRQ: R430 of spec/13_host_rings.md. -/
def RING_IRQ_COUNT (i j : Nat) : Fld := ⟨0x208038 + 0x10000 * i + 0x100 * j, 0, 8, 1, .rw⟩
def RING_IRQ_TIME (i j : Nat) : Fld := ⟨0x208038 + 0x10000 * i + 0x100 * j, 16, 16, 0, .rw⟩
def row_RING_IRQ : RegRow := ⟨0x208038, 0x10000, 17, 0x100, 16, fun i j => [RING_IRQ_COUNT i j, RING_IRQ_TIME i j]⟩

/-! RING_STATE: R430 of spec/13_host_rings.md. -/
def RING_STATE_STATE (i j : Nat) : Fld := ⟨0x208040 + 0x10000 * i + 0x100 * j, 0, 3, 0, .ro⟩
def RING_STATE_ERRSTATUS (i j : Nat) : Fld := ⟨0x208040 + 0x10000 * i + 0x100 * j, 8, 8, 0, .ro⟩
def RING_STATE_CHEAD (i j : Nat) : Fld := ⟨0x208040 + 0x10000 * i + 0x100 * j, 32, 32, 0, .ro⟩
def row_RING_STATE : RegRow := ⟨0x208040, 0x10000, 17, 0x100, 16, fun i j => [RING_STATE_STATE i j, RING_STATE_ERRSTATUS i j, RING_STATE_CHEAD i j]⟩

/-! RING_COUNT: R430 of spec/13_host_rings.md. -/
def RING_COUNT_CWRITTEN (i j : Nat) : Fld := ⟨0x208048 + 0x10000 * i + 0x100 * j, 0, 32, 0, .ro⟩
def RING_COUNT_INFLIGHT (i j : Nat) : Fld := ⟨0x208048 + 0x10000 * i + 0x100 * j, 32, 17, 0, .ro⟩
def row_RING_COUNT : RegRow := ⟨0x208048, 0x10000, 17, 0x100, 16, fun i j => [RING_COUNT_CWRITTEN i j, RING_COUNT_INFLIGHT i j]⟩

/-! RING_POLLSTAT: R430 of spec/13_host_rings.md. -/
def RING_POLLSTAT_CURRENT (i j : Nat) : Fld := ⟨0x208050 + 0x10000 * i + 0x100 * j, 0, 8, 0, .ro⟩
def RING_POLLSTAT_LATE (i j : Nat) : Fld := ⟨0x208050 + 0x10000 * i + 0x100 * j, 32, 32, 0, .ro⟩
def row_RING_POLLSTAT : RegRow := ⟨0x208050, 0x10000, 17, 0x100, 16, fun i j => [RING_POLLSTAT_CURRENT i j, RING_POLLSTAT_LATE i j]⟩

/-! RING_HOST: R431 of spec/13_host_rings.md. -/
def RING_HOST_SPEED : Fld := ⟨0x1000, 0, 2, 0, .ro⟩
def RING_HOST_FLIT : Fld := ⟨0x1000, 2, 1, 0, .ro⟩
def RING_HOST_WIDTH : Fld := ⟨0x1000, 3, 5, 0, .ro⟩
def RING_HOST_RESETS : Fld := ⟨0x1000, 16, 16, 0, .ro⟩
def RING_HOST_FLRS : Fld := ⟨0x1000, 32, 16, 0, .ro⟩
def row_RING_HOST : RegRow := ⟨0x1000, 0x0, 1, 0x0, 1, fun _ _ => [RING_HOST_SPEED, RING_HOST_FLIT, RING_HOST_WIDTH, RING_HOST_RESETS, RING_HOST_FLRS]⟩

/-! RING_IDE: R431 of spec/13_host_rings.md. -/
def RING_IDE_SECURE : Fld := ⟨0x1008, 0, 17, 0, .ro⟩
def row_RING_IDE : RegRow := ⟨0x1008, 0x0, 1, 0x0, 1, fun _ _ => [RING_IDE_SECURE]⟩

/-! TN_CTL: R459 of spec/14_tenancies.md. -/
def TN_CTL_OP (i : Nat) : Fld := ⟨0x200000 + 0x10000 * i, 0, 3, 0, .wo⟩
def TN_CTL_DEBUG (i : Nat) : Fld := ⟨0x200000 + 0x10000 * i, 4, 2, 0, .wo⟩
def row_TN_CTL : RegRow := ⟨0x200000, 0x10000, 17, 0x0, 1, fun i _ => [TN_CTL_OP i, TN_CTL_DEBUG i]⟩

/-! TN_STATE: R459 of spec/14_tenancies.md. -/
def TN_STATE_STATE (i : Nat) : Fld := ⟨0x200008 + 0x10000 * i, 0, 3, 0, .ro⟩
def TN_STATE_PINNED (i : Nat) : Fld := ⟨0x200008 + 0x10000 * i, 3, 1, 0, .ro⟩
def TN_STATE_DEBUG (i : Nat) : Fld := ⟨0x200008 + 0x10000 * i, 4, 2, 0, .ro⟩
def TN_STATE_LASTSTATUS (i : Nat) : Fld := ⟨0x200008 + 0x10000 * i, 8, 8, 0, .ro⟩
def TN_STATE_EPOCH (i : Nat) : Fld := ⟨0x200008 + 0x10000 * i, 16, 16, 0, .ro⟩
def TN_STATE_MAPGEN (i : Nat) : Fld := ⟨0x200008 + 0x10000 * i, 32, 16, 0, .ro⟩
def TN_STATE_BUFS (i : Nat) : Fld := ⟨0x200008 + 0x10000 * i, 48, 12, 0, .ro⟩
def row_TN_STATE : RegRow := ⟨0x200008, 0x10000, 17, 0x0, 1, fun i _ => [TN_STATE_STATE i, TN_STATE_PINNED i, TN_STATE_DEBUG i, TN_STATE_LASTSTATUS i, TN_STATE_EPOCH i, TN_STATE_MAPGEN i, TN_STATE_BUFS i]⟩

/-! TN_CFG: R459 of spec/14_tenancies.md. -/
def TN_CFG_GRANQ (i : Nat) : Fld := ⟨0x200010 + 0x10000 * i, 0, 9, 0, .rwl⟩
def TN_CFG_MODE (i : Nat) : Fld := ⟨0x200010 + 0x10000 * i, 9, 1, 0, .rwl⟩
def TN_CFG_RIME (i : Nat) : Fld := ⟨0x200010 + 0x10000 * i, 10, 4, 0, .rwl⟩
def TN_CFG_BUFQ (i : Nat) : Fld := ⟨0x200010 + 0x10000 * i, 16, 12, 0, .rwl⟩
def row_TN_CFG : RegRow := ⟨0x200010, 0x10000, 17, 0x0, 1, fun i _ => [TN_CFG_GRANQ i, TN_CFG_MODE i, TN_CFG_RIME i, TN_CFG_BUFQ i]⟩

/-! TN_TILES: R459 of spec/14_tenancies.md. -/
def TN_TILES_MAP (i : Nat) : Fld := ⟨0x200018 + 0x10000 * i, 0, 64, 0, .rwl⟩
def row_TN_TILES : RegRow := ⟨0x200018, 0x10000, 17, 0x0, 1, fun i _ => [TN_TILES_MAP i]⟩

/-! TN_SLOTQ: R459 of spec/14_tenancies.md. -/
def TN_SLOTQ_JSLOTS (i : Nat) : Fld := ⟨0x200020 + 0x10000 * i, 0, 11, 0, .rwl⟩
def TN_SLOTQ_MSLOTS (i : Nat) : Fld := ⟨0x200020 + 0x10000 * i, 11, 9, 0, .rwl⟩
def TN_SLOTQ_LSLOTS (i : Nat) : Fld := ⟨0x200020 + 0x10000 * i, 20, 8, 0, .rwl⟩
def TN_SLOTQ_LSHARE (i : Nat) : Fld := ⟨0x200020 + 0x10000 * i, 28, 8, 0x92, .rwl⟩
def row_TN_SLOTQ : RegRow := ⟨0x200020, 0x10000, 17, 0x0, 1, fun i _ => [TN_SLOTQ_JSLOTS i, TN_SLOTQ_MSLOTS i, TN_SLOTQ_LSLOTS i, TN_SLOTQ_LSHARE i]⟩

/-! TN_SAVE: R459 of spec/14_tenancies.md. -/
def TN_SAVE_HANDLE (i : Nat) : Fld := ⟨0x200028 + 0x10000 * i, 0, 64, 0, .rwl⟩
def row_TN_SAVE : RegRow := ⟨0x200028, 0x10000, 17, 0x0, 1, fun i _ => [TN_SAVE_HANDLE i]⟩

/-! TN_ISO: R461 of spec/14_tenancies.md. -/
def TN_ISO_CLAIM : Fld := ⟨0x310000, 0, 1, 0, .rw⟩
def TN_ISO_CLAIMED : Fld := ⟨0x310000, 1, 1, 0, .ro⟩
def TN_ISO_C1 : Fld := ⟨0x310000, 2, 1, 0, .ro⟩
def TN_ISO_C2 : Fld := ⟨0x310000, 3, 1, 0, .ro⟩
def TN_ISO_C3 : Fld := ⟨0x310000, 4, 1, 0, .ro⟩
def TN_ISO_REFUSED : Fld := ⟨0x310000, 16, 16, 0, .ro⟩
def row_TN_ISO : RegRow := ⟨0x310000, 0x0, 1, 0x0, 1, fun _ _ => [TN_ISO_CLAIM, TN_ISO_CLAIMED, TN_ISO_C1, TN_ISO_C2, TN_ISO_C3, TN_ISO_REFUSED]⟩

/-! RIME_STATUS: R485 of spec/15_rime_engine.md. -/
def RIME_STATUS_PHASE (i : Nat) : Fld := ⟨0xA00000 + 0x10000 * i, 0, 3, 0, .ro⟩
def RIME_STATUS_QCOUNT (i : Nat) : Fld := ⟨0xA00000 + 0x10000 * i, 8, 3, 0, .ro⟩
def RIME_STATUS_OWNER (i : Nat) : Fld := ⟨0xA00000 + 0x10000 * i, 16, 5, 0x1F, .ro⟩
def row_RIME_STATUS : RegRow := ⟨0xA00000, 0x10000, 4, 0x0, 1, fun i _ => [RIME_STATUS_PHASE i, RIME_STATUS_QCOUNT i, RIME_STATUS_OWNER i]⟩

/-! RIME_KEY: R485 of spec/15_rime_engine.md. -/
def RIME_KEY_KEYDESC (i : Nat) : Fld := ⟨0xA00008 + 0x10000 * i, 0, 48, 0, .ro⟩
def RIME_KEY_SET (i : Nat) : Fld := ⟨0xA00008 + 0x10000 * i, 48, 2, 0, .ro⟩
def RIME_KEY_VALID (i : Nat) : Fld := ⟨0xA00008 + 0x10000 * i, 50, 1, 0, .ro⟩
def row_RIME_KEY : RegRow := ⟨0xA00008, 0x10000, 4, 0x0, 1, fun i _ => [RIME_KEY_KEYDESC i, RIME_KEY_SET i, RIME_KEY_VALID i]⟩

/-! RIME_COUNT: R485 of spec/15_rime_engine.md. -/
def RIME_COUNT_REFRESHES (i : Nat) : Fld := ⟨0xA00010 + 0x10000 * i, 0, 48, 0, .ro⟩
def RIME_COUNT_WARNS (i : Nat) : Fld := ⟨0xA00010 + 0x10000 * i, 48, 16, 0, .ro⟩
def row_RIME_COUNT : RegRow := ⟨0xA00010, 0x10000, 4, 0x0, 1, fun i _ => [RIME_COUNT_REFRESHES i, RIME_COUNT_WARNS i]⟩

/-! RIME_WORK: R485 of spec/15_rime_engine.md. -/
def RIME_WORK_WAVES (i : Nat) : Fld := ⟨0xA00018 + 0x10000 * i, 0, 32, 0, .ro⟩
def RIME_WORK_KEYLOADS (i : Nat) : Fld := ⟨0xA00018 + 0x10000 * i, 32, 16, 0, .ro⟩
def RIME_WORK_LINEAR (i : Nat) : Fld := ⟨0xA00018 + 0x10000 * i, 48, 16, 0, .ro⟩
def row_RIME_WORK : RegRow := ⟨0xA00018, 0x10000, 4, 0x0, 1, fun i _ => [RIME_WORK_WAVES i, RIME_WORK_KEYLOADS i, RIME_WORK_LINEAR i]⟩

/-! RIME_ECC: R485 of spec/15_rime_engine.md. -/
def RIME_ECC_CORR (i : Nat) : Fld := ⟨0xA00020 + 0x10000 * i, 0, 16, 0, .ro⟩
def RIME_ECC_UNCORR (i : Nat) : Fld := ⟨0xA00020 + 0x10000 * i, 16, 16, 0, .ro⟩
def row_RIME_ECC : RegRow := ⟨0xA00020, 0x10000, 4, 0x0, 1, fun i _ => [RIME_ECC_CORR i, RIME_ECC_UNCORR i]⟩

/-! MC_MBX_CTL: R505 of spec/16_epochs_and_quiesce.md. -/
def MC_MBX_CTL_GO : Fld := ⟨0x100000, 0, 1, 0, .wo⟩
def MC_MBX_CTL_IRQEN : Fld := ⟨0x100000, 1, 1, 0, .rw⟩
def row_MC_MBX_CTL : RegRow := ⟨0x100000, 0x0, 1, 0x0, 1, fun _ _ => [MC_MBX_CTL_GO, MC_MBX_CTL_IRQEN]⟩

/-! MC_MBX_STATUS: R505 of spec/16_epochs_and_quiesce.md. -/
def MC_MBX_STATUS_BUSY : Fld := ⟨0x100008, 0, 1, 0, .ro⟩
def MC_MBX_STATUS_DONE : Fld := ⟨0x100008, 1, 1, 0, .w1c⟩
def MC_MBX_STATUS_STATUS : Fld := ⟨0x100008, 8, 8, 0, .ro⟩
def MC_MBX_STATUS_TAG : Fld := ⟨0x100008, 16, 16, 0, .ro⟩
def row_MC_MBX_STATUS : RegRow := ⟨0x100008, 0x0, 1, 0x0, 1, fun _ _ => [MC_MBX_STATUS_BUSY, MC_MBX_STATUS_DONE, MC_MBX_STATUS_STATUS, MC_MBX_STATUS_TAG]⟩

/-! MC_STATUS: R517 of spec/16_epochs_and_quiesce.md. -/
def MC_STATUS_LASTFAULT : Fld := ⟨0x100010, 0, 1, 0, .ro⟩
def MC_STATUS_CAUSE : Fld := ⟨0x100010, 1, 2, 0, .ro⟩
def MC_STATUS_EVENTS : Fld := ⟨0x100010, 8, 8, 0, .ro⟩
def MC_STATUS_AUDITS : Fld := ⟨0x100010, 16, 16, 0, .ro⟩
def MC_STATUS_QUIESCES : Fld := ⟨0x100010, 32, 16, 0, .ro⟩
def row_MC_STATUS : RegRow := ⟨0x100010, 0x0, 1, 0x0, 1, fun _ _ => [MC_STATUS_LASTFAULT, MC_STATUS_CAUSE, MC_STATUS_EVENTS, MC_STATUS_AUDITS, MC_STATUS_QUIESCES]⟩

/-! MC_STALE: R517 of spec/16_epochs_and_quiesce.md. -/
def MC_STALE_FLITS : Fld := ⟨0x100018, 0, 32, 0, .ro⟩
def MC_STALE_PACKETS : Fld := ⟨0x100018, 32, 32, 0, .ro⟩
def row_MC_STALE : RegRow := ⟨0x100018, 0x0, 1, 0x0, 1, fun _ _ => [MC_STALE_FLITS, MC_STALE_PACKETS]⟩

/-! MC_EPOCH: R517 of spec/16_epochs_and_quiesce.md. -/
def MC_EPOCH_EPOCH (i : Nat) : Fld := ⟨0x101000 + 0x8 * i, 0, 16, 0, .ro⟩
def MC_EPOCH_QSTATE (i : Nat) : Fld := ⟨0x101000 + 0x8 * i, 16, 3, 0, .ro⟩
def MC_EPOCH_REASON (i : Nat) : Fld := ⟨0x101000 + 0x8 * i, 19, 4, 0, .ro⟩
def MC_EPOCH_LASTTICK (i : Nat) : Fld := ⟨0x101000 + 0x8 * i, 32, 32, 0, .ro⟩
def row_MC_EPOCH : RegRow := ⟨0x101000, 0x8, 256, 0x0, 1, fun i _ => [MC_EPOCH_EPOCH i, MC_EPOCH_QSTATE i, MC_EPOCH_REASON i, MC_EPOCH_LASTTICK i]⟩

/-! TILE_TWIN: R541 of spec/17_faults_and_twins.md. -/
def TILE_TWIN_EN (i : Nat) : Fld := ⟨0x4000F0 + 0x10000 * i, 0, 1, 0, .ro⟩
def TILE_TWIN_SHADOW (i : Nat) : Fld := ⟨0x4000F0 + 0x10000 * i, 1, 1, 0, .ro⟩
def TILE_TWIN_PARTNER (i : Nat) : Fld := ⟨0x4000F0 + 0x10000 * i, 2, 6, 0, .ro⟩
def TILE_TWIN_WINDOWS (i : Nat) : Fld := ⟨0x4000F0 + 0x10000 * i, 8, 32, 0, .ro⟩
def row_TILE_TWIN : RegRow := ⟨0x4000F0, 0x10000, 64, 0x0, 1, fun i _ => [TILE_TWIN_EN i, TILE_TWIN_SHADOW i, TILE_TWIN_PARTNER i, TILE_TWIN_WINDOWS i]⟩

/-! TILE_TWIN_HASH: R541 of spec/17_faults_and_twins.md. -/
def TILE_TWIN_HASH_HASH (i : Nat) : Fld := ⟨0x4000F8 + 0x10000 * i, 0, 64, 0, .ro⟩
def row_TILE_TWIN_HASH : RegRow := ⟨0x4000F8, 0x10000, 64, 0x0, 1, fun i _ => [TILE_TWIN_HASH_HASH i]⟩

/-! MC_EVR_BASE: R542 of spec/17_faults_and_twins.md. -/
def MC_EVR_BASE_ADDR : Fld := ⟨0x102000, 6, 58, 0, .rw⟩
def row_MC_EVR_BASE : RegRow := ⟨0x102000, 0x0, 1, 0x0, 1, fun _ _ => [MC_EVR_BASE_ADDR]⟩

/-! MC_EVR_DBADDR: R542 of spec/17_faults_and_twins.md. -/
def MC_EVR_DBADDR_ADDR : Fld := ⟨0x102010, 6, 58, 0, .rw⟩
def row_MC_EVR_DBADDR : RegRow := ⟨0x102010, 0x0, 1, 0x0, 1, fun _ _ => [MC_EVR_DBADDR_ADDR]⟩

/-! TN_EVR_BASE: R542 of spec/17_faults_and_twins.md. -/
def TN_EVR_BASE_ADDR (i : Nat) : Fld := ⟨0x200030 + 0x10000 * i, 6, 58, 0, .rwl⟩
def row_TN_EVR_BASE : RegRow := ⟨0x200030, 0x10000, 17, 0x0, 1, fun i _ => [TN_EVR_BASE_ADDR i]⟩

/-! TN_EVR_DBADDR: R542 of spec/17_faults_and_twins.md. -/
def TN_EVR_DBADDR_ADDR (i : Nat) : Fld := ⟨0x200040 + 0x10000 * i, 6, 58, 0, .rwl⟩
def row_TN_EVR_DBADDR : RegRow := ⟨0x200040, 0x10000, 17, 0x0, 1, fun i _ => [TN_EVR_DBADDR_ADDR i]⟩

/-! MC_EVR_CTL: R542 of spec/17_faults_and_twins.md. -/
def MC_EVR_CTL_EN : Fld := ⟨0x102008, 0, 1, 0, .rw⟩
def MC_EVR_CTL_LOG2 : Fld := ⟨0x102008, 8, 4, 8, .rw⟩
def row_MC_EVR_CTL : RegRow := ⟨0x102008, 0x0, 1, 0x0, 1, fun _ _ => [MC_EVR_CTL_EN, MC_EVR_CTL_LOG2]⟩

/-! TN_EVR_CTL: R542 of spec/17_faults_and_twins.md. -/
def TN_EVR_CTL_EN (i : Nat) : Fld := ⟨0x200038 + 0x10000 * i, 0, 1, 0, .rwl⟩
def TN_EVR_CTL_LOG2 (i : Nat) : Fld := ⟨0x200038 + 0x10000 * i, 8, 4, 8, .rwl⟩
def row_TN_EVR_CTL : RegRow := ⟨0x200038, 0x10000, 17, 0x0, 1, fun i _ => [TN_EVR_CTL_EN i, TN_EVR_CTL_LOG2 i]⟩

/-! MC_EVR_STATE: R542 of spec/17_faults_and_twins.md. -/
def MC_EVR_STATE_WRITTEN : Fld := ⟨0x102018, 0, 32, 0, .ro⟩
def MC_EVR_STATE_HELD : Fld := ⟨0x102018, 32, 9, 0, .ro⟩
def MC_EVR_STATE_ERROR : Fld := ⟨0x102018, 41, 1, 0, .ro⟩
def MC_EVR_STATE_DROPPED : Fld := ⟨0x102018, 48, 16, 0, .ro⟩
def row_MC_EVR_STATE : RegRow := ⟨0x102018, 0x0, 1, 0x0, 1, fun _ _ => [MC_EVR_STATE_WRITTEN, MC_EVR_STATE_HELD, MC_EVR_STATE_ERROR, MC_EVR_STATE_DROPPED]⟩

/-! TN_EVR_STATE: R542 of spec/17_faults_and_twins.md. -/
def TN_EVR_STATE_WRITTEN (i : Nat) : Fld := ⟨0x200048 + 0x10000 * i, 0, 32, 0, .ro⟩
def TN_EVR_STATE_HELD (i : Nat) : Fld := ⟨0x200048 + 0x10000 * i, 32, 9, 0, .ro⟩
def TN_EVR_STATE_ERROR (i : Nat) : Fld := ⟨0x200048 + 0x10000 * i, 41, 1, 0, .ro⟩
def TN_EVR_STATE_DROPPED (i : Nat) : Fld := ⟨0x200048 + 0x10000 * i, 48, 16, 0, .ro⟩
def row_TN_EVR_STATE : RegRow := ⟨0x200048, 0x10000, 17, 0x0, 1, fun i _ => [TN_EVR_STATE_WRITTEN i, TN_EVR_STATE_HELD i, TN_EVR_STATE_ERROR i, TN_EVR_STATE_DROPPED i]⟩

/-! TN_FPOLICY: R542 of spec/17_faults_and_twins.md. -/
def TN_FPOLICY_SDCEXCL (i : Nat) : Fld := ⟨0x200050 + 0x10000 * i, 0, 1, 0, .rwl⟩
def TN_FPOLICY_CORREV (i : Nat) : Fld := ⟨0x200050 + 0x10000 * i, 1, 1, 0, .rwl⟩
def row_TN_FPOLICY : RegRow := ⟨0x200050, 0x10000, 17, 0x0, 1, fun i _ => [TN_FPOLICY_SDCEXCL i, TN_FPOLICY_CORREV i]⟩

/-! MC_GRANWH: R542 of spec/17_faults_and_twins.md. -/
def MC_GRANWH_WITHHELD (i : Nat) : Fld := ⟨0x102040 + 0x8 * i, 0, 64, 0, .w1c⟩
def row_MC_GRANWH : RegRow := ⟨0x102040, 0x8, 4, 0x0, 1, fun i _ => [MC_GRANWH_WITHHELD i]⟩

/-! CS_CMD: R565 of spec/18_images_and_store.md. -/
def CS_CMD_OP : Fld := ⟨0xD00000, 0, 4, 0, .wo⟩
def CS_CMD_LEN : Fld := ⟨0xD00000, 16, 13, 0, .wo⟩
def row_CS_CMD : RegRow := ⟨0xD00000, 0x0, 1, 0x0, 1, fun _ _ => [CS_CMD_OP, CS_CMD_LEN]⟩

/-! CS_ADDR: R565 of spec/18_images_and_store.md. -/
def CS_ADDR_ADDR : Fld := ⟨0xD00008, 0, 26, 0, .rw⟩
def row_CS_ADDR : RegRow := ⟨0xD00008, 0x0, 1, 0x0, 1, fun _ _ => [CS_ADDR_ADDR]⟩

/-! CS_STATUS: R565 of spec/18_images_and_store.md. -/
def CS_STATUS_BUSY : Fld := ⟨0xD00010, 0, 1, 0, .ro⟩
def CS_STATUS_DONE : Fld := ⟨0xD00010, 1, 1, 0, .w1c⟩
def CS_STATUS_ERASING : Fld := ⟨0xD00010, 2, 1, 0, .ro⟩
def CS_STATUS_STATUS : Fld := ⟨0xD00010, 8, 8, 0, .ro⟩
def CS_STATUS_ERASED : Fld := ⟨0xD00010, 16, 9, 0, .ro⟩
def CS_STATUS_FAILADDR : Fld := ⟨0xD00010, 32, 26, 0, .ro⟩
def row_CS_STATUS : RegRow := ⟨0xD00010, 0x0, 1, 0x0, 1, fun _ _ => [CS_STATUS_BUSY, CS_STATUS_DONE, CS_STATUS_ERASING, CS_STATUS_STATUS, CS_STATUS_ERASED, CS_STATUS_FAILADDR]⟩

/-! CS_BOOT: R565 of spec/18_images_and_store.md. -/
def CS_BOOT_ACTIVE : Fld := ⟨0xD00018, 0, 1, 0, .ro⟩
def CS_BOOT_PREV : Fld := ⟨0xD00018, 1, 1, 0, .ro⟩
def CS_BOOT_TRIAL : Fld := ⟨0xD00018, 2, 1, 0, .ro⟩
def CS_BOOT_RECOVERY : Fld := ⟨0xD00018, 3, 1, 0, .ro⟩
def CS_BOOT_TRIES : Fld := ⟨0xD00018, 4, 2, 0, .ro⟩
def CS_BOOT_REVCAUSE : Fld := ⟨0xD00018, 6, 3, 0, .ro⟩
def CS_BOOT_VERA : Fld := ⟨0xD00018, 9, 1, 0, .ro⟩
def CS_BOOT_VERB : Fld := ⟨0xD00018, 10, 1, 0, .ro⟩
def CS_BOOT_OWNERKEY : Fld := ⟨0xD00018, 11, 1, 0, .ro⟩
def CS_BOOT_PLDMUPD : Fld := ⟨0xD00018, 12, 1, 0, .ro⟩
def row_CS_BOOT : RegRow := ⟨0xD00018, 0x0, 1, 0x0, 1, fun _ _ => [CS_BOOT_ACTIVE, CS_BOOT_PREV, CS_BOOT_TRIAL, CS_BOOT_RECOVERY, CS_BOOT_TRIES, CS_BOOT_REVCAUSE, CS_BOOT_VERA, CS_BOOT_VERB, CS_BOOT_OWNERKEY, CS_BOOT_PLDMUPD]⟩

/-! CS_ACTIVE: R565 of spec/18_images_and_store.md. -/
def CS_ACTIVE_IMGVER : Fld := ⟨0xD00020, 0, 32, 0, .ro⟩
def CS_ACTIVE_MANVER : Fld := ⟨0xD00020, 32, 16, 0, .ro⟩
def CS_ACTIVE_SVN : Fld := ⟨0xD00020, 48, 8, 0, .ro⟩
def CS_ACTIVE_OSVN : Fld := ⟨0xD00020, 56, 8, 0, .ro⟩
def row_CS_ACTIVE : RegRow := ⟨0xD00020, 0x0, 1, 0x0, 1, fun _ _ => [CS_ACTIVE_IMGVER, CS_ACTIVE_MANVER, CS_ACTIVE_SVN, CS_ACTIVE_OSVN]⟩

/-! CS_WINDOW: R565 of spec/18_images_and_store.md. -/
def CS_WINDOW_WINLO : Fld := ⟨0xD00028, 0, 32, 0, .ro⟩
def CS_WINDOW_WINHI : Fld := ⟨0xD00028, 32, 32, 0, .ro⟩
def row_CS_WINDOW : RegRow := ⟨0xD00028, 0x0, 1, 0x0, 1, fun _ _ => [CS_WINDOW_WINLO, CS_WINDOW_WINHI]⟩

/-! CS_ROLLBACK: R565 of spec/18_images_and_store.md. -/
def CS_ROLLBACK_DRAUSH : Fld := ⟨0xD00030, 0, 8, 0, .ro⟩
def CS_ROLLBACK_OWNER : Fld := ⟨0xD00030, 8, 8, 0, .ro⟩
def row_CS_ROLLBACK : RegRow := ⟨0xD00030, 0x0, 1, 0x0, 1, fun _ _ => [CS_ROLLBACK_DRAUSH, CS_ROLLBACK_OWNER]⟩

/-! CS_BUF: R565 of spec/18_images_and_store.md. -/
def CS_BUF_DATA (i : Nat) : Fld := ⟨0xD01000 + 0x8 * i, 0, 64, 0, .rw⟩
def row_CS_BUF : RegRow := ⟨0xD01000, 0x8, 512, 0x0, 1, fun i _ => [CS_BUF_DATA i]⟩

/-! BRU_REPORT2: R155 of spec/05_staged_bring_up.md. -/
def BRU_REPORT2_DATA (i : Nat) : Fld := ⟨0x210 + 0x40 * i, 0, 64, 0, .ro⟩
def row_BRU_REPORT2 : RegRow := ⟨0x210, 0x40, 10, 0x0, 1, fun i _ => [BRU_REPORT2_DATA i]⟩

/-! BRU_REPORT3: R155 of spec/05_staged_bring_up.md. -/
def BRU_REPORT3_DATA (i : Nat) : Fld := ⟨0x218 + 0x40 * i, 0, 64, 0, .ro⟩
def row_BRU_REPORT3 : RegRow := ⟨0x218, 0x40, 10, 0x0, 1, fun i _ => [BRU_REPORT3_DATA i]⟩

/-! BRU_REPORT4: R155 of spec/05_staged_bring_up.md. -/
def BRU_REPORT4_DATA (i : Nat) : Fld := ⟨0x220 + 0x40 * i, 0, 64, 0, .ro⟩
def row_BRU_REPORT4 : RegRow := ⟨0x220, 0x40, 10, 0x0, 1, fun i _ => [BRU_REPORT4_DATA i]⟩

/-! BRU_REPORT5: R155 of spec/05_staged_bring_up.md. -/
def BRU_REPORT5_DATA (i : Nat) : Fld := ⟨0x228 + 0x40 * i, 0, 64, 0, .ro⟩
def row_BRU_REPORT5 : RegRow := ⟨0x228, 0x40, 10, 0x0, 1, fun i _ => [BRU_REPORT5_DATA i]⟩

/-! BRU_REPORT6: R155 of spec/05_staged_bring_up.md. -/
def BRU_REPORT6_DATA (i : Nat) : Fld := ⟨0x230 + 0x40 * i, 0, 64, 0, .ro⟩
def row_BRU_REPORT6 : RegRow := ⟨0x230, 0x40, 10, 0x0, 1, fun i _ => [BRU_REPORT6_DATA i]⟩

/-! BRU_REPORT7: R155 of spec/05_staged_bring_up.md. -/
def BRU_REPORT7_DATA (i : Nat) : Fld := ⟨0x238 + 0x40 * i, 0, 64, 0, .ro⟩
def row_BRU_REPORT7 : RegRow := ⟨0x238, 0x40, 10, 0x0, 1, fun i _ => [BRU_REPORT7_DATA i]⟩

/-! MC_MBX_REQ: R506 of spec/16_epochs_and_quiesce.md. -/
def MC_MBX_REQ_DATA (i : Nat) : Fld := ⟨0x100100 + 0x8 * i, 0, 64, 0, .rw⟩
def row_MC_MBX_REQ : RegRow := ⟨0x100100, 0x8, 32, 0x0, 1, fun i _ => [MC_MBX_REQ_DATA i]⟩

/-! MC_MBX_RSP: R506 of spec/16_epochs_and_quiesce.md. -/
def MC_MBX_RSP_DATA (i : Nat) : Fld := ⟨0x100200 + 0x8 * i, 0, 64, 0, .ro⟩
def row_MC_MBX_RSP : RegRow := ⟨0x100200, 0x8, 32, 0x0, 1, fun i _ => [MC_MBX_RSP_DATA i]⟩

/-! PQ_SNAP: R308 of spec/10_token_queues.md. -/
def PQ_SNAP_DATA (i : Nat) : Fld := ⟨0xC11000 + 0x8 * i, 0, 64, 0, .ro⟩
def row_PQ_SNAP : RegRow := ⟨0xC11000, 0x8, 256, 0x0, 1, fun i _ => [PQ_SNAP_DATA i]⟩

/-! TN_VIEW_STATE: R460 of spec/14_tenancies.md. -/
def TN_VIEW_STATE_DATA (i : Nat) : Fld := ⟨0x201000 + 0x10000 * i, 0, 64, 0, .ro⟩
def row_TN_VIEW_STATE : RegRow := ⟨0x201000, 0x10000, 17, 0x0, 1, fun i _ => [TN_VIEW_STATE_DATA i]⟩

/-! TN_VIEW_TILES: R460 of spec/14_tenancies.md. -/
def TN_VIEW_TILES_DATA (i : Nat) : Fld := ⟨0x201008 + 0x10000 * i, 0, 64, 0, .ro⟩
def row_TN_VIEW_TILES : RegRow := ⟨0x201008, 0x10000, 17, 0x0, 1, fun i _ => [TN_VIEW_TILES_DATA i]⟩

/-! TN_VIEW_CFG: R460 of spec/14_tenancies.md. -/
def TN_VIEW_CFG_DATA (i : Nat) : Fld := ⟨0x201010 + 0x10000 * i, 0, 64, 0, .ro⟩
def row_TN_VIEW_CFG : RegRow := ⟨0x201010, 0x10000, 17, 0x0, 1, fun i _ => [TN_VIEW_CFG_DATA i]⟩

/-! TN_VIEW_PQ: R460 of spec/14_tenancies.md. -/
def TN_VIEW_PQ_DATA (i : Nat) : Fld := ⟨0x201018 + 0x10000 * i, 0, 64, 0, .ro⟩
def row_TN_VIEW_PQ : RegRow := ⟨0x201018, 0x10000, 17, 0x0, 1, fun i _ => [TN_VIEW_PQ_DATA i]⟩

/-! TN_VIEW_GMAP: R460 of spec/14_tenancies.md. -/
def TN_VIEW_GMAP_DATA (i j : Nat) : Fld := ⟨0x201020 + 0x10000 * i + 0x8 * j, 0, 64, 0, .ro⟩
def row_TN_VIEW_GMAP : RegRow := ⟨0x201020, 0x10000, 17, 0x8, 4, fun i j => [TN_VIEW_GMAP_DATA i j]⟩

/-! TN_BUFQ: R460 of spec/14_tenancies.md. -/
def TN_BUFQ_HANDLE (i : Nat) : Fld := ⟨0x201040 + 0x10000 * i, 0, 64, 0, .rw⟩
def row_TN_BUFQ : RegRow := ⟨0x201040, 0x10000, 17, 0x0, 1, fun i _ => [TN_BUFQ_HANDLE i]⟩

/-! TN_BUFQ_MAP: R460 of spec/14_tenancies.md. -/
def TN_BUFQ_MAP_DATA (i j : Nat) : Fld := ⟨0x201048 + 0x10000 * i + 0x8 * j, 0, 64, 0, .ro⟩
def row_TN_BUFQ_MAP : RegRow := ⟨0x201048, 0x10000, 17, 0x8, 4, fun i j => [TN_BUFQ_MAP_DATA i j]⟩

/-! TN_BUFQ_STATUS: R460 of spec/14_tenancies.md. -/
def TN_BUFQ_STATUS_STATUS (i : Nat) : Fld := ⟨0x201068 + 0x10000 * i, 0, 8, 0, .ro⟩
def row_TN_BUFQ_STATUS : RegRow := ⟨0x201068, 0x10000, 17, 0x0, 1, fun i _ => [TN_BUFQ_STATUS_STATUS i]⟩

/-! PWR_TN_MIRROR: R125 of spec/04_weather_ladder.md. -/
def PWR_TN_MIRROR_DATA (i : Nat) : Fld := ⟨0x201F00 + 0x10000 * i, 0, 64, 0, .ro⟩
def row_PWR_TN_MIRROR : RegRow := ⟨0x201F00, 0x10000, 17, 0x0, 1, fun i _ => [PWR_TN_MIRROR_DATA i]⟩

end Reg

/-- Part 1 of the register table. -/
def regTable1 : List RegRow :=
  [Reg.row_ID_VARIANT,
   Reg.row_ID_COMPAT,
   Reg.row_PWR_IN_STATUS,
   Reg.row_PWR_IN_SAMPLE,
   Reg.row_PWR_IN_ENERGY,
   Reg.row_PWR_IN_EXTREMES,
   Reg.row_PWR_SLEW,
   Reg.row_PWR_DRIZZLE,
   Reg.row_PWR_BANK,
   Reg.row_PWR_SUPPLY_EVENT,
   Reg.row_PWR_RESTART,
   Reg.row_PWR_THERMAL,
   Reg.row_PWR_DOM_ID,
   Reg.row_PWR_DOM_CTL,
   Reg.row_PWR_DOM_REQ,
   Reg.row_PWR_DOM_STATE,
   Reg.row_PWR_DOM_ENERGY,
   Reg.row_PWR_DOM_WAKES,
   Reg.row_PWR_BUDGET,
   Reg.row_PWR_BUDGET_STATUS,
   Reg.row_PWR_TNCAP,
   Reg.row_ID_PART,
   Reg.row_ID_TILEMAP,
   Reg.row_ID_STACKMAP,
   Reg.row_ID_LINKMAP,
   Reg.row_ID_UNIT,
   Reg.row_BRU_REPORT0,
   Reg.row_BRU_REPORT1,
   Reg.row_BRU_STATUS,
   Reg.row_BRU_CTL,
   Reg.row_BRU_RETIRED_T,
   Reg.row_BRU_RETIRED_L,
   Reg.row_BRU_TIMES,
   Reg.row_TILE_STATE,
   Reg.row_TILE_FAULT_INFO,
   Reg.row_TILE_FAULT_ADDR,
   Reg.row_TILE_DBG_CTL,
   Reg.row_TILE_DBG_BP,
   Reg.row_TILE_DBG_SEL,
   Reg.row_TILE_DBG_DATA]

/-- Part 2 of the register table. -/
def regTable2 : List RegRow :=
  [Reg.row_TILE_PERF,
   Reg.row_TILE_STALL,
   Reg.row_TILE_ECC,
   Reg.row_TILE_MX_CFG,
   Reg.row_TILE_MX_STATUS,
   Reg.row_TILE_MX_CSUM,
   Reg.row_TILE_MX_WORK,
   Reg.row_TILE_VX_STATUS,
   Reg.row_TILE_VX_WORK,
   Reg.row_PQ_SET,
   Reg.row_TILE_Q_WAIT,
   Reg.row_TILE_Q_WSTART,
   Reg.row_PQ_VAL,
   Reg.row_PQ_TNCFG,
   Reg.row_PQ_TNSWEEP,
   Reg.row_PQ_SNAP_CTL,
   Reg.row_PQ_ISO_ERR,
   Reg.row_TILE_DMA_STATUS,
   Reg.row_TILE_DMA_BYTES,
   Reg.row_TILE_JS_STAT,
   Reg.row_TILE_JS_ERR,
   Reg.row_TILE_JS_SLOTSEL,
   Reg.row_TILE_JS_SLOTDATA,
   Reg.row_MEM_STATUS,
   Reg.row_MEM_ECC,
   Reg.row_MEM_ECC_ADDR,
   Reg.row_MEM_SCRUB,
   Reg.row_MEM_TRAFFIC,
   Reg.row_MEM_SLOT_STAT,
   Reg.row_MEM_SLOTSEL,
   Reg.row_MEM_SLOTDATA,
   Reg.row_MEM_GROUPMODE,
   Reg.row_MEM_BSW_STAT,
   Reg.row_MEM_BSW_SLOTSEL,
   Reg.row_MEM_BSW_SLOTDATA,
   Reg.row_LNK_STATUS,
   Reg.row_LNK_CTL,
   Reg.row_LNK_PEER,
   Reg.row_LNK_TIME,
   Reg.row_LNK_ERR]

/-- Part 3 of the register table. -/
def regTable3 : List RegRow :=
  [Reg.row_LNK_QUAL,
   Reg.row_LNK_LATE,
   Reg.row_LNK_SLOTSEL,
   Reg.row_LNK_SLOTDATA,
   Reg.row_LNK_DOM_CFG,
   Reg.row_LNK_DOM_DESC,
   Reg.row_LNK_DOM_DIGEST,
   Reg.row_LNK_DOM_TIME,
   Reg.row_LNK_DOM_MAP,
   Reg.row_RING_CTL,
   Reg.row_RING_CMDBASE,
   Reg.row_RING_CPLBASE,
   Reg.row_RING_DBADDR,
   Reg.row_RING_STADDR,
   Reg.row_RING_SIZE,
   Reg.row_RING_POLL,
   Reg.row_RING_IRQ,
   Reg.row_RING_STATE,
   Reg.row_RING_COUNT,
   Reg.row_RING_POLLSTAT,
   Reg.row_RING_HOST,
   Reg.row_RING_IDE,
   Reg.row_TN_CTL,
   Reg.row_TN_STATE,
   Reg.row_TN_CFG,
   Reg.row_TN_TILES,
   Reg.row_TN_SLOTQ,
   Reg.row_TN_SAVE,
   Reg.row_TN_ISO,
   Reg.row_RIME_STATUS,
   Reg.row_RIME_KEY,
   Reg.row_RIME_COUNT,
   Reg.row_RIME_WORK,
   Reg.row_RIME_ECC,
   Reg.row_MC_MBX_CTL,
   Reg.row_MC_MBX_STATUS,
   Reg.row_MC_STATUS,
   Reg.row_MC_STALE,
   Reg.row_MC_EPOCH,
   Reg.row_TILE_TWIN]

/-- Part 4 of the register table. -/
def regTable4 : List RegRow :=
  [Reg.row_TILE_TWIN_HASH,
   Reg.row_MC_EVR_BASE,
   Reg.row_MC_EVR_DBADDR,
   Reg.row_TN_EVR_BASE,
   Reg.row_TN_EVR_DBADDR,
   Reg.row_MC_EVR_CTL,
   Reg.row_TN_EVR_CTL,
   Reg.row_MC_EVR_STATE,
   Reg.row_TN_EVR_STATE,
   Reg.row_TN_FPOLICY,
   Reg.row_MC_GRANWH,
   Reg.row_CS_CMD,
   Reg.row_CS_ADDR,
   Reg.row_CS_STATUS,
   Reg.row_CS_BOOT,
   Reg.row_CS_ACTIVE,
   Reg.row_CS_WINDOW,
   Reg.row_CS_ROLLBACK,
   Reg.row_CS_BUF,
   Reg.row_BRU_REPORT2,
   Reg.row_BRU_REPORT3,
   Reg.row_BRU_REPORT4,
   Reg.row_BRU_REPORT5,
   Reg.row_BRU_REPORT6,
   Reg.row_BRU_REPORT7,
   Reg.row_MC_MBX_REQ,
   Reg.row_MC_MBX_RSP,
   Reg.row_PQ_SNAP,
   Reg.row_TN_VIEW_STATE,
   Reg.row_TN_VIEW_TILES,
   Reg.row_TN_VIEW_CFG,
   Reg.row_TN_VIEW_PQ,
   Reg.row_TN_VIEW_GMAP,
   Reg.row_TN_BUFQ,
   Reg.row_TN_BUFQ_MAP,
   Reg.row_TN_BUFQ_STATUS,
   Reg.row_PWR_TN_MIRROR]

/-- The registers of BAR0 that hold fields of the register file (R573). -/
def regTable : List RegRow := regTable1 ++ regTable2 ++ regTable3 ++ regTable4

end Sys2Proof.Machine
end

