-- ==== Sys2Proof/Machine/State.lean ====
section
/-! DEFINITION. The state of the module as plain data: the register file, the tiles with their engines and queues, the
networks' packets in flight, the memories, the rings, tenancies, epochs, links, Rime engines, the supply, the ladder,
bring-up, the management protocols and the configuration store; the commands that wait; the state after reset. -/

namespace Sys2Proof.Machine

/-- Why a step can stop with a fault. No command of this hardware stops the machine: every failure the spec describes is
an effect on the state (R17). Nothing raises it; stopping here would be safe. -/
inductive Fault where
  /-- Raised by no command. Safe. -/
  | none
  deriving DecidableEq, Repr

/-- Why a command has no meaning in the model. -/
inductive Refusal where
  /-- The command's row of the table has no meaning yet; raised by its arm of exec. Safe. -/
  | notModelled (mnemonic : String)
  deriving DecidableEq, Repr

/-! ### Outside world -/

/-- What the module sends to the world outside, in the order in which it sends it. -/
inductive Out where
  /-- A write request to host memory for a function, with the Relaxed Ordering attribute or without it (R402). -/
  | hostWrite (func addr : Nat) (data : List Byte) (relaxed : Bool := false)
  /-- A read request to host memory for a function. -/
  | hostRead (func addr len : Nat)
  /-- An MSI-X message of a function (R400). -/
  | msix (func vector : Nat)
  /-- A completion of a request that the host made: data, or Unsupported Request. -/
  | completion (func : Nat) (data : Option (List Byte))
  /-- A protocol message of the module (MCTP, PLDM, SPDM, configuration, I3C, TAP). -/
  | message (port : Nat) (data : List Byte)
  /-- A block's control word on a link (R370). -/
  | linkWord (link : Nat) (word : Nat)
  /-- A flit sent in a slot of a link. -/
  | linkFlit (link slot : Nat) (data : List Byte)
  deriving DecidableEq, Repr

/-- The boundary-scan port (R89 to R92): the instruction that acts, the bypass bit, the boundary register, and what drives the pins: 0
the module, 1 the boundary register, 2 nothing (high impedance), 3 and 4 the pulse and train of IEEE 1149.6. -/
structure Tap where
  ir : Nat := 0x01
  bypass : Bool := false
  cells : BitVec 58 := 0
  drive : Nat := 0
  deriving DecidableEq, Repr

/-- The pins (R64 to R94), what is sampled from them, the dynamic address of the I3C target (R71), the level of TRST# (its pull-down
holds it low where nothing drives it). -/
structure Pins where
  perst : Bool := true
  alert : Bool := false
  thermtrip : Bool := false
  ga : BitVec 3 := 0
  scanEn : Bool := false
  prsntP : Bool := true
  i3c : Option (BitVec 7) := none
  trst : Bool := false
  tap : Tap := {}
  deriving DecidableEq, Repr

/-! ### Tokens -/

/-- Where a token or a pooled-queue operation comes from (R287, R293). -/
inductive Source where
  | slot (tile : Nat)
  | dma (tile chan : Nat)
  | rime (die : Nat)
  | ring (func : Nat) (copy : Bool)
  | link (link srcTile srcMod : Nat) (dma : Bool)
  /-- The pooled queues, which answer those that wait there. -/
  | pooled
  deriving DecidableEq, Repr

/-- Kinds of Isobar packets (R283). -/
inductive IsoKind where
  | signal | wait | take | release | cancel | sweep | peek | reply
  deriving DecidableEq, Repr

/-- An Isobar packet in flight (R283) with its sequence number; one that met a CRC error is lost until it is sent again, from 4 KCLK after the
tick `lostAt` (R284). `sweep`: it belongs to a sweep and acts at the tick that R305 gives; `drift` is its DRIFT bit. -/
structure Iso where
  kind : IsoKind
  pool : Bool
  queue : Nat
  tile : Nat
  src : Source
  tenancy : Nat
  count : Nat
  epoch : Nat
  status : Nat := 0
  flags : Nat := 0
  seq : Nat := 0
  sweep : Bool := false
  drift : Bool := false
  retried : Bool := false
  lost : Bool := false
  lostAt : Word := 0
  deriving DecidableEq, Repr

/-! ### Tiles -/

/-- An entry of the store buffer: one 8-byte aligned word with a byte mask (R181). -/
structure SbEntry where
  word : Nat
  data : Word
  mask : BitVec 8
  deriving DecidableEq, Repr

/-- A token queue: its value and its settings word (R278, R279). -/
structure Queue where
  value : BitVec 24 := 0
  rest : BitVec 24 := 0
  strict : Bool := false
  sweep : Bool := false
  ovf : Bool := false
  lastSrc : BitVec 6 := 0
  lastMod : BitVec 6 := 0
  lastValid : Bool := false
  lastDma : Bool := false
  lastHost : Bool := false
  lastRime : Bool := false
  owner : BitVec 5 := 0
  deriving DecidableEq, Repr

/-- Where a wait stands (R285, R286): no wait, waiting at the tile's own queue, under way to or held at a pooled queue,
or answered. -/
inductive WaitPhase where
  | none
  | atTile
  | pooled
  | released
  | refused (status value flags : Nat)
  deriving DecidableEq, Repr

/-- What a cancelled pooled wait makes way for once its reply is in (R310). -/
inductive AfterCancel where
  | none
  | raise (code status addr : Nat)
  | stop (code status : Nat)
  | debugHalt
  deriving DecidableEq, Repr

/-- The tile's wait beside the registers TILE_Q_WAIT and TILE_Q_WSTART, with the bundle that waits. -/
structure Wait where
  phase : WaitPhase := .none
  result : BitVec 24 := 0
  timedOut : Bool := false
  after : AfterCancel := .none
  bundle : List Byte := []
  deriving DecidableEq, Repr

/-- A DMA channel (R168, R348): its descriptors with the addresses they came from, the progress of the active one, the
units whose replies to its reads and writes it still waits for, the sequence number of the active descriptor (R357), the link
and the relay module of a remote one, the first contents of bytes that are both source and destination (R343), and the bytes
that another channel writes at the same time (R348), and the units that had not answered when the channel was stopped (R498). -/
structure Chan where
  descs : List (Nat × List Byte) := []
  active : Bool := false
  row : Nat := 0
  off : Nat := 0
  reads : List Nat := []
  writes : List Nat := []
  seq : Nat := 0
  link : Option Nat := none
  relay : Option Nat := none
  snap : List Host.Cell := []
  clash : List Nat := []
  gone : List Nat := []
  deriving DecidableEq, Repr

/-- A matrix operation in a panel queue (R221, R223): its place in program order, its slot word, the MCFG settings under which it
was issued, and what it read at issue: the descriptors, aA, aA2 and gG, the bundle's address; and the elements of its wide buffer that another
spill has used meanwhile, by address and length (R252). -/
structure MxOp where
  seq : Nat
  word : Nat
  cfg : Nat
  desc : List Byte
  args : List Nat
  ba : Nat
  clash : List (Nat × Nat) := []
  deriving DecidableEq, Repr

/-- A matrix panel (R198, R220, R224): its stationary operand (elements as bits, and the piece it was loaded from), its two
accumulator banks, its queues, its passes since LAUNCH, its drizzle: the level in sixteenths of its rows, the TCLK left of the window, the
ramp to another level that is under way (goal, start, length in ns). -/
structure Panel where
  loaded : Bool := false
  stat : List (Nat × Nat) := []
  statPiece : Nat := 0
  banks : List (Nat × Nat) := []
  queue : List MxOp := []
  readq : List MxOp := []
  passes : Nat := 0
  drizzle : Nat := 0
  drizzleLeft : Nat := 0
  ramp : Option (Nat × Word × Nat) := none
  deriving DecidableEq, Repr

/-- A vector operation in the V queue (R261, R262): its place in program order, its slot word, the bank claimed in program order, and
what it read at issue for DST, SA, SB and the mask. -/
structure VxOp where
  seq : Nat
  word : Nat
  claim : Option (Nat × Nat)
  args : List Nat
  deriving DecidableEq, Repr

/-- One tile (R160), with its engines; `stale` are the old contents of bundles that were written while they may have been fetched, with how many
of the next bundles to issue they may still be (R176); `savedWord` is word 0x288 of the record as it was saved; `owedTokens` and `owedStarts` are the tokens and the DMA channels' descriptors that follow the drain of
the store buffer's head (R183). -/
structure Tile where
  g : Vector Word 64 := Vector.replicate 64 0
  a : Vector (BitVec 48) 16 := Vector.replicate 16 0
  p : BitVec 16 := 0
  m : Vector Word 8 := Vector.replicate 8 0
  cycle : Word := 0
  istore : List Host.Cell := []
  stale : List (Nat × Nat × List Byte) := []
  sp : List Host.Cell := []
  sb : List SbEntry := []
  owedTokens : List Iso := []
  owedStarts : List Nat := []
  lq : Vector Queue 32 := Vector.replicate 32 {}
  wait : Wait := {}
  peeks : List (Nat × Nat) := []
  chans : Vector Chan 4 := Vector.replicate 4 {}
  panels : Vector Panel 4 := Vector.replicate 4 {}
  vq : List VxOp := []
  halting : Bool := false
  debugPending : Bool := false
  stepping : Bool := false
  pastBp : Bool := false
  pastEnd : Bool := false
  loading : Option (Nat × Nat × Nat × Nat) := none
  scrubbing : Bool := false
  scrubAt : Option Word := none
  saved : Bool := false
  savedWord : Nat := 0
  sweeper : Bool := false
  sweepDrift : Bool := false
  sdcCount : Nat := 0
  uncorrAddrs : List Nat := []
  corrCount : Nat := 0
  twinHash : Word := 0xFFFFFFFFFFFFFFFF
  drizzleAt : Option Word := none
  deriving DecidableEq, Repr

/-! ### Networks -/

/-- A queue that something reached in this KCLK (R287): its content before that, the highest port that a token came through, whether those
that wait there are not served yet. -/
structure QTouch where
  pool : Bool
  tile : Nat
  queue : Nat
  old : Queue
  port : Nat
  unserved : Bool
  deriving DecidableEq, Repr

/-- A waiter at a pooled queue, in order of arrival (R287); `fresh` until the queue has checked it, `peek` for one that only reads. -/
structure Waiter where
  queue : Nat
  rime : Bool
  unit : Nat
  take : Bool
  count : Nat
  tenancy : Nat
  fresh : Bool := true
  peek : Bool := false
  deriving DecidableEq, Repr

/-- Flit types (R318). -/
inductive FlitType where
  | read | write | rdata | wack | iswrite
  deriving DecidableEq, Repr

/-- Where a flit stands: at an input of a tile's router, at an input of a base-switch quadrant, or at its target. -/
inductive Loc where
  | router (tile port : Nat)
  | quadrant (q port : Nat)
  | target
  deriving DecidableEq, Repr

/-- What a flit to or from a link engine belongs to (R357): the module and tile at the far end, the descriptor's sequence
number, whether the address is in HBM, whether it is the last of its descriptor. -/
structure Remote where
  mod : Nat
  tile : Nat
  dseq : Nat
  hbm : Bool := false
  last : Bool := false
  deriving DecidableEq, Repr

/-- A Jetstream flit in flight (R318): the fields of its control word, its payload bytes and where it stands. -/
structure Flit where
  typ : FlitType
  sched : Bool
  tenancy : Nat
  epoch : Nat
  dest : Nat
  src : Nat
  tag : Nat
  ch : Nat
  addr : Nat
  data : List Byte
  len : Nat
  reply : Nat
  poison : Bool := false
  status : Nat := 0
  remote : Option Remote := none
  loc : Loc
  deriving DecidableEq, Repr

/-- A request that waits at an HBM controller (R321, R326); `half` is true once the read of a partial write is done (R341). -/
structure HcReq where
  flit : Flit
  port : Nat
  pcs : Nat
  half : Bool := false
  deriving DecidableEq, Repr

/-- Patrol scrub of a stack (R340): words read in this pass and the time that counted toward its period, in ns. -/
structure Scrub where
  words : Nat := 0
  ns : Nat := 0
  deriving DecidableEq, Repr

/-- Kinds of Breeze packets that carry an effect (R329). -/
inductive BzKind where
  | cmd | epoch | report | ctrl
  deriving DecidableEq, Repr

/-- A Breeze packet in flight (R329); one that met a CRC error is lost until it is sent again, from 4 KCLK after the tick `lostAt` (R330). -/
structure Bz where
  kind : BzKind
  dest : Nat
  src : Nat
  func : Nat
  epoch : Nat
  status : Nat := 0
  beat1 : Nat := 0
  beat2 : Nat := 0
  beat3 : Nat := 0
  retried : Bool := false
  lost : Bool := false
  lostAt : Word := 0
  deriving DecidableEq, Repr

/-! ### Links -/

/-- A link flit (R357) without its sequence numbers, credits and CRC. -/
structure LFlit where
  vc : Nat
  kind : Nat
  hbm : Bool := false
  lastrec : Bool := false
  poison : Bool := false
  relay : Bool := false
  tenancy : Nat
  dtile : Nat := 0
  ch : Nat := 0
  stile : Nat := 0
  dmod : Nat := 0
  smod : Nat := 0
  tag : Nat := 0
  dseq : Nat := 0
  addr : Nat := 0
  mapgen : Nat := 0
  data : List Byte := []
  tokens : List (List Byte) := []
  rdAddr : Nat := 0
  rdLen : Nat := 0
  deriving DecidableEq, Repr

/-- A descriptor of a far module whose flits this module's link engine receives (R385); an aborted one keeps its DACK and its tokens
(R498). Each token stands with the epoch that the link engine stamped when it accepted it (R296). -/
structure RxDesc where
  smod : Nat
  stile : Nat
  ch : Nat
  dseq : Nat
  tenancy : Nat
  owed : Nat := 0
  last : Bool := false
  aborted : Bool := false
  tokens : List (List Byte × Nat) := []
  deriving DecidableEq, Repr

/-- What the far end's IDENT word says (R362). -/
structure Ident where
  mod : Nat
  link : Nat
  n : Nat
  p31 : Bool
  spare : Bool
  target : Nat
  serial : Nat
  lambda : Nat
  deriving DecidableEq, Repr

/-- What the far end's UPMAP word says (R362). -/
structure UpMap where
  active : Nat
  master : Nat
  synced : Bool
  isMaster : Bool
  deriving DecidableEq, Repr

/-- A link engine beside its registers (R355 to R387): sequence numbers, flits kept for replay and due for it, credits, flits
that wait by virtual channel, relay flits, control words, training, the far end's words, offsets, flits held to their release,
received descriptors, the channels whose descriptors have no DACK yet, what each tenancy used of its share of the frame, and
how often the link went DOWN with cause REPLAY at this start (R538), the far end's serial as its training saw it (R144), the requests
of the far end that it has put into the module and that no answer has come for (R498). -/
structure Link where
  txSeq : Nat := 0
  kept : List (Nat × LFlit) := []
  resend : List Nat := []
  replays : List (Nat × Nat) := []
  rxSeq : Nat := 4095
  nak : Bool := false
  naked : Bool := false
  cred1 : Nat := 64
  cred2 : Nat := 64
  cred3 : Nat := 256
  ret1 : Nat := 0
  ret2 : Nat := 0
  ret3 : Nat := 0
  q0 : List LFlit := []
  q1 : List LFlit := []
  q2 : List LFlit := []
  q3 : List LFlit := []
  qr : List LFlit := []
  words : List (Nat × Nat × Nat) := []
  rxTrained : Bool := false
  txTrained : Bool := false
  trainStart : Word := 0
  cold : Bool := false
  qualStart : Word := 0
  light : Bool := false
  downAt : Word := 0
  lastSlot : Nat := 0
  ident : Option Ident := none
  digest : List (Nat × Nat) := []
  up : Option UpMap := none
  rxStamp : Nat := 0
  thetas : List Int := []
  held : List (Nat × LFlit) := []
  rx : List RxDesc := []
  owed : List (Nat × Nat × Nat) := []
  used : List (Nat × Nat) := []
  replayDowns : Nat := 0
  loopback : Bool := false
  farSerial : Nat := 0
  served : List Flit := []
  deriving DecidableEq, Repr

/-- The share map that a peer publishes for a tenancy (R373). -/
structure ShareMap where
  gen : Nat := 0
  tiles : Nat := 0
  grans : Nat := 0
  base : Nat := 0
  count : Nat := 0
  deriving DecidableEq, Repr

/-- The module's place in a domain (R376 to R382), beside its registers: frames in a row within 10 ns and above 50 ns of the
master, a rejoin asked for, peers' offsets as a master measures them, the share maps received, the parts of a map under way,
the tiles' SYNCED frames since a fence. -/
structure DomainSt where
  good : Nat := 0
  bad : Nat := 0
  rejoin : Bool := false
  follower : List (Nat × Nat) := []
  maps : List (Nat × ShareMap) := []
  parts : List (Nat × Nat × Nat) := []
  deriving DecidableEq, Repr

/-! ### Rime engines -/

/-- A loaded refresh key with its tag (R477) and its bytes. -/
structure RimeKey where
  tenancy : Nat
  epoch : Nat
  addr : Nat
  desc : List Byte
  bsk : List Host.Cell
  deriving DecidableEq, Repr

/-- A Rime engine beside its registers (R464, R476): its queue of commands (function, ring, count), the one under way, its key
store, what the pre-check read (key descriptor, op list, the headers of each op's inputs: FLAGS and DIST), ops written, the first that
warned, where in `hbmLog` its wave began, the result of a command whose token is under way, when a scrub of it began. -/
structure Rime where
  queue : List (Nat × Nat × Nat) := []
  active : Option (Nat × Nat × Nat) := none
  waiting : Bool := false
  waitStart : Word := 0
  key : Option RimeKey := none
  desc : List Byte := []
  ops : List Byte := []
  heads : List (List Nat) := []
  written : Nat := 0
  warned : Option Nat := none
  logFrom : Nat := 0
  logPrev : Nat := 0
  owes : Option Nat := none
  scrubAt : Option Word := none
  deriving DecidableEq, Repr

/-! ### Rings -/

/-- The first failure of a command (R35, R413). -/
structure Failure where
  status : Nat
  xstatus : Nat := 0
  detail : Nat := 0
  ba : Nat := 0
  deriving DecidableEq, Repr

/-- Where a fetched command stands (R409 to R411). -/
inductive CmdState where
  | fetched | dispatched | running
  deriving DecidableEq, Repr

/-- A command of a ring that has no completion yet: its count and descriptor, where it stands, the tenancy's epoch stamped at
dispatch, its first failure, what will qualify its status, bytes moved, when it started, a LAUNCH's placement, the
flits a copy is owed and the bytes it has asked for, twin pairs, schedule, slew, start load, load marks (tile, cycle, level) and
the common start tick of its schedule, the ABORTs that wait for it, the epochs of its target units stamped at dispatch, and the bundles that tiles
issued which a later LAUNCH has taken. -/
structure RingCmd where
  idx : Nat
  desc : List Byte
  st : CmdState := .fetched
  epoch : Nat := 0
  fail : Option Failure := none
  corrected : Bool := false
  warned : Bool := false
  moved : Nat := 0
  start : Word := 0
  place : Nat := 0
  owed : Nat := 0
  cursor : Nat := 0
  pairs : List (Nat × Nat) := []
  sched : Bool := false
  slew : Nat := 0
  load : Nat := 0
  marks : List (Nat × Nat × Nat) := []
  common : Option Word := none
  abortedBy : List (Nat × Nat) := []
  logged : Bool := false
  stamp : List (Nat × Nat) := []
  issued : Nat := 0
  deriving DecidableEq, Repr

/-- A completion that has a place in the order in which commands end and is not yet written (R399, R423). -/
structure Cpl where
  status : Nat
  xstatus : Nat := 0
  opcode : Nat
  tag : List Byte
  idx : Nat
  detail : Nat := 0
  ba : Nat := 0
  result : Nat := 0
  irq : Bool := false
  event : Bool := false
  dispatched : Bool := true
  abortedBy : List (Nat × Nat) := []
  deriving DecidableEq, Repr

/-- A ring of a function, beside its registers; `aborts` are the counts of the ABORT commands it fetched, `early` the ABORTs
(target count, ring, count) whose target is posted and not fetched yet (R424). -/
structure Ring where
  cmds : List RingCmd := []
  cpls : List Cpl := []
  ctail : Nat := 0
  rhead : Nat := 0
  unannounced : Nat := 0
  irqStart : Option Word := none
  due : Word := 0
  reading : Bool := false
  fetching : Nat := 0
  aborts : List Nat := []
  early : List (Nat × Nat × Nat) := []
  deriving DecidableEq, Repr

/-- A function's MSI-X state (R400): the table's addresses and data, its mask bits and the pending bits. -/
structure Msix where
  table : List (Nat × Nat) := []
  masked : Word := 0xFFFFFFFFFFFFFFFF
  pending : Word := 0
  enabled : Bool := false
  funcMask : Bool := false
  deriving DecidableEq, Repr

/-- A function of the host port: configuration registers that software wrote, D3hot, MSI-X. -/
structure Func where
  cfg : List (Nat × Nat) := []
  d3hot : Bool := false
  msix : Msix := {}
  deriving DecidableEq, Repr

/-! ### Tenancies, epochs, events -/

/-- A buffer handle slot (R449): allocations of the slot at this start, whether it is live, its owner and its granules. -/
structure HandleSlot where
  allocs : Nat := 0
  live : Bool := false
  owner : Nat := 31
  grans : List Nat := []
  deriving DecidableEq, Repr

/-- Phases of an Isobar sweep (R305). -/
inductive SweepPhase where
  | idle
  | checking (latch : Word) (failed : List (List Byte))
  | releasing (tick : Word) (drifted : Bool)
  deriving DecidableEq, Repr

/-- A tenancy, beside its registers: its key (as the number of the draw it came from), its loan and its excess over its cap in µW
(R117, R119), its sweep, and what its running images fix. -/
structure Tenancy where
  key : Option Nat := none
  destroying : Bool := false
  borrowed : Nat := 0
  excess : Nat := 0
  sweep : SweepPhase := .idle
  slew : Nat := 0
  step : Nat := 0
  deriving DecidableEq, Repr

/-- Steps of a quiesce (R496). -/
inductive QPhase where
  | waiting | fenced | resetting
  deriving DecidableEq, Repr

/-- Who waits for the end of a quiesce. -/
inductive QFor where
  | nobody
  | mailbox
  | stop (t : Nat)
  | destroy (t : Nat)
  | restart
  | powerOff
  deriving DecidableEq, Repr

/-- A quiesce that waits or runs (R496, R500, R502). -/
structure Quiesce where
  units : List Nat
  reason : Nat
  tenancy : Nat := 31
  hold : Bool := false
  phase : QPhase := .waiting
  start : Word := 0
  whom : QFor := .nobody
  deriving DecidableEq, Repr

/-- An event that a ring is to record (R537). -/
structure EvRec where
  status : Nat := 0
  kind : Nat
  cls : Nat := 0
  tick : Word := 0
  unit : Nat := 0xFF
  tenancy : Nat := 0x1F
  func : Nat := 0x1F
  ring : Nat := 0
  index : Nat := 0xFFFFFFFF
  count : Nat := 1
  body : List Byte := []
  deriving DecidableEq, Repr

/-- An event ring, beside its registers: the records it holds, the consumer's count, records dropped and not yet reported,
the last message. -/
structure EvRing where
  held : List EvRec := []
  rhead : Nat := 0
  lost : Nat := 0
  due : Bool := false
  lastMsg : Option Word := none
  deriving DecidableEq, Repr

/-- Corrected-class events of one unit and source that wait to be recorded together (R536). -/
structure Coalesce where
  unit : Nat
  source : Nat
  last : Word
  more : Nat := 0
  event : EvRec
  deriving DecidableEq, Repr

/-- A twin pair of a running LAUNCH (R524 to R530): the primary, the shadow, and the effects held in each window. -/
structure Twin where
  primary : Nat
  shadow : Nat
  window : Nat := 0
  heldFlits : List (Nat × Flit) := []
  heldTokens : List (Nat × Iso) := []
  deriving DecidableEq, Repr

/-! ### Management -/

/-- A management event in the queue (R513). -/
structure MgmtEvent where
  id : Nat
  kind : Nat
  data : List Byte
  overflow : Nat := 0
  deriving DecidableEq, Repr

/-- Where a PLDM firmware update stands (R563): components named, ready for a transfer, transferring, transferred, verified. -/
inductive UpdPhase where
  | learn | readyXfer | download | verify | apply
  deriving DecidableEq, Repr

/-- A PLDM firmware update: the slot it writes, the bytes programmed, whether an image has been applied. -/
structure Update where
  phase : UpdPhase := .learn
  slot : Nat := 0
  done : Nat := 0
  applied : Bool := false
  deriving DecidableEq, Repr

/-- An SPDM session of a transport (R515): its number, whether FINISH has ended its handshake, its key updates. -/
structure Session where
  port : Nat
  id : Nat
  established : Bool := false
  updates : Nat := 0
  deriving DecidableEq, Repr

/-- The management endpoints' state (R509 to R516): events, endpoint IDs by binding, the terminus ID, a firmware update, SPDM connections
(port, how far negotiated) and sessions, the measurement blocks of this start, the functions whose IDE keys are set (R398). -/
structure Mgmt where
  events : List MgmtEvent := []
  nextId : Nat := 1
  lost : Nat := 0
  receiver : Option Nat := none
  eids : List (Nat × Nat) := []
  tid : Nat := 0
  upd : Option Update := none
  conn : List (Nat × Nat) := []
  sessions : List Session := []
  measured : List (List Byte) := []
  ideKeys : List Nat := []
  deriving DecidableEq, Repr

/-! ### Supply and ladder -/

/-- A switched domain's transition (R103, R104, R126): the tick its exit began and its exact exit time, the tick its slew
grant was made, the sleep state it is entering and since when, a wake that arrived during a save, the step it is to take
once its rail allows it, and when it last carried work; the step that the power manager holds for it and the steps below that
which a dip or a throttle took (R44, R46), when it was last stepped, its energy in nJ (R123); at full rate, the tick at which its ramp
to that rate ends (R52); whether a tile's wait is held in L1 with its wake time unchanged (R44, R83). -/
structure Dom where
  exiting : Option (Word × Nat) := none
  granted : Option Word := none
  entering : Option (Nat × Word) := none
  wake : Bool := false
  want : Option Nat := none
  idleAt : Word := 0
  held : Nat := 0
  forced : Nat := 0
  stepAt : Option Word := none
  nj : Nat := 0
  rate : Option Word := none
  lulled : Bool := false
  deriving DecidableEq, Repr

/-- What a pending current quantum is for (R52). -/
inductive Quantum where
  /-- A domain's exit from a sleep state. -/
  | wake (dom : Nat)
  /-- A step up of a tile or Rime domain. -/
  | step (dom k : Nat)
  /-- A tile or Rime engine goes to full rate. -/
  | full (dom : Nat)
  /-- A domain's draw has fallen. -/
  | fall (dom : Nat)
  /-- A panel's drizzle ramps down. -/
  | drizzle (tile panel : Nat)
  deriving DecidableEq, Repr

/-- The supply, the slew governor and the rails (R36 to R63): whether the input switch is open and the bank cut off, when the
Surge band began, the sustained limit in W (R43), the slew limit, the module cap and the reserve in force, which take the values of PWR_SLEW and
PWR_BUDGET at each 1 µs boundary (R57, R125), grants that wait by share and the shares' ramps under way, the rails in mV in the order of R62,
where a moving VT rail goes and since when, the stop that is latched with the causes detected and its record (R47, R60), the completions that it
owes with what a supply trip would make of them (R93), the groups at warn and at throttle and the dies tripped (R82), the power manager's 1 ms window: samples, charges and measured draws by tenancy, shared draw,
input power, with the input power averaged over the last whole window (R41, R114, R117), when the 1,400 W burst was last taken (R41), and
the input energy in 0.1 µJ. -/
structure Supply where
  inputOpen : Bool := false
  isolated : Bool := false
  bandAt : Word := 0
  limit : Nat := 1100
  slewNow : Nat := 100
  capNow : Nat := 1100
  reserveNow : Nat := 200
  grants : List (Nat × Quantum × Nat) := []
  busy : List (Nat × Word) := []
  rail : Vector Nat 13 := ⟨#[750, 0, 0, 0, 0, 0, 0, 0, 0, 0, 0, 0, 0], rfl⟩
  railTarget : Vector Nat 4 := Vector.replicate 4 0
  railAt : Vector Word 4 := Vector.replicate 4 0
  stopped : Bool := false
  stopAt : Word := 0
  causes : List Nat := []
  stopRecord : List Byte := []
  stopWritten : Bool := false
  dueOut : Option (List Out × List Out) := none
  warm : Nat := 0
  heat : Nat := 0
  tripped : Nat := 0
  window : Nat := 0
  charge : List (Nat × Nat) := []
  measured : List (Nat × Nat) := []
  shared : Nat := 0
  pinSum : Nat := 0
  pinAvg : Nat := 0
  burstAt : Option Word := none
  energy : Nat := 0
  deriving DecidableEq, Repr

/-! ### The store, the fuses and bring-up -/

/-- What the boot, settings, retirement, stop and summary records of the store say (R546): what a start takes where the always-on
domain lost its power. -/
structure Kept where
  auto : Nat := 1
  holdoff : Nat := 0
  forceCold : Nat := 0
  starts : Nat := 0
  tiles : Nat := 0
  links : Nat := 0
  withheld : List Nat := [0, 0, 0, 0]
  granPoison : List (Nat × Nat) := []
  lastExcluded : List Nat := []
  cause : Nat := 0
  vatstop : Nat := 0
  stops : Nat := 0
  bootWord : Nat := 0
  summary : List (Nat × Nat) := []
  deriving DecidableEq, Repr

/-- The fuse words of a fresh Amilet-64 (R135, R136): the variant and the revision, no mask, serial 0, IDCRC, and as ROOTHASH the
digest of the base point of P-384 (DESIGN CHOICE: the spec gives no unit's words). -/
def factoryFuses : Vector Word 64 :=
  ⟨#[0xB040, 0, 0, 0, 0, 0x9E8DB100, 0xEDF9B71224264F8C, 0xE50D135A70067686, 0x388CAFFB48D02F21, 0xA05BB4F440A2F442,
    0x3EDACD4C19820FC9, 0x1DD5E1AFB0969CD8] ++ Array.replicate 52 0, rfl⟩

/-- The configuration store (R546 to R567): its bytes, where an unlisted one reads 0xFF (erased); the provider's command that
runs (OP, address, length, the data of a PROGRAM); the slot erase under way and its next sector; the owner key; the versions of
the boot record and its REVERTED bit; for each sub-area of the unit record area the next free page and the newest SEQ; the
records that wait to be written; what they say. -/
structure Store where
  cells : List Host.Cell := []
  op : Option (Nat × Nat × Nat × List Byte) := none
  erase : Option (Nat × Nat) := none
  ownerKey : List Byte := []
  aver : Nat := 0
  pver : Nat := 0
  reverted : Bool := false
  recPos : List (Nat × Nat × Nat) := []
  recQ : List Nat := []
  kept : Kept := {}
  deriving DecidableEq, Repr

/-- Bring-up (R129 to R159): when the stage that runs and stage 0 began, when the thermal wait began, whether a reading above its limit made it wait, how long it took in ms, whether
a start was asked for (R510), when the module entered Start wait (R61), the moment from which R149 counts, whether a configuration request has been answered; the units
excluded at the start before; the items trained cold and restored at this start, and retrained in operation with whether cold (stack k as k,
link j as 8 + j), whose records are to be written; the items trained at this start; whether every record is discarded at this start (R144); the coolant inlet at stage 0; the
hardware trip that is latched; the events that wait for Ready; whether the start comes after a supply stop; the cause of the
controller failure at the last stop and the draw that its GETSTATUS byte comes from (R517); a power-off that waits for the stage to end (R159). -/
structure Boot where
  stageAt : Word := 0
  zeroAt : Word := 0
  waitAt : Word := 0
  hotWait : Bool := false
  waited : Nat := 0
  asked : Bool := false
  startWaitAt : Word := 0
  perstAt : Option Word := none
  enumerated : Bool := false
  lastExcluded : List Nat := []
  cold : List Nat := []
  restored : List Nat := []
  inlet : Nat := 0
  trained : List Nat := []
  rewrite : List (Nat × Bool) := []
  allCold : Bool := false
  trip : Bool := false
  events : List EvRec := []
  afterStop : Bool := false
  ctrl : Nat := 0
  ctrlDraw : Nat := 0
  offAsked : Bool := false
  deriving DecidableEq, Repr

/-! ### The module -/

/-- Where the module stands between power-on and service (R36, R61, R131, R152, R153, R158). -/
inductive Phase where
  | dark | startWait | charging | thermalWait | bringUp | ready | halted | recovery | scan | stopping | off
  deriving DecidableEq, Repr

/-- Deep Frost (R121, R122). -/
inductive Frost where
  | awake | asleep | exiting (start : Word)
  deriving DecidableEq, Repr

/-- The state of the block. Every register field stands in `regs`, as its difference (exclusive or) from its reset value,
under the bit address 8·offset + lowest bit; `free` counts the free values drawn. `hbmLog` lists the HBM writes made while a
Rime engine works on a wave; `hbmRow` and `hbmAhead` hold each pseudo-channel's open row and how often a request to it went
ahead (R326); `hbmBytes` the bytes read and written at each stack; `granPoison` the poisoned words counted for each granule
over its life and `exclWait` the units that a threshold excludes when their command completes (R538); `retiring` the units
whose retirement is not recorded yet (R141); `turn` the last input that each network output served (R325); `isoSeq` the Isobar packets that each source sent (R283), `touched` the queues
that something reached in this KCLK (R287); `mbx` the mailbox request that waits for its
response (opcode, tag, unit or tenancy), `mbxHeld` one that waits to be taken (R122, R505); `snap` the wait records that a snapshot latched (R303). -/
structure State where
  phase : Phase := .startWait
  frost : Frost := .awake
  tick : Word := 0
  regs : List (Nat × Nat) := []
  free : Nat := 0
  out : List Out := []
  pending : List Instr := []
  pins : Pins := {}
  tiles : Vector Tile 64 := Vector.replicate 64 {}
  isobar : List Iso := []
  isoSeq : List (Nat × Nat) := []
  waiters : List Waiter := []
  touched : List QTouch := []
  pqs : List (Nat × Queue) := []
  flits : List Flit := []
  hcq : Vector (List HcReq) 8 := Vector.replicate 8 []
  hbm : List Host.Cell := []
  poison : List (Nat × Bool) := []
  /-- Granules whose bytes a change of their group's mode has left unpredictable (R336). -/
  moved : List Nat := []
  rewrites : List Nat := []
  slotsJ : List (Nat × BitVec 32) := []
  slotsB : List (Nat × BitVec 32) := []
  slotsM : List (Nat × BitVec 32) := []
  slotsL : List (Nat × BitVec 32) := []
  breeze : List Bz := []
  rings : Vector (Vector Ring 16) 17 := Vector.replicate 17 (Vector.replicate 16 {})
  polls : Word × Nat := (0, 0)
  funcs : Vector Func 17 := Vector.replicate 17 {}
  vfEnable : Bool := false
  tens : Vector Tenancy 17 := Vector.replicate 17 {}
  granules : Vector (BitVec 5) 256 := Vector.replicate 256 31
  granPoison : List (Nat × Nat) := []
  handles : List (Nat × HandleSlot) := []
  startCount : Nat := 0
  unitEpoch : Vector (BitVec 16) 256 := Vector.replicate 256 0
  reqEpoch : Vector (BitVec 16) 256 := Vector.replicate 256 0
  lastCommit : List (Nat × Word) := []
  quiesces : List Quiesce := []
  evRings : Vector EvRing 18 := Vector.replicate 18 {}
  coalesce : List Coalesce := []
  twins : List Twin := []
  excluded : List Nat := []
  heldEv : List Nat := []
  mgmt : Mgmt := {}
  doms : Vector Dom 86 := Vector.replicate 86 {}
  supply : Supply := {}
  store : Store := {}
  fuses : Vector Word 64 := factoryFuses
  boot : Boot := {}
  links : Vector Link 64 := Vector.replicate 64 {}
  domain : DomainSt := {}
  rimes : Vector Rime 4 := Vector.replicate 4 {}
  hbmLog : List (Nat × Nat) := []
  hbmRow : List (Nat × Nat) := []
  hbmAhead : List (Nat × Nat) := []
  hbmBytes : List (Nat × Nat) := []
  scrubs : Vector Scrub 8 := Vector.replicate 8 {}
  exclWait : List (Nat × Nat × Bool) := []
  retiring : List Nat := []
  turn : List (Nat × Nat) := []
  mbx : Option (Nat × Nat × Nat) := none
  mbxHeld : List Byte := []
  snap : List (List Byte) := []
  deriving DecidableEq, Repr

/-- The state right after reset: the always-on domain has just been powered, the module stands in Start wait (R36), every
register holds its reset value, every queue is empty. -/
def State.reset : State := {}

/-- The outcome of a command. -/
abbrev Res := Host.Outcome State Fault Refusal

end Sys2Proof.Machine
end

