-- ==== Sys2Proof/Machine/Ops.lean ====
section
/-! DEFINITION. The named operations on the state that every family shares: register fields, tiles, rings, tenancies and
units by number, what goes out, MSI-X, event records, management events, free values. -/

namespace Sys2Proof.Machine

/-! ### Registers -/

/-- The key of a field in the register file. -/
def Fld.key (f : Fld) : Nat := 8 * f.off + f.lo

/-- The value of a register field. -/
def State.get (s : State) (f : Fld) : Nat := spGet 0 s.regs f.key ^^^ f.reset

/-- A register field takes a value, cut to its width. -/
def State.set (f : Fld) (v : Nat) (s : State) : State :=
  { s with regs := spSet 0 s.regs f.key ((v % 2 ^ f.width) ^^^ f.reset) }

/-- A counter field goes up by `n` and stays at its largest value. -/
def State.bump (f : Fld) (n : Nat) (s : State) : State := s.set f (satAdd f.width (s.get f) n)

/-- A counter field goes up by `n` and wraps. -/
def State.wrapAdd (f : Fld) (n : Nat) (s : State) : State := s.set f (s.get f + n)

/-- A one-bit field as a yes or no. -/
def State.on (s : State) (f : Fld) : Bool := s.get f == 1

/-- Fields take their reset values. -/
def State.unset (fs : List Fld) (s : State) : State := fs.foldl (fun s f => s.set f f.reset) s

/-- Every field at the offsets from `lo` up to `hi` takes its reset value. -/
def State.unsetRange (lo hi : Nat) (s : State) : State :=
  { s with regs := spClear (fun k => decide (8 * lo ≤ k ∧ k < 8 * hi)) s.regs }

/-- The value of a register after a write of a part of it (R19): the other half stays. -/
def partOf (old : Nat) (part : Part) (v : Word) : Nat :=
  match part with
  | .whole => v.toNat
  | .low => old / 2 ^ 32 * 2 ^ 32 + v.toNat % 2 ^ 32
  | .high => v.toNat % 2 ^ 32 * 2 ^ 32 + old % 2 ^ 32

/-- The word that the fields of a register hold. -/
def State.wordOf (s : State) (fs : List Fld) : Nat := fs.foldl (fun n f => n + s.get f * 2 ^ f.lo) 0

/-- A write of a register's fields by their access codes (R22): RW and RWL fields take the value, each 1 clears a W1C bit, the rest
stay. Half of the register that is not addressed stays (R19). -/
def State.putWord (fs : List Fld) (part : Part) (v : Word) (s : State) : State :=
  let new := partOf (s.wordOf fs) part v
  let ones := partOf 0 part v
  fs.foldl (fun s f =>
    match f.acc with
    | .rw | .rwl => s.set f (bits new f.lo f.width)
    | .w1c => s.set f (s.get f &&& (2 ^ f.width - 1 - bits ones f.lo f.width))
    | _ => s) s

/-- The write would change a field with code RWL. -/
def State.changesRwl (s : State) (fs : List Fld) (part : Part) (v : Word) : Bool :=
  fs.any (fun f => f.acc == .rwl && bits (partOf (s.wordOf fs) part v) f.lo f.width != s.get f)

/-! ### Parts of the module by number -/

/-- Tile `g`. -/
def State.tile (s : State) (g : Nat) : Tile := s.tiles[g]?.getD {}

/-- Tile `g` changed by `f`. -/
def State.modTile (g : Nat) (f : Tile → Tile) (s : State) : State :=
  { s with tiles := s.tiles.setIfInBounds g (f (s.tile g)) }

/-- Ring `r` of function `f`. -/
def State.ring (s : State) (f r : Nat) : Ring := ((s.rings[f]?).bind (fun v => v[r]?)).getD {}

/-- Ring `r` of function `f` changed by `h`. -/
def State.modRing (f r : Nat) (h : Ring → Ring) (s : State) : State :=
  match s.rings[f]? with
  | none => s
  | some v => { s with rings := s.rings.setIfInBounds f (v.setIfInBounds r (h (s.ring f r))) }

/-- Function `f` of the host port. -/
def State.func (s : State) (f : Nat) : Func := s.funcs[f]?.getD {}

/-- Function `f` changed by `h`. -/
def State.modFunc (f : Nat) (h : Func → Func) (s : State) : State :=
  { s with funcs := s.funcs.setIfInBounds f (h (s.func f)) }

/-- Tenancy `t`. -/
def State.ten (s : State) (t : Nat) : Tenancy := s.tens[t]?.getD {}

/-- Tenancy `t` changed by `h`. -/
def State.modTen (t : Nat) (h : Tenancy → Tenancy) (s : State) : State :=
  { s with tens := s.tens.setIfInBounds t (h (s.ten t)) }

/-- Event ring `i`: 0 the provider's, t + 1 that of tenancy t. -/
def State.evRing (s : State) (i : Nat) : EvRing := s.evRings[i]?.getD {}

/-- Event ring `i` changed by `h`. -/
def State.modEvRing (i : Nat) (h : EvRing → EvRing) (s : State) : State :=
  { s with evRings := s.evRings.setIfInBounds i (h (s.evRing i)) }

/-- Channel `c` of tile `g`. -/
def Tile.chan (t : Tile) (c : Nat) : Chan := t.chans[c]?.getD {}

/-- A tile with channel `c` changed by `h`. -/
def Tile.modChan (c : Nat) (h : Chan → Chan) (t : Tile) : Tile :=
  { t with chans := t.chans.setIfInBounds c (h (t.chan c)) }

/-- Panel `p` of a tile. -/
def Tile.panel (t : Tile) (p : Nat) : Panel := t.panels[p]?.getD {}

/-- A tile with panel `p` changed by `h`. -/
def Tile.modPanel (p : Nat) (h : Panel → Panel) (t : Tile) : Tile :=
  { t with panels := t.panels.setIfInBounds p (h (t.panel p)) }

/-- Link `j`. -/
def State.link (s : State) (j : Nat) : Link := s.links[j]?.getD {}

/-- Link `j` changed by `h`. -/
def State.modLink (j : Nat) (h : Link → Link) (s : State) : State :=
  { s with links := s.links.setIfInBounds j (h (s.link j)) }

/-- The Rime engine of compute die `d`. -/
def State.rime (s : State) (d : Nat) : Rime := s.rimes[d]?.getD {}

/-- The Rime engine of compute die `d` changed by `h`. -/
def State.modRime (d : Nat) (h : Rime → Rime) (s : State) : State :=
  { s with rimes := s.rimes.setIfInBounds d (h (s.rime d)) }

/-- What a free pooled queue holds: value 0, settings 0, no owner (R280, R311). -/
def Queue.unowned : Queue := { owner := 31 }

/-- Pooled queue `q`. -/
def State.pq (s : State) (q : Nat) : Queue := spGet Queue.unowned s.pqs q

/-- Pooled queue `q` takes a content. -/
def State.setPq (q : Nat) (v : Queue) (s : State) : State := { s with pqs := spSet Queue.unowned s.pqs q v }

/-! ### The Isobar network (R282, R283) -/

/-- The number of a source, for the packets that it sent: Q slots, DMA channels, Rime engines, the ring engine, link engines, pooled queues. -/
def Source.num : Source → Nat
  | .slot g => g
  | .dma g c => 64 + 4 * g + c
  | .rime d => 320 + d
  | .ring _ _ => 324
  | .link j _ _ _ => 325 + j
  | .pooled => 389

/-- A packet enters the network, numbered by its source (R283). -/
def State.sendIso (p : Iso) (s : State) : State :=
  let n := spGet 0 s.isoSeq p.src.num
  { s with isobar := s.isobar ++ [{ p with seq := n }], isoSeq := spSet 0 s.isoSeq p.src.num ((n + 1) % 65536) }

/-- Something reaches a queue in this KCLK, through a port (R287). -/
def State.touchQ (pool : Bool) (tile queue port : Nat) (old : Queue) (s : State) : State :=
  let at' := fun (e : QTouch) => e.pool == pool && e.tile == tile && e.queue == queue
  if s.touched.any at' then
    { s with touched := s.touched.map (fun e => if at' e then { e with port := max e.port port, unserved := true } else e) }
  else
    { s with touched := s.touched ++ [{ pool := pool, tile := tile, queue := queue, old := old, port := port, unserved := true }] }

/-- Waiters leave their pooled queues, which then serve those behind them. -/
def State.dropWaiters (gone : Waiter → Bool) (s : State) : State :=
  (s.waiters.filter gone).foldl (fun s w => s.touchQ true 0 w.queue 0 (s.pq w.queue))
    { s with waiters := s.waiters.filter (fun w => !gone w) }

/-- Handle slot `i` (R449). -/
def State.handle (s : State) (i : Nat) : HandleSlot := spGet {} s.handles i

/-- The owner of granule `G`: a tenancy, or 31 for none. -/
def State.granOwner (s : State) (G : Nat) : Nat := ((s.granules[G]?).getD 31).toNat

/-! ### Time, free values, what goes out -/

/-- A free value is drawn: its number, and the state with the count advanced. -/
def State.draw (s : State) : State := { s with free := s.free + 1 }

/-- Something is sent to the world outside. -/
def State.emit (o : Out) (s : State) : State := { s with out := s.out ++ [o] }

/-- The time base goes on by 1 ns, while the always-on domain has power (R31). -/
def State.idle (s : State) : State := if s.phase = .dark then s else { s with tick := s.tick + 1 }

/-- Nanoseconds from tick `a` to now. -/
def State.since (s : State) (a : Word) : Nat := (s.tick - a).toNat

/-- A write to BAR0 before Ready is ignored and counted (R150); a module that is not powered takes none. -/
def State.whenReady (k : State → State) (s : State) : State :=
  if s.phase = .ready then k s
  else if (s.phase = .bringUp ∨ s.phase = .recovery ∨ s.phase = .halted) ∧ s.get (Reg.PWR_DOM_STATE_STATE 84) ≠ 5 then
    s.bump Reg.BRU_STATUS_EARLYWRITES 1
  else s

/-- The module serves commands: it has reached Ready and runs (R131). -/
def State.inService (s : State) : Bool := s.phase == .ready

/-! ### Memories -/

/-- What an unlisted byte of the scratchpads, instruction stores and HBM reads as: stages 5 and 6 of bring-up leave zeros
(R353, R198). -/
def ramByte : Byte := 0

/-- Bytes of a tile's scratchpad. -/
def Tile.spRead (t : Tile) (a n : Nat) : List Byte := memRead ramByte t.sp a n

/-- Bytes written into a tile's scratchpad. -/
def Tile.spWrite (a : Nat) (bs : List Byte) (t : Tile) : Tile := { t with sp := memWrite ramByte t.sp a bs }

/-- Bytes of HBM by physical address: free ones in a granule whose group has changed its mode and that nothing has written since (R336). -/
def State.hbmRead (s : State) (a n : Nat) : List Byte :=
  if s.moved.isEmpty then memRead ramByte s.hbm a n
  else ((memRead ramByte s.hbm a n).zipIdx).map (fun e => if s.moved.contains ((a + e.2) / 2 ^ 30) then Config.freeByte (s.free + e.2) else e.1)

/-- A Rime engine loads a key or works on a wave (RIME_STATUS.PHASE 3 and 4). -/
def State.inWave (s : State) : Bool :=
  (List.range 4).any (fun d => s.get (Reg.RIME_STATUS_PHASE d) == 3 || s.get (Reg.RIME_STATUS_PHASE d) == 4)

/-- Bytes written into HBM. -/
def State.hbmWrite (a : Nat) (bs : List Byte) (s : State) : State :=
  { s with hbm := memWrite ramByte s.hbm a bs
           hbmLog := if s.inWave then s.hbmLog ++ [(a, bs.length)] else s.hbmLog }

/-- A bundle of the instruction store: 64 bytes (R161). -/
def Tile.bundle (t : Tile) (ba : Nat) : List Byte := memRead ramByte t.istore (64 * ba) 64

/-! ### MSI-X -/

/-- An MSI-X message of a function's vector is sent, or waits in its pending bit while the vector or the function is masked
(R400). A function in D3hot sends none. -/
def State.sendMsix (f v : Nat) (s : State) : State :=
  let x := (s.func f).msix
  if (s.func f).d3hot || !x.enabled || x.funcMask || x.masked.getLsbD v then
    s.modFunc f (fun h => { h with msix := { h.msix with pending := h.msix.pending ||| BitVec.ofNat 64 (2 ^ v) } })
  else s.emit (.msix f v)

/-! ### Event records (R534 to R537) -/

/-- The register fields of event ring `i`. -/
def evEn (i : Nat) : Fld := if i = 0 then Reg.MC_EVR_CTL_EN else Reg.TN_EVR_CTL_EN (i - 1)
def evLog2 (i : Nat) : Fld := if i = 0 then Reg.MC_EVR_CTL_LOG2 else Reg.TN_EVR_CTL_LOG2 (i - 1)
def evBase (i : Nat) : Fld := if i = 0 then Reg.MC_EVR_BASE_ADDR else Reg.TN_EVR_BASE_ADDR (i - 1)
def evDb (i : Nat) : Fld := if i = 0 then Reg.MC_EVR_DBADDR_ADDR else Reg.TN_EVR_DBADDR_ADDR (i - 1)
def evWritten (i : Nat) : Fld := if i = 0 then Reg.MC_EVR_STATE_WRITTEN else Reg.TN_EVR_STATE_WRITTEN (i - 1)
def evHeld (i : Nat) : Fld := if i = 0 then Reg.MC_EVR_STATE_HELD else Reg.TN_EVR_STATE_HELD (i - 1)
def evError (i : Nat) : Fld := if i = 0 then Reg.MC_EVR_STATE_ERROR else Reg.TN_EVR_STATE_ERROR (i - 1)
def evDropped (i : Nat) : Fld := if i = 0 then Reg.MC_EVR_STATE_DROPPED else Reg.TN_EVR_STATE_DROPPED (i - 1)

/-- The function through which event ring `i` is written (R534). -/
def evFunc (i : Nat) : Nat := i - 1

/-- A record joins the records that a ring is to write; a ring holds up to 256, and a record beyond that is dropped and
counted (R535). -/
def State.pushEvent (i : Nat) (e : EvRec) (s : State) : State :=
  if (s.evRing i).held.length < 256 then
    (s.modEvRing i (fun r => { r with held := r.held ++ [e] })).bump (evHeld i) 1
  else (s.modEvRing i (fun r => { r with lost := min (r.lost + 1) 65535 })).bump (evDropped i) 1

/-- The unit belongs to the assignment of tenancy `t`: its tiles, its Rime engines, itself (R437). -/
def State.unitOf (s : State) (t u : Nat) : Bool :=
  (0x40 ≤ u && u < 0x80 && bitAt (s.get (Reg.TN_TILES_MAP t)) (u - 0x40)) ||
  (0x10 ≤ u && u < 0x14 && bitAt (s.get (Reg.TN_CFG_RIME t)) (u - 0x10)) || u == 0xC0 + t

/-- A record as its tenancy sees it: a unit outside the assignment reads 0xFF (R534). -/
def State.redact (s : State) (t : Nat) (e : EvRec) : EvRec :=
  { e with
    unit := if s.unitOf t e.unit then e.unit else 0xFF
    body := if e.kind = 0x05 then e.body.set 6 0xFF else if e.kind = 0x07 then e.body.set 0 0xFF else e.body }

/-- The kinds of record that reach a tenancy's ring (R534). -/
def tenancyKinds : List Nat := [0x02, 0x03, 0x04, 0x05, 0x06, 0x07, 0x0B]

/-- An event is recorded: in the provider's ring, and in its tenancy's ring where R534 and R533 send it there. -/
def State.logEvent (e : EvRec) (s : State) : State :=
  let e := { e with tick := s.tick }
  let s1 := s.pushEvent 0 e
  if e.tenancy ≤ 16 ∧ e.kind ∈ tenancyKinds ∧ (e.cls ≠ 1 ∨ s.on (Reg.TN_FPOLICY_CORREV e.tenancy)) then
    s1.pushEvent (e.tenancy + 1) (s.redact e.tenancy e)
  else s1

/-- A refused write is logged: the register's offset, the writing function, the value (R23, R577). -/
def State.logRefused (off func v : Nat) (s : State) : State :=
  s.logEvent { kind := 0x01, func := func
               body := leBytes 4 (off % 2 ^ 26) ++ [BitVec.ofNat 8 func] ++ zeros 3 ++ leBytes 8 v }

/-- A corrected-class event of a unit and source: at most one record per millisecond, the rest counted into the next
(R536). -/
def State.logCorrected (source : Nat) (e : EvRec) (s : State) : State :=
  let e := { e with cls := 1 }
  match s.coalesce.find? (fun c => c.unit == e.unit && c.source == source) with
  | none =>
    State.logEvent e { s with coalesce := s.coalesce ++ [{ unit := e.unit, source := source, last := s.tick, event := e }] }
  | some c =>
    let rest := s.coalesce.filter (fun c => !(c.unit == e.unit && c.source == source))
    if s.since c.last < 1000000 then
      { s with coalesce := rest ++ [{ c with more := c.more + 1, event := e }] }
    else
      State.logEvent { e with count := min (c.more + 1) 65535 }
        { s with coalesce := rest ++ [{ c with last := s.tick, more := 0, event := e }] }

/-- The corrected-class events whose millisecond is over and that were counted since become one record (R536). -/
def State.flushCoalesced (s : State) : State :=
  let due := s.coalesce.filter (fun c => c.more > 0 && s.since c.last ≥ 1000000)
  let s1 := { s with coalesce := s.coalesce.map (fun c =>
    if c.more > 0 && s.since c.last ≥ 1000000 then { c with last := s.tick, more := 0 } else c) }
  due.foldl (fun s c => s.logEvent { c.event with count := min c.more 65535 }) s1

/-! ### Management events and ALERT# (R513, R514) -/

/-- A management event joins the queue of 64; when the queue is full the oldest is dropped and the next event carries the
overflow count. ALERT# is asserted, but not in Deep Frost (R95), and the event goes to the receiver that is set. -/
def State.pldmEvent (kind : Nat) (data : List Byte) (s : State) : State :=
  let full := s.mgmt.events.length ≥ 64
  let e : MgmtEvent := { id := s.mgmt.nextId, kind := kind, data := data, overflow := s.mgmt.lost }
  let q := (if full then s.mgmt.events.drop 1 else s.mgmt.events) ++ [e]
  let s1 : State :=
    { s with
      mgmt := { s.mgmt with events := q, nextId := s.mgmt.nextId % 65534 + 1, lost := if full then 1 else 0 }
      pins := { s.pins with alert := s.frost == .awake } }
  let s2 := s1.set Reg.MC_STATUS_EVENTS q.length
  match s.mgmt.receiver with
  | none => s2
  | some port => s2.emit (.message port (leBytes 2 e.id ++ [BitVec.ofNat 8 kind] ++ data))

/-- An event of the unit or module class: a record and a management event (R513, R521). -/
def State.classEvent (e : EvRec) (s : State) : State :=
  (s.logEvent e).pldmEvent 5 [BitVec.ofNat 8 e.kind, BitVec.ofNat 8 e.cls, BitVec.ofNat 8 e.unit]

/-! ### Units (R315, R4) -/

/-- A unit is in service in the controller's table (R491, R508). -/
def State.unitHeld (s : State) (u : Nat) : Bool := s.get (Reg.MC_EPOCH_QSTATE u) == 4

/-- The current epoch of a unit in the controller's table (R491). -/
def State.epoch (s : State) (u : Nat) : Nat := s.get (Reg.MC_EPOCH_EPOCH u)

/-- A unit's own copy of its epoch, against which it checks requests (R492). -/
def State.ownEpoch (s : State) (u : Nat) : Nat := ((s.unitEpoch[u]?).getD 0).toNat

/-- The epoch that the requesters hold for a unit (R493). -/
def State.heldEpoch (s : State) (u : Nat) : Nat := ((s.reqEpoch[u]?).getD 0).toNat

/-- A fuse word. -/
def State.fuse (s : State) (i : Nat) : Nat := ((s.fuses[i]?).getD 0).toNat

/-- The map bit of a tile, of a stack, of a link port (R4). -/
def State.tileMapped (s : State) (g : Nat) : Bool := bitAt (s.get Reg.ID_TILEMAP_MAP) g
def State.stackMapped (s : State) (k : Nat) : Bool := bitAt (s.get Reg.ID_STACKMAP_MAP) k
def State.linkMapped (s : State) (j : Nat) : Bool := bitAt (s.get Reg.ID_LINKMAP_MAP) j

/-- A link port is neither fused off, nor retired, nor excluded or held at this start (R137, R140, R141). -/
def State.portPresent (s : State) (j : Nat) : Bool :=
  !bitAt (s.fuse 3 ||| s.get Reg.BRU_RETIRED_L_LINKS) j && !s.excluded.contains (0x80 + j)

/-- A Rime engine is excluded or held at this start. -/
def State.rimeOut (s : State) (d : Nat) : Bool := s.excluded.contains (0x10 + d) || s.unitHeld (0x10 + d)

/-- A command, LAUNCH or extent may use the unit: its map bit is 1 and it is not held (R12, R508). -/
def State.tileUsable (s : State) (g : Nat) : Bool := s.tileMapped g && !s.unitHeld (0x40 + g)

/-- The tenancy's state: NONE 0, STOPPED 1, STARTED 2, STOPPING 3, DESTROYING 4 (R438). -/
def State.tnState (s : State) (t : Nat) : Nat := s.get (Reg.TN_STATE_STATE t)

/-- The tenancy is started, for the RWL code and every rule that says so (R438). -/
def State.tnStarted (s : State) (t : Nat) : Bool := s.tnState t == 2 || s.tnState t == 3

/-- The tenancy is pinned (R111). -/
def State.tnPinned (s : State) (t : Nat) : Bool := s.on (Reg.PWR_TNCAP_PINNED t)

/-- The tenancy that holds a tile: 0 to 16, or 31 for none. -/
def State.tileTen (s : State) (g : Nat) : Nat :=
  ((List.range 17).find? (fun t => s.tnState t != 0 && bitAt (s.get (Reg.TN_TILES_MAP t)) g)).getD 31

/-- The tenancy that holds a Rime engine, or 31. -/
def State.rimeTen (s : State) (d : Nat) : Nat :=
  ((List.range 17).find? (fun t => s.tnState t != 0 && bitAt (s.get (Reg.TN_CFG_RIME t)) d)).getD 31

/-- Status codes (R427). -/
def stOK : Nat := 0x00
def stOkCorrected : Nat := 0x01
def stBadDescriptor : Nat := 0x10
def stBadOpcode : Nat := 0x11
def stBounds : Nat := 0x12
def stNotOwner : Nat := 0x13
def stDoubleFree : Nat := 0x14
def stStaleHandle : Nat := 0x15
def stNoResource : Nat := 0x16
def stAbortedHost : Nat := 0x20
def stAbortedEpoch : Nat := 0x21
def stAbortedSag : Nat := 0x22
def stWaitTimeout : Nat := 0x30
def stUnderflow : Nat := 0x31
def stDrift : Nat := 0x32
def stLinkDown : Nat := 0x40
def stQuarantined : Nat := 0x41
def stFenced : Nat := 0x42
def stSdcChecksum : Nat := 0x50
def stSdcTwin : Nat := 0x51
def stUncorrected : Nat := 0x52
def stNotErased : Nat := 0x60
def stImageRejected : Nat := 0x61
def stRollback : Nat := 0x62
def stRimeDistance : Nat := 0x70
def stInternal : Nat := 0xF0

end Sys2Proof.Machine
end

