-- ==== Sys2Proof/Machine/DomOps.lean ====
section
/-! DEFINITION. The power domains: the states and exit times of each kind (R97, R100), their units and owners, the slew governor's
quanta and shares (R52, R53), what holds a domain in L0 (R106). -/

namespace Sys2Proof.Machine

/-- Domain `n`. -/
def State.dom (s : State) (n : Nat) : Dom := s.doms[n]?.getD {}

/-- Domain `n` changed by `f`. -/
def State.modDom (n : Nat) (f : Dom → Dom) (s : State) : State :=
  { s with doms := s.doms.setIfInBounds n (f (s.dom n)) }

/-- Kinds of domain (R96): 0 tile, 1 compute-die fabric, 2 Rime, 3 memory, 4 link bank, 5 host-port, 6 base-fabric. -/
def domKind (n : Nat) : Nat :=
  if n < 64 then 0 else if n < 68 then 1 else if n < 72 then 2 else if n < 80 then 3
  else if n < 84 then 4 else if n = 84 then 5 else 6

/-- The exit time in ns of a sleep state of a kind of domain, or none where the kind does not have the state (R97, R100).
A tile's exit from L4 includes the restore of its context record (R99); one without a record takes 20 µs. -/
def exitTime (kind state : Nat) : Option Nat :=
  match kind, state with
  | 0, 1 => some 20 | 0, 2 => some 200 | 0, 3 => some 2000 | 0, 4 => some 78600
  | 1, 1 => some 20 | 1, 4 => some 20000
  | 2, 1 => some 20 | 2, 3 => some 2000 | 2, 4 => some 20000
  | 3, 1 => some 20 | 3, 3 => some 2000 | 3, 4 => some 30000000
  | 4, 1 => some 20 | 4, 3 => some 40000 | 4, 4 => some 2000000
  | 5, 1 => some 20
  | 6, 1 => some 20 | 6, 2 => some 200
  | _, _ => none

/-- The kind of domain can be in the state. -/
def domSupports (n state : Nat) : Bool := state == 0 || (exitTime (domKind n) state).isSome

/-- The state field of a domain: 0 to 4, 5 Off, 6 in transition. -/
def State.domState (s : State) (n : Nat) : Nat := s.get (Reg.PWR_DOM_STATE_STATE n)

/-- The current quantum in mA of a wake from L3 or L4 (R52). A tile's wake from L1 to Run-idle has one of its own. An entry lowers the draw
by as much. -/
def wakeQuantum (kind state : Nat) : Nat :=
  if state ≥ 3 then
    match kind with
    | 0 => 50 | 1 => 400 | 2 => 200 | 3 => 300 | 4 => 500 | 5 => 200 | _ => 600
  else if kind = 0 ∧ state = 1 then 45 else 0

/-- The tenancy that a domain belongs to: that of its tile or Rime engine; shared domains have none (R123). -/
def State.domOwner (s : State) (n : Nat) : Nat :=
  if n < 64 then s.tileTen n else if 68 ≤ n ∧ n < 72 then s.rimeTen (n - 68) else 31

/-- The share of the slew limit that a domain draws on: its pinned tenancy's, or the common share 17 (R53, R103). -/
def State.domShare (s : State) (n : Nat) : Nat :=
  if s.tnPinned (s.domOwner n) && s.domOwner n ≤ 16 then s.domOwner n else 17

/-- The rate of a share, in 0.01 A/µs (R53): a scheduled tenancy's is its own, the common share is what the limit in force leaves. -/
def State.shareRate (s : State) (share : Nat) : Nat :=
  if share ≤ 16 then (s.ten share).slew else s.supply.slewNow - s.get Reg.PWR_SLEW_SCHED

/-- How long the ramp of a quantum lasts at a rate, in ns (R52). -/
def rampNs (q rate : Nat) : Nat := (100 * q + rate - 1) / rate

/-- The tick at which the ramps of a share are over: now, where none is under way. -/
def State.shareEnd (s : State) (share : Nat) : Word :=
  match s.supply.busy.find? (fun e => e.1 == share) with
  | some (_, e) => if (e - s.tick).toInt ≤ 0 then s.tick else e
  | none => s.tick

/-- A quantum is granted from a share at once, its ramp after those under way (R52, R103). -/
def State.takeShare (share q : Nat) (s : State) : State :=
  let e := s.shareEnd share + BitVec.ofNat 64 (rampNs q (s.shareRate share))
  { s with supply := { s.supply with busy := (share, e) :: s.supply.busy.filter (fun e => e.1 != share) } }

/-- A quantum is asked of a share and waits for its grant (R52). -/
def State.askGrant (share : Nat) (x : Quantum) (q : Nat) (s : State) : State :=
  { s with supply := { s.supply with grants := s.supply.grants ++ [(share, x, q)] } }

/-- A domain's draw falls by a quantum: its ramp takes its turn in the domain's share (R51, R52). -/
def State.fall (n q : Nat) (s : State) : State := if q = 0 then s else s.askGrant (s.domShare n) (.fall n) q

/-- The full-rate quantum of a tile or a Rime engine, in mA (R52). -/
def fullQuantum (n : Nat) : Nat := if n < 64 then 300 else 500

/-- A tile or Rime engine is back at Run-idle. -/
def State.rateDown (n : Nat) (s : State) : State :=
  if (s.dom n).rate.isNone then s else (s.fall n (fullQuantum n)).modDom n (fun d => { d with rate := none })

/-- Whether a tile or Rime engine is at full rate, and the state in which it is or waits for its grant (R52, R54). Work of a pinned tenancy
never waits: its load marks keep its rises inside its share (R55). -/
def State.rateUp (n : Nat) (s : State) : Bool × State :=
  match (s.dom n).rate with
  | some e => (decide ((e - s.tick).toInt ≤ 0), s)
  | none =>
    if s.domShare n ≤ 16 then (true, s.modDom n (fun d => { d with rate := some s.tick }))
    else if s.supply.grants.any (fun g => g.2.1 == .full n) then (false, s)
    else (false, s.askGrant 17 (.full n) (fullQuantum n))

/-- A shared domain carries traffic now (R106). -/
def State.touchDom (n : Nat) (s : State) : State := s.modDom n (fun d => { d with idleAt := s.tick })

/-- The units of a domain: the epoch unit numbers in it (R32, R315). -/
def domUnits (n : Nat) : List Nat :=
  if n < 64 then [0x40 + n] else if n < 68 then [0x04 + (n - 64)] else if n < 72 then [0x10 + (n - 68)]
  else if n < 80 then [0x08 + (n - 72)]
  else if n < 84 then (0x20 + (n - 80)) :: (List.range 16).map (fun i => 0x80 + 16 * (n - 80) + i)
  else if n = 84 then [0x01] else [0x18, 0x19]

/-- The domain of an epoch unit (R32). -/
def unitDom (u : Nat) : Nat :=
  if u = 0x01 then 84 else if u < 0x08 then 60 + u else if u < 0x10 then 64 + u else if u < 0x14 then 52 + u
  else if u < 0x1A then 85 else if u < 0x24 then 48 + u else if u < 0x80 then u - 0x40 else 80 + (u - 0x80) / 16

/-- A domain takes a state, and a memory domain's status follows it (R350). -/
def State.setDomState (n st : Nat) (s : State) : State :=
  let s1 := s.set (Reg.PWR_DOM_STATE_STATE n) st
  if 72 ≤ n ∧ n < 80 then s1.set (Reg.MEM_STATUS_STATE (n - 72)) st else s1

/-- A domain that carries a slot of a started scheduled tenancy stays in L0 (R106): the Jetstream slots of its routers or
of the base switch, its memory slots, its links' slots. -/
def State.domScheduled (s : State) (n : Nat) : Bool :=
  let held := fun (e : BitVec 32) => bitAt e.toNat 0
  if 64 ≤ n ∧ n < 68 then
    s.slotsJ.any (fun e => held e.2 && e.1 / 131072 == n - 64)
  else if 72 ≤ n ∧ n < 80 then
    s.slotsM.any (fun e => held e.2 && bits e.2.toNat 11 2 == 0 && e.1 / 12288 == n - 72)
  else if 80 ≤ n ∧ n < 84 then s.slotsL.any (fun e => held e.2 && e.1 / 2400 == n - 80)
  else if n = 85 then s.slotsB.any (fun e => held e.2)
  else false

/-- An automatic rule may take the domain to a state: MAXSTATE allows it, nothing holds it in L0 (R106, R123). -/
def State.autoMay (s : State) (n st : Nat) : Bool :=
  st ≤ s.get (Reg.PWR_DOM_CTL_MAXSTATE n) && !s.on (Reg.PWR_DOM_CTL_HOLD n) && !s.domScheduled n

/-- The exit from Deep Frost begins (R122). -/
def State.wakeFrost (s : State) : State :=
  match s.frost with
  | .asleep => { s with frost := .exiting s.tick }
  | _ => s

end Sys2Proof.Machine
end

