-- ==== Sys2Proof/Machine/RailOps.lean ====
section
/-! DEFINITION. TCLK steps and the VT rails (R40, R110 to R112): the voltage of a step, the voltage a die needs, a change of step. -/

namespace Sys2Proof.Machine

/-- The VT rail voltage in mV of a TCLK step (R112). -/
def stepMv (k : Nat) : Nat :=
  match k with
  | 0 => 850
  | 1 => 750
  | 2 => 700
  | _ => 650

/-- The nominal full-rate power of a tile at a step, in mW (R112). -/
def stepMw (k : Nat) : Nat :=
  match k with
  | 0 => 14000
  | 1 => 8720
  | 2 => 6330
  | _ => 4090

/-- The step of a tile or Rime domain. -/
def State.domStep (s : State) (n : Nat) : Nat := s.get (Reg.PWR_DOM_STATE_STEP n)

/-- The domains that a die's VT rail feeds: its 16 tiles and its Rime engine (R39). -/
def dieDomains (d : Nat) : List Nat := (List.range 16).map (fun i => 16 * d + i) ++ [68 + d]

/-- The die of a tile or Rime domain. -/
def domDie (n : Nat) : Nat := if n < 64 then n / 16 else n - 68

/-- The voltage that a domain asks of its rail (R40): its step while in L0, a step it waits for, a pinned tenancy's declared
step whatever the ladder state of its tile. -/
def State.domMv (s : State) (n : Nat) : Nat :=
  let run := if s.domState n = 0 then stepMv (s.domStep n) else 0
  let want := match (s.dom n).want with
    | some k => stepMv k
    | none => 0
  let t := s.domOwner n
  let pin := if n < 64 ∧ t ≤ 16 ∧ s.tnPinned t then stepMv (s.ten t).step else 0
  max run (max want pin)

/-- The voltage of a die's rail: the highest that a domain asks for, at least that of /8. -/
def State.dieMv (s : State) (d : Nat) : Nat := (dieDomains d).foldl (fun m n => max m (s.domMv n)) (stepMv 3)

/-- The rails in the order of R62 (R39): nominal voltage in mV, continuous current limit in A. VAON also gives 1.8 V for I/O, at up to 1 A.
VT0 to VT3 are rails 8 to 11: their nominal voltage is that of /4, and they bear 380 A for 10 ms. -/
def railTable : List (Nat × Nat) :=
  [(750, 6), (750, 160), (1200, 40), (1800, 12), (1100, 90), (400, 60), (750, 120), (450, 10), (850, 300), (850, 300), (850, 300), (850, 300),
   (3300, 8)]

/-- The voltage of a rail when it last changed. -/
def State.railAtRest (s : State) (i : Nat) : Nat := (s.supply.rail[i]?).getD 0

/-- A rail takes a voltage. -/
def State.setRail (i mv : Nat) (s : State) : State := { s with supply := { s.supply with rail := s.supply.rail.setIfInBounds i mv } }

/-- Rails other than the VT rails rise to their nominal voltages (R62). -/
def State.raiseRails (is : List Nat) (s : State) : State := is.foldl (fun s i => s.setRail i ((railTable.getD i (0, 0)).1)) s

/-- The voltage that a die's VT rail moves to, and its present one: it moves by 10 mV in each µs (R40). -/
def State.railGoal (s : State) (d : Nat) : Nat := (s.supply.railTarget[d]?).getD 0
def State.railMv (s : State) (d : Nat) : Nat :=
  let v := s.railAtRest (8 + d)
  let moved := s.since ((s.supply.railAt[d]?).getD 0) / 100
  if s.railGoal d ≥ v then min (s.railGoal d) (v + moved) else max (s.railGoal d) (v - moved)

/-- A die's rail, where it is on, moves to the voltage that its domains ask for. -/
def State.retarget (d : Nat) (s : State) : State :=
  let v := s.dieMv d
  if s.railGoal d = 0 ∨ v = s.railGoal d then s
  else { s with supply := { s.supply with rail := s.supply.rail.setIfInBounds (8 + d) (s.railMv d)
                                          railTarget := s.supply.railTarget.setIfInBounds d v
                                          railAt := s.supply.railAt.setIfInBounds d s.tick } }

/-- Every die's rail follows its domains (R40). -/
def State.retargetAll (s : State) : State := (List.range 4).foldl (fun s d => s.retarget d) s

/-- The quantum of a change by `k` steps, in mA (R52). The spec rates the step of a tile; a Rime domain's is rated alike (DESIGN CHOICE). -/
def stepQuantum (k : Nat) : Nat := 60 * k

/-- A tile or Rime domain changes its step: down at once, its fall in turn, up once the rail has the step's voltage (R40, R52, R110). -/
def State.stepDomain (n k : Nat) (s : State) : State :=
  let now := ((s.set (Reg.PWR_DOM_STATE_STEP n) k).modDom n (fun d => { d with want := none })).fall n (stepQuantum (k - s.domStep n))
  if k ≥ s.domStep n ∨ stepMv k ≤ s.railMv (domDie n) then now.retarget (domDie n)
  else (s.modDom n (fun d => { d with want := some k })).retarget (domDie n)

end Sys2Proof.Machine
end

