-- ==== Sys2Proof/Machine/Budget.lean ====
section
/-! DEFINITION. Power budgets (R112 to R120): what a tenancy is charged, the allowance of its tiles, lending, the choice of TCLK steps, the
caps of a dip (R43, R44) and what throttles (R83). -/

namespace Sys2Proof.Machine

/-- The nominal power of a tile at a step and of a Rime domain in L0, and the state power of a tile in a sleep state, in µW (R97, R112). -/
def stepUw (k : Nat) : Nat := 1000 * stepMw k
def rimeUw : Nat := 23000000
def sleepUw (st : Nat) : Nat := match st with | 2 => 20000 | 3 => 2000 | 4 => 200 | _ => 0

/-- A tile that counts as working: in L0 or L1, or on its way into or out of a sleep state (R114, R116, R120). -/
def State.tileWorks (s : State) (g : Nat) : Bool := s.domState g ≤ 1 || s.domState g == 6

/-- Tiles of a tenancy, those that work, the sleep charge and the Rime charge in µW (R114, R116). -/
def State.tenTiles (s : State) (t : Nat) : List Nat := bitList 64 (s.get (Reg.TN_TILES_MAP t))
def State.workTiles (s : State) (t : Nat) : List Nat := (s.tenTiles t).filter s.tileWorks
def State.sleepCharge (s : State) (t : Nat) : Nat := (s.tenTiles t).foldl (fun n g => n + sleepUw (s.domState g)) 0
def State.rimeCharge (s : State) (t : Nat) : Nat :=
  (bitList 4 (s.get (Reg.TN_CFG_RIME t))).foldl (fun n d => n + if s.domState (68 + d) = 0 then rimeUw else 0) 0

/-- The charge of a tenancy in µW (R114). -/
def State.tenCharge (s : State) (t : Nat) : Nat :=
  (s.workTiles t).foldl (fun n g => n + stepUw (s.domStep g)) (s.sleepCharge t + s.rimeCharge t)

/-- The cap of a tenancy in µW, and what is left of it for its working tiles. -/
def State.capUw (s : State) (t : Nat) : Nat := 1000000 * s.get (Reg.PWR_TNCAP_CAP t)
def State.leftUw (s : State) (t : Nat) : Nat := s.capUw t - s.sleepCharge t - s.rimeCharge t

/-- The fastest step no faster than `max` whose nominal power fits, and whether even /8 does not fit (R116). -/
def fastStep (uw max : Nat) : Nat × Bool :=
  match [0, 1, 2, 3].find? (fun k => max ≤ k && stepUw k ≤ uw) with
  | some k => (k, false)
  | none => (3, true)

/-- The allowance of a working tile in mW (R116). -/
def State.allowance (s : State) (t borrowed : Nat) : Nat :=
  let n := (s.workTiles t).length
  if n = 0 then 0 else (s.leftUw t + borrowed) / 1000 / n

/-- The surplus of a tenancy (R119): what its cap leaves above its working tiles at their fastest allowed step, its sleep and its Rime
charges. -/
def State.surplus (s : State) (t : Nat) : Nat :=
  let k := if s.tnPinned t then (s.ten t).step else s.get (Reg.PWR_TNCAP_MAXSTEP t)
  s.leftUw t - (s.workTiles t).length * stepUw k

/-- The sustained cap of the input power in mW (R41, R43, R44). -/
def State.sustainedMw (s : State) : Nat :=
  let cap := 1000 * min s.supply.capNow s.supply.limit
  if s.get Reg.PWR_IN_STATUS_BAND = 2 then min cap (275 * s.get Reg.PWR_IN_SAMPLE_VIN) else cap

/-- The 1,400 W burst is available (R41, R43): outside the Dip band, allowed, with a whole bank, and not used in the last 100 ms beyond its
10 ms. -/
def State.burstOk (s : State) : Bool :=
  (s.get Reg.PWR_IN_STATUS_BAND == 1 || s.get Reg.PWR_IN_STATUS_BAND == 3) && s.on Reg.PWR_BUDGET_BURST_EN && !s.on Reg.PWR_BANK_LOW &&
    (match s.supply.burstAt with | some a => s.since a < 10000000 || 100000000 ≤ s.since a | none => true)

/-- The input power is above what it may be: in the Dip band the last sample above the cap; else the last window of 1 ms above the sustained
cap, unless the burst takes it, up to 1,400 W (R41, R44). -/
def State.overPower (s : State) : Bool :=
  if s.get Reg.PWR_IN_STATUS_BAND = 2 then 100 * s.get Reg.PWR_IN_SAMPLE_PIN > s.sustainedMw
  else 100 * s.supply.pinAvg > if s.burstOk then 1400000 else s.sustainedMw

/-- Something throttles: the cap of the input power exceeded, a temperature, the reserve exceeded (R41, R44, R83, R114). -/
def State.throttled (s : State) : Bool := s.overPower || s.supply.heat != 0 || s.on Reg.PWR_BUDGET_STATUS_RESERVE_OVER

/-- Started tenancies. -/
def State.startedTens (s : State) : List Nat := (List.range 17).filter s.tnStarted

/-- What of its own surplus a pinned tenancy spends on its own excess (R118). -/
def State.ownCover (s : State) (t : Nat) : Nat := if s.tnPinned t then min (s.surplus t) (s.ten t).excess else 0

/-- What each started tenancy borrows in µW (R119): the pool goes to pinned tenancies up to the excess that they do not cover themselves, none
of it while something throttles, and what is left in equal parts to the tiles of unpinned ones that work below their fastest allowed step. -/
def State.loans (s : State) : List (Nat × Nat) :=
  let ts := s.startedTens
  if !s.on Reg.PWR_BUDGET_XLEND || s.on Reg.TN_ISO_CLAIMED then []
  else
    let pool := ts.foldl (fun n t => n + (s.surplus t - s.ownCover t)) 0
    let (left, pinned) := (ts.filter s.tnPinned).foldl (fun (p : Nat × List (Nat × Nat)) t =>
      let give := min p.1 ((s.ten t).excess - s.ownCover t)
      (p.1 - give, if s.throttled then p.2 else p.2 ++ [(t, give)])) (pool, [])
    let low := ts.filter (fun t => !s.tnPinned t && (fastStep (1000 * s.allowance t 0) (s.get (Reg.PWR_TNCAP_MAXSTEP t))).1 > s.get (Reg.PWR_TNCAP_MAXSTEP t))
    let tiles := low.foldl (fun n t => n + (s.workTiles t).length) 0
    pinned ++ (if tiles = 0 then [] else low.map (fun t => (t, left / tiles * (s.workTiles t).length)))

/-- A tile is to run at a step: down at once, but not twice within 20 µs while something throttles (R126); up through a grant of the
governor and once its rail allows it (R52, R110). -/
def State.applyStep (n k : Nat) (s : State) : State :=
  let now := s.domStep n
  let fresh := match (s.dom n).stepAt with | some a => s.throttled && s.since a < 20000 | none => false
  if k = now then { s with supply := { s.supply with grants := s.supply.grants.filter (fun g => match g.2.1 with | .step m _ => m != n | _ => true) } }
  else if k > now then
    if fresh then s else (s.modDom n (fun d => { d with stepAt := some s.tick })).stepDomain n k
  else if s.domShare n ≤ 16 then s.stepDomain n k
  else if s.supply.grants.any (fun g => g.2.1 == .step n k) then s
  else
    { s with supply := { s.supply with
        grants := s.supply.grants.filter (fun g => match g.2.1 with | .step m _ => m != n | _ => true) ++ [(17, .step n k, stepQuantum (now - k))] } }

/-- A warning of the supply joins the provider's ring (R38, R45, R117, R540). -/
def State.supplyWarning (cause rail : Nat) (t : Nat) (s : State) : State :=
  s.logEvent { kind := 0x09, tenancy := t
               body := [BitVec.ofNat 8 cause, BitVec.ofNat 8 (s.get Reg.PWR_IN_STATUS_BAND)] ++ leBytes 2 (s.get Reg.PWR_IN_SAMPLE_VIN) ++ [BitVec.ofNat 8 rail] }

/-- A tenancy's loan, allowance and steps (R116 to R118). -/
def State.budgetTen (loan : Nat) (t : Nat) (s : State) : State :=
  let tiles := s.tenTiles t
  let pinned := s.tnPinned t
  let allow := s.allowance t loan
  let (k, beyond) := fastStep (1000 * allow) (s.get (Reg.PWR_TNCAP_MAXSTEP t))
  let beyond := if pinned then (s.ten t).excess > s.ownCover t + loan else beyond && !(s.workTiles t).isEmpty
  let s1 := if pinned && beyond && !s.on (Reg.PWR_TNCAP_OVERCAP t) then s.supplyWarning 0 0xFF t else s
  let s2 := ((s1.modTen t (fun x => { x with borrowed := loan })).set (Reg.PWR_TNCAP_BORROWED t) (min (loan / 1000000) 4095)).set
    (Reg.PWR_TNCAP_OVERCAP t) (b2n beyond)
  let borrows := allow * tiles.length > 1000 * s.get (Reg.PWR_TNCAP_CAP t)
  tiles.foldl (fun s g =>
    let works := s.tileWorks g
    let s1 := ((s.set (Reg.PWR_DOM_STATE_ALLOW g) (if works then min (allow / 100) 65535 else 0)).set
      (Reg.PWR_DOM_STATE_LENDING g) (b2n (2 ≤ s.domState g && s.domState g ≤ 4))).set (Reg.PWR_DOM_STATE_BORROWING g) (b2n (works && borrows))
    if pinned || !works then s1
    else (s1.modDom g (fun d => { d with held := k })).applyStep g (min 3 (k + (s1.dom g).forced))) s2

/-- A Rime domain takes the step of its owner; one with no owner has none (R110). -/
def State.rimeStep (d : Nat) (s : State) : State :=
  let t := s.rimeTen d
  if t > 16 then (s.set (Reg.PWR_DOM_STATE_STEP (68 + d)) 0).modDom (68 + d) (fun x => { x with want := none })
  else if !s.tnStarted t then s
  else if s.tnPinned t then s.stepDomain (68 + d) (s.ten t).step
  else
    let run := (s.tenTiles t).filter (fun g => s.domState g == 0)
    let k := if run.isEmpty then s.get (Reg.PWR_TNCAP_MAXSTEP t) else run.foldl (fun m g => min m (s.domStep g)) 3
    s.applyStep (68 + d) k

/-- The power manager recomputes loans, allowances, steps and what the rails are to be (R40, R116, R119, R120). -/
def State.rebudget (s : State) : State :=
  let loans := s.loans
  let s1 := s.startedTens.foldl (fun s t => s.budgetTen (((loans.find? (fun e => e.1 == t)).map (·.2)).getD 0) t) s
  let s2 := s1.set Reg.PWR_BUDGET_STATUS_LENT (min (loans.foldl (fun n e => n + e.2) 0 / 1000000) 65535)
  ((List.range 4).foldl (fun s d => s.rimeStep d) s2).retargetAll

end Sys2Proof.Machine
end

