-- ==== Sys2Proof/Machine/LadderOps.lean ====
section
/-! DEFINITION. The weather ladder's shared operations: entry to a state, a wake (R109, R126), opening a switch (R104). Each entry and exit
recomputes the allowances (R116, R120). -/

namespace Sys2Proof.Machine

/-- How far below Run-idle a domain draws, in mA (R52). -/
def State.drawBelow (s : State) (n : Nat) : Nat :=
  let st := s.domState n
  if 1 ≤ st ∧ st ≤ 4 then wakeQuantum (domKind n) st else 0

/-- A domain enters a sleep state at once; its draw falls in turn (R51). -/
def State.enterSleep (n st : Nat) (s : State) : State :=
  let s1 := (s.rateDown n).fall n (wakeQuantum (domKind n) st - s.drawBelow n)
  ((s1.setDomState n st).set (Reg.PWR_DOM_STATE_WAITLULL n) 0).modDom n
    (fun d => { d with exiting := none, granted := none, entering := none, wake := false, lulled := false }) |>.rebudget

/-- A tile loses everything but what the controller counts (R97). -/
def Tile.lost (saved : Bool) (t : Tile) : Tile :=
  { sdcCount := t.sdcCount, uncorrAddrs := t.uncorrAddrs, corrCount := t.corrCount, saved := saved }

/-- A domain enters Off: its switch opens and nothing is kept (R97, R104). Its epoch reads 0 while it is not powered (MC_EPOCH). -/
def State.openSwitch (n : Nat) (s : State) : State :=
  let s0 := (s.rateDown n).fall n (wakeQuantum (domKind n) 4 - s.drawBelow n)
  let s1 := (s0.setDomState n 5).modDom n (fun _ => {})
  let s2 := (domUnits n).foldl (fun s u => s.set (Reg.MC_EPOCH_EPOCH u) 0) s1
  (if n < 64 then s2.modTile n (Tile.lost false) else s2).retargetAll

/-- A wake of a domain begins its exit (R103, R109, R126). From a sleep state the exit time is that of the state it leaves;
a wake that abandons an entry takes the exit time of the state being entered; a wake during a save to L4 waits for the save.
An exit that needs a current quantum waits for its grant, but one of a pinned tenancy draws on its reserved share at once. A tile
whose wait was held in L1 by a dip or a throttle runs on without delay (R44). -/
def State.wakeDomain (n : Nat) (s : State) : State :=
  let d := s.dom n
  if d.lulled then
    ((s.setDomState n 0).modDom n (fun d => { d with lulled := false })).takeShare (s.domShare n) (wakeQuantum 0 1) |>.rebudget
  else
  let begin' := fun (from' : Nat) (s : State) =>
    let t := if n < 64 ∧ from' = 4 ∧ !(s.tile n).saved then 20000 else (exitTime (domKind n) from').getD 0
    let q := wakeQuantum (domKind n) from'
    let pinned := s.domShare n ≤ 16
    let s1 := (s.setDomState n 6).modDom n (fun d =>
      { d with exiting := some (s.tick, t), granted := if q = 0 ∨ pinned then some s.tick else none, entering := none, wake := false })
    if q = 0 then s1.rebudget
    else if pinned then (s1.takeShare (s.domShare n) q).rebudget
    else (s1.askGrant 17 (.wake n) q).rebudget
  match s.domState n with
  | 1 => begin' 1 s
  | 2 => begin' 2 s
  | 3 => begin' 3 s
  | 4 => begin' 4 s
  | 6 =>
    match d.entering with
    | some (4, _) => s.modDom n (fun d => { d with wake := true })
    | some (st, _) => begin' st s
    | none => s
  | _ => s

/-- Work meets the domains that it passes through (R32, R106): in L0 they carry it; a sleeping one is woken first, and the work waits where it
stands for the exit; what meets one that is Off is lost. -/
def State.through (ds : List Nat) (carried lost : State → State) (s : State) : State :=
  if ds.any (fun n => s.domState n == 5) then lost s
  else if ds.all (fun n => s.domState n == 0) then carried (ds.foldl (fun s n => s.touchDom n) s)
  else ds.foldl (fun s n => if s.domState n = 0 then s else s.wakeDomain n) s

/-- The domains that a packet passes through: the base fabric's root, and the die fabric of a unit on a compute die at either end (R32, R329). -/
def Bz.doms (p : Bz) : List Nat :=
  let fabric := fun (u : Nat) =>
    if 0x40 ≤ u ∧ u < 0x80 then [64 + (u - 0x40) / 16] else if 0x10 ≤ u ∧ u < 0x14 then [64 + (u - 0x10)]
    else if 0x04 ≤ u ∧ u < 0x08 then [60 + u] else []
  (85 :: fabric p.dest ++ fabric p.src).eraseDups

end Sys2Proof.Machine
end

