-- ==== Sys2Proof/Machine/DrizzleOps.lean ====
section
/-! DEFINITION. Drizzle (R55, R56): the level at which a panel runs it, its ramps inside the tenancy's share, the count of the TCLK in which some
panel of a tile ran it (R226), and the fall of a tile's draw when its panels rest (R51, R52). -/

namespace Sys2Proof.Machine

/-- The level of a panel's drizzle at a tick, in sixteenths of its rows: between two levels it moves in steps of one sixteenth (R55). -/
def Panel.levelAt (tick : Word) (p : Panel) : Nat :=
  match p.ramp with
  | none => p.drizzle
  | some (goal, start, ns) =>
    let t := (tick - start).toInt
    if t ≤ 0 then p.drizzle
    else if ns ≤ t.toNat then goal
    else if p.drizzle ≤ goal then p.drizzle + (goal - p.drizzle) * t.toNat / ns
    else p.drizzle - (p.drizzle - goal) * t.toNat / ns

/-- The tick at which a panel's ramp is over, where one is under way or was. -/
def Panel.rampEnd (p : Panel) : Option Word := p.ramp.map (fun r => r.2.1 + BitVec.ofNat 64 r.2.2)

/-- The current of a panel's drizzle at a level, in mA: the four panels of a tile draw its full-rate quantum at sixteen sixteenths (R52). -/
def drizzleQuantum (level : Nat) : Nat := 300 * level / 64

/-- TCLK in a stretch of ns at a step: RCLK is 6 GHz, and a step divides it by 4, 5, 6 or 8 (R110, R575). -/
def tclkIn (k ns : Nat) : Nat := 6 * ns / ([4, 5, 6, 8].getD k 8)

/-- The tick up to which the drizzle of a tile whose panels all rest is counted: the end of its last ramp, or now. -/
def State.drizzleEnd (s : State) (g : Nat) : Word :=
  let es := (s.tile g).panels.toList.filterMap Panel.rampEnd
  match es with
  | [] => s.tick
  | e :: rest =>
    let last := rest.foldl (fun (m : Word) x => if (x - m).toInt > 0 then x else m) e
    if (last - s.tick).toInt > 0 then s.tick else last

/-- TCLK of drizzle that are not counted in TILE_MX_WORK yet (R226). -/
def State.drizzleOpen (s : State) (g : Nat) : Nat :=
  match (s.tile g).drizzleAt with
  | none => 0
  | some a =>
    let e := if (s.tile g).panels.toList.any (fun p => p.levelAt s.tick != 0) then s.tick else s.drizzleEnd g
    if (e - a).toInt ≤ 0 then 0 else tclkIn (s.domStep g) (e - a).toNat

/-- The count of a tile's drizzle begins with its first panel and ends with its last (R226). -/
def State.syncDrizzle (g : Nat) (s : State) : State :=
  let runs := (s.tile g).panels.toList.any (fun p => p.levelAt s.tick != 0)
  match (s.tile g).drizzleAt with
  | none => if runs then s.modTile g (fun t => { t with drizzleAt := some s.tick }) else s
  | some _ =>
    if runs then s
    else (s.bump (Reg.TILE_MX_WORK_DRIZZLE g) (s.drizzleOpen g)).modTile g (fun t => { t with drizzleAt := none })

/-- A panel's drizzle moves to a level over `ns`, from tick `start` on. -/
def State.rampPanel (g p level : Nat) (start : Word) (ns : Nat) (s : State) : State :=
  (s.modTile g (fun t => t.modPanel p (fun x =>
    { x with drizzle := x.levelAt s.tick, drizzleLeft := 0, ramp := some (level, start, ns) }))).syncDrizzle g

/-- Some panel of the tile runs drizzle, or a pass waits for it. -/
def State.panelsBusy (s : State) (g : Nat) : Bool :=
  (s.tile g).panels.toList.any (fun p => p.levelAt s.tick != 0 || !p.queue.isEmpty)

/-- The tile is back at Run-idle where its panels rest (R52). -/
def State.settleRate (g : Nat) (s : State) : State := if s.panelsBusy g then s else s.rateDown g

/-- A panel's drizzle ramps down to nothing over `ns`; with the last panel the tile is back at Run-idle. -/
def State.drizzleDown (g p ns : Nat) (s : State) : State :=
  let s1 := s.rampPanel g p 0 s.tick ns
  if (s1.tile g).panels.toList.all (fun p => p.queue.isEmpty && (p.drizzle == 0 || p.ramp.any (fun r => r.1 == 0))) then
    s1.modDom g (fun d => { d with rate := none })
  else s1

end Sys2Proof.Machine
end

