-- ==== Sys2Proof/Machine/DmaDesc.lean ====
section
/-! DEFINITION. The DMA descriptor (R342): its fields, the rows and pieces that COPY, SKEW and GATHER make of it (R343, R345,
R346), its extents, and the memory interleave of HBM (R332 to R334). -/

namespace Sys2Proof.Machine

/-- A descriptor's fields (R342). -/
def dOp (d : List Byte) : Nat := leAt d 0 1
def dSrcSpace (d : List Byte) : Nat := bits (leAt d 1 1) 0 4
def dDstSpace (d : List Byte) : Nat := bits (leAt d 1 1) 4 4
def dPeerTile (d : List Byte) : Nat := leAt d 2 1
def dPeerMod (d : List Byte) : Nat := leAt d 3 1
def dSrc (d : List Byte) : Nat := leAt d 4 6
def dDst (d : List Byte) : Nat := leAt d 10 6
def dN0 (d : List Byte) : Nat := leAt d 16 2
/-- The count of dimension `i`, 1 to 4. -/
def dN (d : List Byte) (i : Nat) : Nat := bits (leAt d 18 6) (12 * (i - 1)) 12 + 1
/-- The source and destination strides of dimension `i`, 1 to 4. -/
def dS (d : List Byte) (i : Nat) : Int := signed 32 (leAt d (24 + 4 * (i - 1)) 4)
def dD (d : List Byte) (i : Nat) : Int := signed 32 (leAt d (40 + 4 * (i - 1)) 4)
def dToken (d : List Byte) : Nat := leAt d 56 4
def dTcount (d : List Byte) : Nat := leAt d 60 3
def dConv (d : List Byte) : Nat := bits (leAt d 63 1) 0 3
def dEsizeCode (d : List Byte) : Nat := bits (leAt d 63 1) 4 2
def dEsize (d : List Byte) : Nat := 2 ^ dEsizeCode d
def dSched (d : List Byte) : Bool := bitAt (leAt d 63 1) 6
/-- The fields that GATHER lays over bytes 24 to 55. -/
def gIH (d : List Byte) : Nat := leAt d 24 2
def gIW (d : List Byte) : Nat := leAt d 26 2
def gOW (d : List Byte) : Nat := leAt d 28 2
def gOY0 (d : List Byte) : Nat := leAt d 30 2
def gOX0 (d : List Byte) : Nat := leAt d 32 2
def gSY (d : List Byte) : Nat := leAt d 34 1
def gSX (d : List Byte) : Nat := leAt d 35 1
def gDY (d : List Byte) : Nat := leAt d 36 1
def gDX (d : List Byte) : Nat := leAt d 37 1
def gPadT (d : List Byte) : Nat := leAt d 38 1
def gPadL (d : List Byte) : Nat := leAt d 39 1
def gPstride (d : List Byte) : Nat := leAt d 40 4
def gDrow (d : List Byte) : Nat := leAt d 44 4

/-- The source and destination element sizes of a conversion (R344), 1 and 1 for none. -/
def convSizes (c : Nat) : Nat × Nat :=
  match c with
  | 1 | 2 => (4, 2)
  | 3 | 4 => (2, 4)
  | _ => (1, 1)

/-- The destination bytes of a row. -/
def dRowOut (d : List Byte) : Nat := dN0 d / (convSizes (dConv d)).1 * (convSizes (dConv d)).2

/-- An address of 48 bits. -/
def addr48 (x : Int) : Nat := unsigned 48 x

/-- The indices i1 to i4 of row number `r`, i1 fastest (R343). -/
def rowIdx (d : List Byte) (r : Nat) : Nat × Nat × Nat × Nat :=
  (r % dN d 1, r / dN d 1 % dN d 2, r / (dN d 1 * dN d 2) % dN d 3, r / (dN d 1 * dN d 2 * dN d 3) % dN d 4)

/-- A row of a transfer: where its bytes come from (none: zeros), where they go, how many arrive. -/
structure DmaRow where
  src : Option Nat
  dst : Nat
  len : Nat
  deriving DecidableEq, Repr

/-- The rows of a transfer, in their order. A row of SKEW is one element. -/
def dmaRows (d : List Byte) : Nat :=
  match dOp d with
  | 1 => if dN0 d = 0 then 0 else dN d 1 * dN d 2 * dN d 3 * dN d 4
  | 2 => let k := dN0 d / dEsize d
         k * (dN d 1 + k - 1) * dN d 2 * dN d 3 * dN d 4
  | 3 => if dN0 d = 0 then 0 else dN d 1 * dN d 2 * dN d 3
  | _ => 0

/-- Row `r` of a transfer (R343, R345, R346). -/
def dmaRow (d : List Byte) (r : Nat) : DmaRow :=
  match dOp d with
  | 2 =>
    let k := dN0 d / dEsize d
    let n := dN d 1 + k - 1
    let e := r % k
    let t := r / k % n
    let q := r / (k * n)
    let i2 : Int := q % dN d 2
    let i3 : Int := q / dN d 2 % dN d 3
    let i4 : Int := q / (dN d 2 * dN d 3) % dN d 4
    let sb : Int := dSrc d + i2 * dS d 2 + i3 * dS d 3 + i4 * dS d 4
    let db : Int := dDst d + i2 * dD d 2 + i3 * dD d 3 + i4 * dD d 4
    { src := if e ≤ t ∧ t - e < dN d 1 then
        some (addr48 (sb + ((t - e : Nat) : Int) * dS d 1 + ((e * dEsize d : Nat) : Int))) else none
      dst := addr48 (db + (t : Int) * dD d 1 + ((e * dEsize d : Nat) : Int))
      len := dEsize d }
  | 3 =>
    let i := r % dN d 1
    let kx := r / dN d 1 % dN d 2
    let ky := r / (dN d 1 * dN d 2) % dN d 3
    let q := (gOY0 d * gOW d + gOX0 d + i) % 2 ^ 32
    let oy := q / gOW d
    let ox := q % gOW d
    let iy : Int := (oy * gSY d + ky * gDY d : Nat) - (gPadT d : Int)
    let ix : Int := (ox * gSX d + kx * gDX d : Nat) - (gPadL d : Int)
    { src := if 0 ≤ iy ∧ iy < gIH d ∧ 0 ≤ ix ∧ ix < gIW d then
        some (addr48 ((dSrc d : Int) + (iy * gIW d + ix) * gPstride d)) else none
      dst := addr48 ((dDst d + ((ky * dN d 2 + kx) * dN d 1 + i) * gDrow d : Nat) : Int)
      len := dN0 d }
  | _ =>
    let (i1, i2, i3, i4) := rowIdx d r
    { src := some (addr48 ((dSrc d : Int) + i1 * dS d 1 + i2 * dS d 2 + i3 * dS d 3 + i4 * dS d 4))
      dst := addr48 ((dDst d : Int) + i1 * dD d 1 + i2 * dD d 2 + i3 * dD d 3 + i4 * dD d 4)
      len := dRowOut d }

/-- The lowest address and one past the highest of a side of a COPY or SKEW with strides `st` (R343, R452). -/
def strideExtent (d : List Byte) (base : Nat) (st : Nat → Int) (n1 size : Nat) : Int × Int :=
  let span := fun (i n : Nat) => ((n : Int) - 1) * st i
  let lo := fun (i n : Nat) => min 0 (span i n)
  let hi := fun (i n : Nat) => max 0 (span i n)
  ((base : Int) + lo 1 n1 + lo 2 (dN d 2) + lo 3 (dN d 3) + lo 4 (dN d 4),
   (base : Int) + hi 1 n1 + hi 2 (dN d 2) + hi 3 (dN d 3) + hi 4 (dN d 4) + size)

/-- The source extent of a descriptor: lowest address, one past the highest. -/
def srcExtent (d : List Byte) : Int × Int :=
  if dOp d = 3 then ((dSrc d : Int), (dSrc d + (gIH d * gIW d - 1) * gPstride d + dN0 d : Nat))
  else strideExtent d (dSrc d) (dS d) (dN d 1) (dN0 d)

/-- The destination extent. -/
def dstExtent (d : List Byte) : Int × Int :=
  if dOp d = 3 then ((dDst d : Int), (dDst d + (dN d 1 * dN d 2 * dN d 3 - 1) * gDrow d + dN0 d : Nat))
  else if dOp d = 2 then
    strideExtent d (dDst d) (dD d) (dN d 1 + dN0 d / dEsize d - 1) (dN0 d)
  else strideExtent d (dDst d) (dD d) (dN d 1) (dRowOut d)

/-- The granules from the lowest to the highest byte of an extent. -/
def extentGranules (e : Int × Int) : List Nat :=
  let a := e.1.toNat / 2 ^ 30
  let b := (e.2 - 1).toNat / 2 ^ 30
  (List.range (b + 1 - a)).map (fun i => a + i)

/-- The number of present stacks (R332): 8, or 6 on Amilet-48S. -/
def State.hbmStacks (s : State) : Nat := s.get Reg.ID_VARIANT_STACKS

/-- The top of the HBM range (R5): one past the highest address. -/
def State.hbmTop (s : State) : Nat := if s.hbmStacks = 6 then 0x3000000000 else 0x4000000000

/-- The present stacks, ascending (R332): HS3 and HS7 are fused off on Amilet-48S (R137). -/
def State.stackList (s : State) : List Nat := if s.hbmStacks = 6 then [0, 1, 2, 4, 5, 6] else List.range 8

/-- The stack and pseudo-channel of a physical address in uniform or local mode (R332 to R334). -/
def State.hbmPlace (s : State) (x : Nat) : Nat × Nat :=
  let ns := if s.hbmStacks = 6 then 6 else 8
  let G := x / 2 ^ 30
  let q := G / ns
  let i := G % ns
  let y := x - q * ns * 2 ^ 30
  let E := fun k => s.stackList.getD k k
  if bitAt (s.get Reg.MEM_GROUPMODE_LOCAL) q then
    let l := y % 2 ^ 30 / 256
    (E i, (bits l 0 5 ^^^ bits l 5 5 ^^^ bits l 10 5 ^^^ bits l 15 5 ^^^ bits l 20 2))
  else
    let l := y / 256
    if ns = 8 then
      let pc := bits l 0 8 ^^^ bits l 8 8 ^^^ bits l 16 8 ^^^ bits l 24 1
      (E (pc / 32), pc % 32)
    else
      let pc := (l % 192 + l / 192) % 192
      (E (pc / 32), pc % 32)

/-- The token address of a descriptor (table "Token address"). -/
def tokQueue (t : Nat) : Nat := bits t 0 12
def tokPool (t : Nat) : Bool := bitAt t 12
def tokTile (t : Nat) : Nat := bits t 13 6
def tokMod (t : Nat) : Nat := bits t 19 6
def tokRemote (t : Nat) : Bool := bitAt t 25
def tokEnable (t : Nat) : Bool := bitAt t 26

/-- The last flit of the descriptor's data is not its last flit: a TOKENS flit to another module follows (R357, R385). -/
def tokFollows (d : List Byte) : Bool := tokEnable (dToken d) && tokRemote (dToken d)

end Sys2Proof.Machine
end

