-- ==== Sys2Proof/Machine/Num.lean ====
section
/-! DEFINITION. Numbers and number formats: exact values, the binary formats of the engines (R205, R230, R255), one rounding to
nearest with ties to even (R234, R235, R264), the FP8 limits (R265), conversion to integers (R264), correctly rounded
transcendentals (R266), and the DMA conversions (R344). -/

namespace Sys2Proof.Machine

/-- An exact number: NaN, an infinity, or (−1)^neg · man · 2^exp. -/
inductive Num where
  | nan
  | inf (neg : Bool)
  | fin (neg : Bool) (man : Nat) (exp : Int)
  deriving DecidableEq, Repr

/-- A binary format: exponent bits, fraction bits, and whether it has infinities (E4M3 has none, R206). -/
structure Fmt where
  eb : Nat
  fb : Nat
  hasInf : Bool := true
  deriving DecidableEq, Repr

def fmtBf16 : Fmt := ⟨8, 7, true⟩
def fmtB16 : Fmt := ⟨5, 10, true⟩
def fmtE4M3 : Fmt := ⟨4, 3, false⟩
def fmtE5M2 : Fmt := ⟨5, 2, true⟩
def fmtB32 : Fmt := ⟨8, 23, true⟩
def fmtB64 : Fmt := ⟨11, 52, true⟩
def fmtA35 : Fmt := ⟨8, 26, true⟩
def fmtA19 : Fmt := ⟨5, 13, true⟩

/-- Largest positive exponent less one of the normal range: the bias. -/
def Fmt.bias (f : Fmt) : Nat := 2 ^ (f.eb - 1) - 1

/-- Bits of a word without its sign. -/
def Fmt.mag (f : Fmt) : Nat := f.eb + f.fb

/-- The pattern of an infinity, without sign. -/
def Fmt.infBits (f : Fmt) : Nat := (2 ^ f.eb - 1) * 2 ^ f.fb

/-- The canonical NaN (R230, R264). -/
def Fmt.nanBits (f : Fmt) : Nat := if f.hasInf then f.infBits + 2 ^ (f.fb - 1) else 2 ^ f.mag - 1

/-- The value of a word, exact: subnormals are not flushed (R206, R255). -/
def Fmt.decode (f : Fmt) (w : Nat) : Num :=
  let s := bitAt w f.mag
  let e := bits w f.fb f.eb
  let m := bits w 0 f.fb
  if f.hasInf && e == 2 ^ f.eb - 1 then (if m = 0 then .inf s else .nan)
  else if !f.hasInf && e == 2 ^ f.eb - 1 && m == 2 ^ f.fb - 1 then .nan
  else if e = 0 then .fin s m (1 - (f.bias : Int) - f.fb)
  else .fin s (2 ^ f.fb + m) ((e : Int) - f.bias - f.fb)

/-! ### Exact arithmetic -/

def Num.zero : Num := .fin false 0 0
def Num.one : Num := .fin false 1 0

def Num.isZero : Num → Bool
  | .fin _ 0 _ => true
  | _ => false

def Num.isNan : Num → Bool
  | .nan => true
  | _ => false

def Num.isFin : Num → Bool
  | .fin _ _ _ => true
  | _ => false

def Num.neg? : Num → Bool
  | .nan => false
  | .inf s => s
  | .fin s _ _ => s

/-- The sign flipped. -/
def Num.flip : Num → Num
  | .nan => .nan
  | .inf s => .inf (!s)
  | .fin s m e => .fin (!s) m e

/-- The sign cleared. -/
def Num.abs : Num → Num
  | .nan => .nan
  | .inf _ => .inf false
  | .fin _ m e => .fin false m e

/-- A finite number as an integer count of 2^q, for q at most its exponent; 0 for others. -/
def Num.scaled (q : Int) : Num → Int
  | .fin s m e => let x : Int := (m * 2 ^ (e - q).toNat : Nat); if s then -x else x
  | _ => 0

/-- The exponent of a number, for aligning two. -/
def Num.exp : Num → Int
  | .fin _ _ e => e
  | _ => 0

/-- An integer count of 2^q. -/
def Num.ofInt (x : Int) (q : Int := 0) : Num := .fin (decide (x < 0)) x.natAbs q

/-- The exact sum. NaN and opposite infinities give NaN; an exact zero is +0 (R234, R244, R263). -/
def Num.add (a b : Num) : Num :=
  match a, b with
  | .nan, _ => .nan
  | _, .nan => .nan
  | .inf s, .inf t => if s = t then .inf s else .nan
  | .inf s, _ => .inf s
  | _, .inf t => .inf t
  | .fin _ _ e, .fin _ _ e' => let q := min e e'; .ofInt (a.scaled q + b.scaled q) q

/-- The exact difference. -/
def Num.sub (a b : Num) : Num := a.add b.flip

/-- The exact product (R232): its sign is the exclusive-or, 0 · ∞ is NaN. -/
def Num.mul (a b : Num) : Num :=
  match a, b with
  | .nan, _ => .nan
  | _, .nan => .nan
  | .inf s, .inf t => .inf (xor s t)
  | .inf s, .fin t m _ => if m = 0 then .nan else .inf (xor s t)
  | .fin s m _, .inf t => if m = 0 then .nan else .inf (xor s t)
  | .fin s m e, .fin t n e' => .fin (xor s t) (m * n) (e + e')

/-- The exact sum of a list. -/
def Num.sum (l : List Num) : Num := l.foldl Num.add .zero

/-- ⌊log₂ |x|⌋ of a nonzero finite number. -/
def Num.log2 : Num → Int
  | .fin _ m e => (Nat.log2 m : Int) + e
  | _ => 0

/-- a < b as numbers; false where either is NaN. -/
def Num.lt (a b : Num) : Bool :=
  match a, b with
  | .nan, _ => false
  | _, .nan => false
  | .inf s, .inf t => s && !t
  | .inf s, _ => s
  | _, .inf t => !t
  | .fin _ _ e, .fin _ _ e' => let q := min e e'; decide (a.scaled q < b.scaled q)

/-- a = b as numbers, −0 equal to +0. -/
def Num.eqv (a b : Num) : Bool := !a.isNan && !b.isNan && !a.lt b && !b.lt a

/-- a below b in the order that puts −0 below +0 (R263, R267). -/
def Num.below (a b : Num) : Bool := a.lt b || (a.isZero && b.isZero && a.neg? && !b.neg?)

/-! ### Rounding -/

/-- n / d rounded to an integer, to nearest with ties to even. -/
def rne (n d : Nat) : Nat :=
  let q := n / d
  let r := n % d
  if 2 * r > d ∨ (2 * r = d ∧ q % 2 = 1) then q + 1 else q

/-- ⌊log₂ (n / d)⌋ for positive n and d. -/
def ratLog2 (n d : Nat) : Int :=
  let l : Int := (Nat.log2 n : Int) - Nat.log2 d
  if n * 2 ^ (-l).toNat ≥ d * 2 ^ l.toNat then l else l - 1

/-- The magnitude bits of n / d · 2^e rounded to a format, to nearest with ties to even, subnormals kept; a pattern at or above that
of an infinity means overflow. -/
def Fmt.roundMag (f : Fmt) (n d : Nat) (e : Int) : Nat :=
  if n = 0 then 0
  else
    let emin : Int := 1 - f.bias
    let x := max (ratLog2 n d + e) emin
    let q := x - f.fb
    (x - emin).toNat * 2 ^ f.fb + rne (n * 2 ^ (e - q).toNat) (d * 2 ^ (q - e).toNat)

/-- A positive quotient n / d · 2^e with a sign, rounded once to a format (R234, R264, R265). -/
def Fmt.encodeRat (f : Fmt) (sat : Bool) (s : Bool) (n d : Nat) (e : Int) : Nat :=
  let sign := b2n s * 2 ^ f.mag
  let m := f.roundMag n d e
  if f.hasInf then
    if m ≥ f.infBits then sign + (if sat then f.infBits - 1 else f.infBits) else sign + m
  else if m > 0x7E ∨ n * 2 ^ e.toNat = 464 * d * 2 ^ (-e).toNat then (if sat then sign + 0x7E else f.nanBits)
  else sign + m

/-- A number in a format; `sat` is FP8 saturation (R265). -/
def Fmt.encode (f : Fmt) (sat : Bool) : Num → Nat
  | .nan => f.nanBits
  | .inf s => if f.hasInf then b2n s * 2 ^ f.mag + f.infBits
      else if sat then b2n s * 2 ^ f.mag + 0x7E else f.nanBits
  | .fin s m e => f.encodeRat sat s m 1 e

/-- A number rounded once to a format. -/
def Fmt.round (f : Fmt) (x : Num) : Num := f.decode (f.encode false x)

/-- rnd35: rounded once to A35 (R234, R244). -/
def rnd35 (x : Num) : Num := fmtA35.round x

/-- The quotient, formed exactly and rounded once to A35, with the special values of R244. -/
def div35 (a b : Num) : Num :=
  match a, b with
  | .nan, _ => .nan
  | _, .nan => .nan
  | .inf s, .inf _ => let _ := s; .nan
  | .inf s, .fin t _ _ => .inf (xor s t)
  | .fin s _ _, .inf t => .fin (xor s t) 0 0
  | .fin s m e, .fin t n e' =>
    if n = 0 then (if m = 0 then .nan else .inf (xor s t))
    else fmtA35.decode (fmtA35.encodeRat false (xor s t) m n (e - e'))

/-- An integer saturated to `w` bits, two's complement, and whether it saturated. -/
def satInt (w : Nat) (x : Int) : Int × Bool :=
  if x < -(2 ^ (w - 1) : Int) then (-(2 ^ (w - 1) : Int), true)
  else if x > 2 ^ (w - 1) - 1 then (2 ^ (w - 1) - 1, true) else (x, false)

/-- A number rounded to the nearest integer, ties to even. -/
def Num.nearest : Num → Int
  | .fin s m e => let x : Int := (rne (m * 2 ^ e.toNat) (2 ^ (-e).toNat) : Nat); if s then -x else x
  | _ => 0

/-- A number as a `w`-bit integer: saturated, a NaN 0; and whether it saturated (R264). -/
def Num.toSat (w : Nat) : Num → Int × Bool
  | .nan => (0, true)
  | .inf s => (if s then -(2 ^ (w - 1) : Int) else 2 ^ (w - 1) - 1, true)
  | x => satInt w x.nearest

/-! ### Transcendentals (R266) -/

/-- Bounds of a positive value: lower and upper quotients. -/
structure Bounds where
  nlo : Nat
  dlo : Nat
  nhi : Nat
  dhi : Nat

/-- Terms of e^y added up with their bounds, y in [ylo, yhi] counts of 2^−p: `t` and `a` are the last term and the sum. -/
def expTerms (p ylo yhi : Nat) : Nat → Nat → Nat × Nat → Nat × Nat → Nat × Nat
  | 0, _, t, a => (a.1, a.2 + 2 * t.2 + 2)
  | n + 1, k, t, a =>
    let t1 : Nat × Nat := (t.1 * ylo / (2 ^ p * k), t.2 * yhi / (2 ^ p * k) + 1)
    expTerms p ylo yhi n (k + 1) t1 (a.1 + t1.1, a.2 + t1.2)

/-- A pair of bounds squared `j` times. -/
def squares (p : Nat) : Nat → Nat × Nat → Nat × Nat
  | 0, a => a
  | j + 1, a => squares p j (a.1 * a.1 / 2 ^ p, a.2 * a.2 / 2 ^ p + 1)

/-- Bounds of e^x, for x in [lo, hi] / 2^p with 0 ≤ x < 128, in counts of 2^−p. -/
def expBounds (p lo hi : Nat) : Nat × Nat :=
  squares p 16 (expTerms p (lo / 2 ^ 16) (hi / 2 ^ 16 + 1) (p / 8) 1 (2 ^ p, 2 ^ p) (2 ^ p, 2 ^ p))

/-- Bounds of Σ t^(2k+1) / (2k+1), t in [lo, hi] counts of 2^−p, t at most 1/3. -/
def atanhTerms (p lo2 hi2 : Nat) : Nat → Nat → Nat × Nat → Nat × Nat → Nat × Nat
  | 0, _, t, a => (a.1, a.2 + 2 * t.2 + 2)
  | n + 1, k, t, a =>
    let t1 : Nat × Nat := (t.1 * lo2 / 2 ^ p, t.2 * hi2 / 2 ^ p + 1)
    atanhTerms p lo2 hi2 n (k + 1) t1 (a.1 + t1.1 / (2 * k + 1), a.2 + t1.2 / (2 * k + 1) + 1)

/-- Bounds of atanh t. -/
def atanhBounds (p lo hi : Nat) : Nat × Nat :=
  atanhTerms p (lo * lo / 2 ^ p) (hi * hi / 2 ^ p + 1) (p / 3 + 1) 1 (lo, hi) (lo, hi)

/-- Bounds of ln 2 = 2 atanh (1/3). -/
def ln2Bounds (p : Nat) : Nat × Nat :=
  let a := atanhBounds p (2 ^ p / 3) (2 ^ p / 3 + 1)
  (2 * a.1, 2 * a.2)

/-- m · 2^e in counts of 2^−p, rounded down, and one more. -/
def fixed (p m : Nat) (e : Int) : Nat × Nat :=
  let x := m * 2 ^ (e + p).toNat / 2 ^ (-(e + p)).toNat
  (x, x + 1)

/-- The larger part of the integer square root: bits from `n` − 1 down. -/
def sqrtBits (x : Nat) : Nat → Nat → Nat
  | 0, r => r
  | n + 1, r => let r1 := r + 2 ^ n; sqrtBits x n (if r1 * r1 ≤ x then r1 else r)

/-- ⌊√x⌋. -/
def isqrt (x : Nat) : Nat := sqrtBits x (Nat.log2 x / 2 + 1) 0

/-- The value that bounds at rising precision settle, rounded once to A35. No input of A35 is known whose bounds at the higher precision
leave it unsettled. -/
def settle (s : Bool) (b : Nat → Bounds) : Num :=
  let at' := fun (p : Nat) =>
    let x := b p
    (fmtA35.encodeRat false s x.nlo x.dlo 0, fmtA35.encodeRat false s x.nhi x.dhi 0)
  let a := at' 192
  if a.1 = a.2 then fmtA35.decode a.1 else fmtA35.decode (at' 1024).1

/-- Bounds of e^x for x = ±m · 2^e, |x| < 128. -/
def expNum (s : Bool) (m : Nat) (e : Int) (p : Nat) : Bounds :=
  let y := fixed p m e
  let b := expBounds p y.1 y.2
  if s then ⟨2 ^ p, b.2, 2 ^ p, b.1⟩ else ⟨b.1, 2 ^ p, b.2, 2 ^ p⟩

/-- e^x of a nonzero finite x. -/
def expFin (x : Num) : Num :=
  match x with
  | .fin s m e =>
    if !s && Num.lt (.fin false 100 0) x then .inf false
    else if s && Num.lt x (.fin true 110 0) then .zero
    else settle false (expNum s m e)
  | _ => .nan

/-- 2^x of a nonzero finite x: an integer exponent is exact. -/
def exp2Fin (x : Num) : Num :=
  match x with
  | .fin s m e =>
    if !s && Num.lt (.fin false 130 0) x then .inf false
    else if s && Num.lt x (.fin true 160 0) then .zero
    else
      let i := m * 2 ^ e.toNat / 2 ^ (-e).toNat
      if i * 2 ^ (-e).toNat = m * 2 ^ e.toNat then rnd35 (.fin false 1 (if s then -(i : Int) else i))
      else settle false (fun p =>
        let l := ln2Bounds p
        let y := fixed p m e
        let b := expBounds p (y.1 * l.1 / 2 ^ p) (y.2 * l.2 / 2 ^ p + 1)
        if s then ⟨2 ^ p, b.2, 2 ^ p, b.1⟩ else ⟨b.1, 2 ^ p, b.2, 2 ^ p⟩)
  | _ => .nan

/-- ln x of a positive finite x: x = z · 2^k with z from 3/4 to 3/2, and ln x = k ln 2 + 2 atanh ((z − 1) / (z + 1)). -/
def lnFin (x : Num) : Num :=
  match x with
  | .fin _ m e =>
    let l := Nat.log2 m
    let up := decide (2 * m ≥ 3 * 2 ^ l)
    let k : Int := e + l + (if up then 1 else 0)
    let den := if up then 2 ^ (l + 1) else 2 ^ l
    if m = den ∧ k = 0 then .zero
    else
      let neg := decide (m < den)
      let num := if neg then den - m else m - den
      let lo := fun (p : Nat) => num * 2 ^ p / (m + den)
      let value := fun (p : Nat) =>
        let a := if num = 0 then (0, 0) else atanhBounds p (lo p) (lo p + 1)
        let l2 := ln2Bounds p
        let kl : Int × Int := if k ≥ 0 then (k * l2.1, k * l2.2) else (k * l2.2, k * l2.1)
        if neg then (kl.1 - 2 * a.2, kl.2 - 2 * a.1) else (kl.1 + 2 * a.1, kl.2 + 2 * a.2)
      let s := decide (k < 0) || (k == 0 && neg)
      settle s (fun p =>
        let v := value p
        if s then ⟨(-v.2).toNat, 2 ^ p, (-v.1).toNat, 2 ^ p⟩ else ⟨v.1.toNat, 2 ^ p, v.2.toNat, 2 ^ p⟩)
  | _ => .nan

/-- 1 / √x of a positive finite x. -/
def rsqrtFin (x : Num) : Num :=
  match x with
  | .fin _ m e =>
    let odd := e % 2 = 1
    let m1 := if odd then 2 * m else m
    let h := (if odd then e - 1 else e) / 2
    settle false (fun p =>
      let v := m1 * 2 ^ (2 * p)
      let r := isqrt v
      let hi := if r * r = v then r else r + 1
      let sh := fun (n d : Nat) => (n * 2 ^ (p + (-h).toNat), d * 2 ^ h.toNat)
      let a := sh 1 hi
      let b := sh 1 r
      ⟨a.1, a.2, b.1, b.2⟩)
  | _ => .nan

/-- tanh x of a nonzero finite x. Below 2^−30 it lies between x − x³/3 and x. -/
def tanhFin (x : Num) : Num :=
  match x with
  | .fin s m e =>
    if Num.lt (.fin false 32 0) x.abs then .fin s 1 0
    else if x.log2 < -30 then
      let t := fun (n : Nat) (k : Int) => (n * 2 ^ k.toNat, 2 ^ (-k).toNat)
      settle s (fun _ =>
        let hi := t m e
        let lo := t (m * (2 ^ 60 - 1)) (e - 60)
        ⟨lo.1, lo.2, hi.1, hi.2⟩)
    else settle s (fun p =>
      let y := fixed p m (e + 1)
      let b := expBounds p y.1 y.2
      ⟨b.1 - 2 ^ p, b.1 + 2 ^ p, b.2 - 2 ^ p, b.2 + 2 ^ p⟩)
  | _ => .nan

/-- 1 / (1 + e^−x) of a nonzero finite x. -/
def sigmFin (x : Num) : Num :=
  match x with
  | .fin s m e =>
    if !s && Num.lt (.fin false 100 0) x then .one
    else if s && Num.lt x (.fin true 110 0) then .zero
    else settle false (fun p =>
      let y := fixed p m e
      let b := expBounds p y.1 y.2
      if s then ⟨2 ^ p, 2 ^ p + b.2, 2 ^ p, 2 ^ p + b.1⟩ else ⟨b.1, b.1 + 2 ^ p, b.2, b.2 + 2 ^ p⟩)
  | _ => .nan

/-- 1 / x of a nonzero finite x: the exact quotient, rounded once. -/
def rcpFin (x : Num) : Num := div35 .one x

/-- A transcendental of one lane by opcode (R261, R266), and whether it sets EMPTY. -/
def transcendental (op : Nat) (x : Num) : Num × Bool :=
  match x with
  | .nan => (.nan, false)
  | .inf true =>
    (match op with
     | 0x12 | 0x14 => .nan
     | 0x13 | 0x17 => .fin true 0 0
     | 0x15 => .fin true 1 0
     | _ => .zero, false)
  | .inf false =>
    (match op with
     | 0x13 | 0x14 | 0x17 => .zero
     | 0x15 | 0x16 => .one
     | _ => .inf false, false)
  | .fin s 0 _ =>
    (match op with
     | 0x10 | 0x11 => .one
     | 0x12 => .inf true
     | 0x13 | 0x14 => .inf s
     | 0x15 => .fin s 0 0
     | 0x16 => .fin false 1 (-1)
     | _ => .zero, op == 0x17)
  | .fin s _ _ =>
    (match op with
     | 0x10 => expFin x
     | 0x11 => exp2Fin x
     | 0x12 => if s then .nan else lnFin x
     | 0x14 => if s then .nan else rsqrtFin x
     | 0x15 => tanhFin x
     | 0x16 => sigmFin x
     | _ => rcpFin x, false)

/-! ### Conversions by format code (R260) -/

/-- The element size in bytes of a format code. -/
def fmtSize (c : Nat) : Nat :=
  match c with
  | 0 | 1 => 2
  | 2 | 3 | 4 => 1
  | 7 => 8
  | _ => 4

/-- The binary format of a code. -/
def fmtOf (c : Nat) : Fmt :=
  match c with
  | 0 => fmtBf16
  | 1 => fmtB16
  | 2 => fmtE4M3
  | 3 => fmtE5M2
  | 7 => fmtB64
  | _ => fmtB32

/-- int8 and int32. -/
def fmtIsInt (c : Nat) : Bool := c == 4 || c == 6

/-- An element read in a format: integers sign-extended (R255). -/
def readFmt (c w : Nat) : Num := if fmtIsInt c then .ofInt (signed (8 * fmtSize c) w) else (fmtOf c).decode w

/-- A number written in a format with one rounding (R264, R265), and whether an integer saturated. -/
def writeFmt (c : Nat) (sat : Bool) (x : Num) : Nat × Bool :=
  if fmtIsInt c then
    let r := x.toSat (8 * fmtSize c)
    (unsigned (8 * fmtSize c) r.1, r.2)
  else ((fmtOf c).encode (sat && (c == 2 || c == 3)) x, false)

/-- A DMA conversion of one element (R344): binary32 to bf16 or binary16, or back. -/
def convElem (c w : Nat) : Nat :=
  match c with
  | 1 => fmtBf16.encode false (fmtB32.decode w)
  | 2 => fmtB16.encode false (fmtB32.decode w)
  | 3 => fmtB32.encode false (fmtBf16.decode w)
  | _ => fmtB32.encode false (fmtB16.decode w)

/-- The conversion of a DMA row's bytes (R344). -/
def convBytes (c : Nat) (bs : List Byte) : List Byte :=
  if c = 0 ∨ c > 4 then bs
  else
    let n := if c ≤ 2 then 4 else 2
    let k := if c ≤ 2 then 2 else 4
    (List.range (bs.length / n)).flatMap (fun i => leBytes k (convElem c (leAt bs (n * i) n)))

end Sys2Proof.Machine
end

