-- ==== Sys2Proof/Machine/DmaRun.lean ====
section
/-! DEFINITION. The pieces in which a DMA channel moves a transfer, at most 64 bytes each and cut at 64-byte boundaries of the
destination, and the copies inside one tile (R343 to R348). -/

namespace Sys2Proof.Machine

/-- The pieces of a row from offset `off` on: each lies in one 64-byte word of the destination and, but for whole bundles, of the
source. -/
def piecesFrom (c : Nat) (whole : Bool) (r : DmaRow) : Nat → Nat → List (Nat × Nat)
  | 0, _ => []
  | n + 1, off =>
    if off ≥ r.len then []
    else
      let room := 64 - (r.dst + off) % 64
      let srcRoom := match r.src with
        | none => room
        | some a => if whole then room
            else (64 - (a + off / (convSizes c).2 * (convSizes c).1) % 64) / (convSizes c).1 * (convSizes c).2
      let k := max 1 (min (r.len - off) (min room srcRoom))
      (off, k) :: piecesFrom c whole r n (off + k)

/-- The pieces of a row of a descriptor: offset in the destination row and length. -/
def rowPieces (d : List Byte) (r : DmaRow) : List (Nat × Nat) :=
  piecesFrom (dConv d) (dDstSpace d == 5) r r.len 0

/-- The source address and length of a piece of a row with conversion `c`. -/
def pieceSrc (c : Nat) (r : DmaRow) (off len : Nat) : Option (Nat × Nat) :=
  r.src.map (fun a => ((a + off / (convSizes c).2 * (convSizes c).1) % 2 ^ 48, len / (convSizes c).2 * (convSizes c).1))

/-- One piece of a copy inside the tile's scratchpad. -/
def Tile.localPiece (d : List Byte) (r : DmaRow) (p : Nat × Nat) (t : Tile) : Tile :=
  let bs := match pieceSrc (dConv d) r p.1 p.2 with
    | none => zeros p.2
    | some (a, n) => convBytes (dConv d) (t.spRead a n)
  t.spWrite ((r.dst + p.1) % 2 ^ 48) bs

/-- The first `k` pieces of a row. -/
def Tile.localRow (d : List Byte) (k : Nat) (r : DmaRow) (t : Tile) : Tile :=
  ((rowPieces d r).take k).foldl (fun t p => t.localPiece d r p) t

/-- A copy inside the tile's scratchpad runs its first `k` pieces, rows from `r` on. -/
def Tile.localRun (d : List Byte) : Nat → Nat → Nat → Tile → Tile
  | 0, _, _, t => t
  | n + 1, r, k, t =>
    let row := dmaRow d r
    if k = 0 then t else Tile.localRun d n (r + 1) (k - (rowPieces d row).length) (t.localRow d k row)

/-- A copy that moves inside the tile's own scratchpad uses no Jetstream (R348). -/
def dmaLocal (d : List Byte) : Bool := dSrcSpace d == 0 && dDstSpace d == 0

/-- The pieces of the whole transfer. -/
def dmaPieceCount (d : List Byte) : Nat :=
  (List.range (dmaRows d)).foldl (fun n r => n + (rowPieces d (dmaRow d r)).length) 0

/-- The bytes that the whole transfer writes. -/
def dmaByteCount (d : List Byte) : Nat :=
  (List.range (dmaRows d)).foldl (fun n r => n + (dmaRow d r).len) 0

/-- The pieces that a channel with a copy inside the tile had moved when it stopped: a free number (R187). -/
def Tile.stopAfter (n : Nat) (t : Tile) (c : Nat) : Option (List Byte × Nat) :=
  match (t.chan c).descs with
  | (_, d) :: _ => if (t.chan c).active && dmaLocal d then some (d, Config.freeNat (n + c) % (dmaPieceCount d + 1)) else none
  | [] => none

/-- The bytes that they hold (TILE_DMA_BYTES). -/
def Tile.stopBytes (n : Nat) (t : Tile) (c : Nat) : Nat :=
  match t.stopAfter n c with
  | some (d, k) => (((List.range (dmaRows d)).flatMap (fun r => (rowPieces d (dmaRow d r)).map (·.2))).take k).foldl (· + ·) 0
  | none => 0

/-- A channel stops at its next 64-byte boundary (R187): of a local copy under way a first part has been written, how much is
free; queued descriptors are discarded. -/
def Tile.stopChan (n : Nat) (t : Tile) (c : Nat) : Tile :=
  let t1 := match t.stopAfter n c with
    | some (d, k) => t.localRun d (dmaRows d) 0 k
    | none => t
  t1.modChan c (fun x => { seq := x.seq, gone := x.gone ++ x.reads ++ x.writes })

end Sys2Proof.Machine
end

