-- ==== Sys2Proof/Machine/MxMath.lean ====
section
/-! DEFINITION. Arithmetic of the matrix engine: operands by pieces and pre-added planes (R216, R217), chunk sums (R232, R233), rounding
into an entry (R234), read-out and spill (R235, R237, R238), moments (R244), the checksum compare (R218, R246, R247). -/

namespace Sys2Proof.Machine

/-! ### Operands -/

/-- Truncated toward zero to bf16 (R216). -/
def truncBf16 : Num → Num
  | .fin s m e =>
    if m = 0 then .zero
    else
      let q := max ((Nat.log2 m : Int) + e) (-126) - 7
      if e ≥ q then .fin s m e else .fin s (m / 2 ^ (q - e).toNat) q
  | x => x

/-- A piece of a binary32 word (R216): 1 hi, 2 mid, 3 lo. -/
def pieceOf (piece w : Nat) : Num :=
  let x := fmtB32.decode w
  match x with
  | .fin _ _ _ =>
    let hi := fmtB32.decode (w / 65536 * 65536)
    let r := x.sub hi
    let mid := truncBf16 r
    if piece = 1 then hi else if piece = 2 then mid else truncBf16 (r.sub mid)
  | y => if piece = 1 then y else .zero

/-- An element of an operand, whole or by pieces, of one plane or of two pre-added ones (R216, R217). -/
def mxElem (code piece pre w w2 : Nat) : Num :=
  if code = 5 then pieceOf piece w
  else
    let x := readFmt code w
    if pre = 1 then (fmtOf code).round (x.add (readFmt code w2))
    else if pre = 2 then (fmtOf code).round ((readFmt code w2).sub x)
    else x

/-- A stationary element as the cell holds it: a word of its format; a piece of binary32 is a bf16. -/
def statBits (code : Nat) (x : Num) : Nat := if code = 5 then fmtBf16.encode false x else (writeFmt code false x).1

/-- The value of a stationary word. -/
def statVal (code w : Nat) : Num := if code = 5 then fmtBf16.decode w else readFmt code w

/-- A product of a pass. Outside the hi·hi pass a zero piece gives +0, and no infinity or NaN is carried into a chunk (R216). -/
def mxProduct (zeroWins : Bool) (a b : Num) : Num :=
  if zeroWins && (a.isZero || b.isZero || !a.isFin || !b.isFin) then .zero else a.mul b

/-! ### Chunk sums -/

/-- A chunk sum: its value, none for an empty chunk, and its window exponent where it has one. -/
structure Chunk where
  val : Option Num
  exp : Option Int
  deriving DecidableEq, Repr

/-- A product's count of 2^(e − 46), rounded toward −∞ (R232). -/
def windowTerm (e : Int) : Num → Int
  | .fin s m x =>
    let k := x + 46 - e
    let v : Int := if s then -(m : Int) else m
    if k ≥ 0 then v * 2 ^ k.toNat else v / 2 ^ (-k).toNat
  | _ => 0

/-- The largest window exponent of nonzero products. -/
def topExp (ps : List Num) : Option Int :=
  ps.foldl (fun a p => if p.isZero || !p.isFin then a else some (match a with | none => p.log2 | some e => max e p.log2)) none

/-- The chunk sum of exact products (R232); `add` are upsets, in counts of the window's lowest weight. -/
def chunkSum (ps : List Num) (add : Int) : Chunk :=
  if ps.any (·.isNan) then ⟨some .nan, none⟩
  else
    let pinf := ps.any (fun p => decide (p = .inf false))
    let ninf := ps.any (fun p => decide (p = .inf true))
    if pinf && ninf then ⟨some .nan, none⟩
    else if pinf then ⟨some (.inf false), none⟩
    else if ninf then ⟨some (.inf true), none⟩
    else match topExp ps with
    | none => if add = 0 then ⟨none, none⟩ else ⟨some (.ofInt add), none⟩
    | some e => ⟨some (.ofInt (ps.foldl (fun t p => t + windowTerm e p) add) (e - 46)), some e⟩

/-- An integer chunk: the exact sum (R233). -/
def intChunk (ps : List Num) (add : Int) : Chunk := ⟨some ((Num.sum ps).add (.ofInt add)), none⟩

/-- A chunk of a pass under accumulation `acc`; NEG negates every product first. -/
def chunkOf (acc : Nat) (neg : Bool) (ps : List Num) (add : Int) : Chunk :=
  let qs := if neg then ps.map Num.flip else ps
  if acc = 2 then intChunk qs add else chunkSum qs add

/-! ### Entries -/

/-- An entry read in the format that ACC names (R231): 0 A35, 1 A19, 2 integer. -/
def accVal (acc w : Nat) : Num :=
  if acc = 2 then .ofInt (signed 35 w) else if acc = 1 then fmtA19.decode (w % 2 ^ 19) else fmtA35.decode w

/-- A number written into an entry with one rounding (R234), and whether an integer entry saturated. -/
def accBits (acc : Nat) (x : Num) : Nat × Bool :=
  if acc = 2 then
    let r := x.toSat 35
    (unsigned 35 r.1, r.2)
  else if acc = 1 then (fmtA19.encode false x, false) else (fmtA35.encode false x, false)

/-- A chunk sum rounded into an entry (R234). -/
def roundInto (acc : Nat) (zero : Bool) (entry : Nat) (c : Chunk) : Nat × Bool :=
  let old := if zero then 0 else entry
  match c.val with
  | none => (old, false)
  | some v => accBits acc ((accVal acc old).add v)

/-- The bytes of an element that MREAD writes (R205). -/
def readSize (acc : Nat) : Nat := if acc = 1 then 2 else 4

/-- The read-out of an entry (R235), and whether it saturated. -/
def readOut (acc entry : Nat) : Nat × Bool :=
  if acc = 2 then writeFmt 6 false (accVal 2 entry)
  else if acc = 1 then (fmtB16.encode false (accVal 1 entry), false) else (fmtB32.encode false (accVal 0 entry), false)

/-- An entry added into an element of the wide buffer (R237, R238), and whether it saturated. -/
def spillInto (acc entry wide : Nat) : Nat × Bool :=
  if acc = 2 then
    let r := satInt 64 (signed 64 wide + signed 35 entry)
    (unsigned 64 r.1, r.2)
  else (fmtB64.encode false ((fmtB64.decode wide).add (accVal acc entry)), false)

/-! ### Moments (R244) -/

/-- One element folded into the five statistics n, s, q, mu, m2 of its column. -/
def momentStep (st : List Num) (x : Num) : List Num :=
  let n := rnd35 ((st.getD 0 .zero).add .one)
  let sm := rnd35 ((st.getD 1 .zero).add x)
  let q := rnd35 ((st.getD 2 .zero).add (x.mul x))
  let mu := st.getD 3 .zero
  let d := rnd35 (x.sub mu)
  let mu1 := rnd35 (mu.add (div35 d n))
  let d2 := rnd35 (x.sub mu1)
  let m2 := rnd35 ((st.getD 4 .zero).add (rnd35 (d.mul d2)))
  [n, sm, q, mu1, m2]

/-! ### The checksum column -/

/-- The check weight of a row of B (R218): the exact sum, rounded once to binary32; exact in integer accumulation. -/
def checkWeight (acc : Nat) (row : List Num) : Num := if acc = 2 then Num.sum row else fmtB32.round (Num.sum row)

/-- What a row's compare found: whether it was made, whether it failed, D and β. -/
structure Compare where
  made : Bool
  bad : Bool
  d : Num
  beta : Num
  deriving DecidableEq, Repr

/-- A power of two scaled: n · 2^e. -/
def scaledPow (n : Nat) (e : Option Int) (k : Int) : Num :=
  match e with
  | none => .zero
  | some x => .fin false n (x + k)

/-- The compare of one row of one chunk (R219, R246, R247): `a` the row's elements, `w` the check weights, `cols` the columns' chunks,
`cw` the checksum column's. -/
def compareRow (acc : Nat) (a w : List Num) (cols : List Chunk) (cw : Chunk) : Compare :=
  let value := fun (c : Chunk) => c.val.getD .zero
  let d := ((Num.sum (cols.map value)).sub (value cw)).abs
  if acc = 2 then ⟨true, !d.isZero, d, .zero⟩
  else if w.any (fun x => !x.isFin) || (cw :: cols).any (fun c => !(value c).isFin) then ⟨false, false, .zero, .zero⟩
  else
    let n := a.length
    let emax := (cw :: cols).foldl (fun m c => match c.exp, m with
      | none, m => m
      | some e, none => some e
      | some e, some f => some (max e f)) none
    let beta := ((scaledPow n cw.exp (-23)).add (scaledPow n (topExp a) (-149))).add (scaledPow (n * (cols.length + 1)) emax (-46))
    ⟨true, beta.lt d, d, beta⟩

end Sys2Proof.Machine
end

