-- ==== Sys2Proof/Machine/TileIsa.lean ====
section
/-! DEFINITION. The bundle (R161): its eight slot words, the fields of each slot (R165, R166, R168, R170, R172, R221, R260), which bits each
operation uses (R576), and which core registers a slot reads and writes (R164, R174). -/

namespace Sys2Proof.Machine

/-- Slot numbers (TILE_FAULT_INFO.SLOT). -/
def slS0 : Nat := 0
def slS1 : Nat := 1
def slL : Nat := 2
def slD : Nat := 3
def slM : Nat := 4
def slV : Nat := 5
def slQ : Nat := 6
def slB : Nat := 7

/-- Slot `i` of a bundle (R161). -/
def slotWord (b : List Byte) (i : Nat) : Nat := leAt b (8 * i) 8

/-- The common header (R161). -/
def wOp (w : Nat) : Nat := bits w 0 8
def wPred (w : Nat) : Nat := bits w 8 4
def wPneg (w : Nat) : Bool := bitAt w 12
def wHead13 (w : Nat) : Bool := bitAt w 13

/-- The mask of a field. -/
def fieldMask (lo n : Nat) : Nat := (2 ^ n - 1) * 2 ^ lo

/-- Every bit outside the header's [13:0] and the mask is 0. -/
def onlyIn (w mask : Nat) : Bool := (w / 2 ^ 14 * 2 ^ 14) &&& mask == w / 2 ^ 14 * 2 ^ 14

/-! ### Core registers -/

/-- A core register (R160). -/
inductive CReg where
  | g (i : Nat)
  | a (i : Nat)
  | p (i : Nat)
  | m (i : Nat)
  deriving DecidableEq, Repr

/-- The register of kind `k` (1 g, 2 p, 3 a) that a field names; p0 is no register that is waited for or written. DESIGN CHOICE: two writes
of one bundle to p0, both ignored (R160), are no conflict of R164. -/
def regOf (k field : Nat) : List CReg :=
  match k with
  | 1 => [.g field]
  | 2 => if field % 16 = 0 then [] else [.p (field % 16)]
  | 3 => [.a (field % 16)]
  | _ => []

/-! ### S0 and S1 (R165) -/

def sDst (w : Nat) : Nat := bits w 14 6
def sA (w : Nat) : Nat := bits w 20 6
def sB (w : Nat) : Nat := bits w 26 6
/-- IMM, sign-extended to 64 bits. -/
def sImm (w : Nat) : Nat := unsigned 64 (signed 32 (bits w 32 32))

/-- What an operation of S0 or S1 does with DST, SA, SB (0 nothing, 1 g, 2 p, 3 a) and IMM. -/
def sUse (op : Nat) : Option (Nat × Nat × Nat × Bool) :=
  if op = 0 then some (0, 0, 0, false)
  else if op ≤ 0x0D then some (1, 1, 1, false)
  else if 0x10 ≤ op ∧ op ≤ 0x13 then some (1, 1, 0, true)
  else if op = 0x14 ∨ op = 0x15 then some (1, 0, 0, true)
  else if 0x20 ≤ op ∧ op ≤ 0x22 then some (2, 1, 1, false)
  else if op = 0x23 then some (2, 1, 0, true)
  else if op = 0x24 ∨ op = 0x25 then some (2, 2, 2, false)
  else if op = 0x26 then some (2, 2, 0, false)
  else if op = 0x30 then some (3, 1, 0, false)
  else if op = 0x31 then some (1, 3, 0, false)
  else if op = 0x32 then some (3, 3, 0, true)
  else if op = 0x33 then some (3, 3, 1, false)
  else if 0x38 ≤ op ∧ op ≤ 0x3A then some (1, 0, 0, false)
  else none

/-- The encoding is legal; DIVU in S0 only. -/
def sLegal (slot w : Nat) : Bool :=
  match sUse (wOp w) with
  | none => false
  | some (d, a, b, i) =>
    !(slot == 1 && wOp w == 0x0B) &&
    onlyIn w ((if d = 0 then 0 else fieldMask 14 6) + (if a = 0 then 0 else fieldMask 20 6) +
      (if b = 0 then 0 else fieldMask 26 6) + (if i then fieldMask 32 32 else 0))

def sReads (w : Nat) : List CReg :=
  match sUse (wOp w) with
  | none => []
  | some (_, a, b, _) => regOf a (sA w) ++ regOf b (sB w) ++ (if wOp w = 0x15 then [.g (sDst w)] else [])

def sWrites (w : Nat) : List CReg :=
  match sUse (wOp w) with
  | none => []
  | some (d, _, _, _) => regOf d (sDst w)

/-! ### L (R166) -/

def lG (w : Nat) : Nat := bits w 14 6
def lA (w : Nat) : Nat := bits w 20 4
def lUpd (w : Nat) : Bool := bitAt w 24
def lOff (w : Nat) : Int := signed 32 (bits w 32 32)

/-- The bytes of an access; 0 for NOP and FENCE. -/
def lSize (op : Nat) : Nat :=
  match op with
  | 1 | 5 | 8 => 1
  | 2 | 6 | 9 => 2
  | 3 | 7 | 0xA => 4
  | 4 | 0xB | 0xC | 0xD => 8
  | _ => 0

def lIsLoad (op : Nat) : Bool := (1 ≤ op && op ≤ 7) || op == 0xC
def lIsStore (op : Nat) : Bool := (8 ≤ op && op ≤ 0xB) || op == 0xD

def lLegal (w : Nat) : Bool :=
  wOp w ≤ 0xE && onlyIn w (if lSize (wOp w) = 0 then 0 else fieldMask 14 6 + fieldMask 20 5 + fieldMask 32 32)

def lReads (w : Nat) : List CReg :=
  if lSize (wOp w) = 0 ∨ wOp w > 0xD then []
  else [.a (lA w)] ++ (if wOp w = 0xD then [.a (lG w % 16)] else if lIsStore (wOp w) then [.g (lG w)] else [])

def lWrites (w : Nat) : List CReg :=
  if lSize (wOp w) = 0 ∨ wOp w > 0xD then []
  else (if wOp w = 0xC then [.a (lG w % 16)] else if lIsLoad (wOp w) then [.g (lG w)] else []) ++ (if lUpd w then [.a (lA w)] else [])

/-! ### D (R168) -/

def dG (w : Nat) : Nat := bits w 14 6
def dA (w : Nat) : Nat := bits w 20 4
def dCh (w : Nat) : Nat := bits w 24 2

def dLegal (w : Nat) : Bool :=
  match wOp w with
  | 0 => onlyIn w 0
  | 1 => onlyIn w (fieldMask 20 6)
  | 2 => onlyIn w (fieldMask 24 2)
  | 3 => onlyIn w (fieldMask 14 6 + fieldMask 24 2)
  | _ => false

/-! ### Q (R170, R290) -/

def qG (w : Nat) : Nat := bits w 14 6
def qPool (w : Nat) : Bool := bitAt w 20
def qQueue (w : Nat) : Nat := bits w 21 12
def qDepth (w : Nat) : Nat := bits w 33 2
def qUseg (w : Nat) : Bool := bitAt w 35
def qCount (w : Nat) : Nat := bits w 40 24

def qLegal (w : Nat) : Bool :=
  let op := wOp w
  if op = 0 then onlyIn w 0
  else
    let count := if qUseg w then fieldMask 14 6 else fieldMask 40 24
    (qPool w || qQueue w < 32) && (if op = 3 then qDepth w != 0 else qDepth w == 0) &&
    (match op with
     | 1 | 2 => onlyIn w (fieldMask 20 13 + fieldMask 35 1 + count)
     | 3 => onlyIn w (fieldMask 20 16 + count)
     | 4 => onlyIn w (fieldMask 20 13 + fieldMask 35 1 + fieldMask 14 6 + (if qUseg w then 0 else fieldMask 40 24))
     | 5 => onlyIn w (fieldMask 20 13 + fieldMask 14 6)
     | _ => false)

def qReads (w : Nat) : List CReg := if qUseg w && 1 ≤ wOp w && wOp w ≤ 4 then [.g (qG w)] else []
def qWrites (w : Nat) : List CReg := if wOp w = 4 ∨ wOp w = 5 then [.g (qG w)] else []

/-! ### B (R172) -/

def bSA (w : Nat) : Nat := bits w 20 6
def bTgt (w : Nat) : Nat := bits w 32 11

def bLegal (w : Nat) : Bool :=
  match wOp w with
  | 1 | 3 => onlyIn w (fieldMask 32 11)
  | 2 => onlyIn w (fieldMask 20 6)
  | 5 => onlyIn w (fieldMask 20 6 + fieldMask 32 11)
  | 0 | 4 | 6 | 7 | 8 => onlyIn w 0
  | _ => false

def bReads (w : Nat) : List CReg :=
  match wOp w with
  | 2 | 5 => [.g (bSA w)]
  | 4 => [.g 63]
  | _ => []

def bWrites (w : Nat) : List CReg :=
  match wOp w with
  | 3 => [.g 63]
  | 5 => [.g (bSA w)]
  | _ => []

/-! ### M (R221) -/

def mPanel (w : Nat) : Nat := bits w 14 2
def mBank (w : Nat) : Nat := bits w 16 1
def mA (w : Nat) : Nat := bits w 17 4
def mA2 (w : Nat) : Nat := bits w 21 4
def mG (w : Nat) : Nat := bits w 25 6
def mZero (w : Nat) : Bool := bitAt w 31
def mNeg (w : Nat) : Bool := bitAt w 32
def mDual (w : Nat) : Bool := bitAt w 33
def mPiece (w : Nat) : Nat := bits w 34 2
def mPre (w : Nat) : Nat := bits w 36 2
def mAll (w : Nat) : Bool := bitAt w 38
def mLevel (w : Nat) : Nat := bits w 39 4
def mCount (w : Nat) : Nat := bits w 43 16

/-- The fields of MCFG as TILE_MX_CFG holds them (R226): the fields of both lie in one order and width. -/
def mCfg (w : Nat) : Nat := bits w 14 12
def cGang (c : Nat) : Nat := bits c 0 2
def cCube (c : Nat) : Bool := bitAt c 2
def cFa (c : Nat) : Nat := bits c 3 3
def cFb (c : Nat) : Nat := bits c 6 3
def cAcc (c : Nat) : Nat := bits c 9 2
def cFeed (c : Nat) : Bool := bitAt c 11

/-- The legal pairings of formats and accumulation (R205). -/
def pairingOk (fa fb acc : Nat) : Bool :=
  (fa == fb && (fa == 0 || fa == 1 || fa == 5) && acc == 0) || (fa == 4 && fb == 4 && acc == 2) ||
    ((fa == 2 || fa == 3) && (fb == 2 || fb == 3) && (acc == 0 || acc == 1))

/-- An M-slot encoding is legal but for the settings it runs under (R576): opcode, unused bits, field values that no state defines: pairings
(R205), cube mode outside Independent (R202), a piece with a pre-addition (R216, R217), DUAL without one (R221). -/
def mLegal (w : Nat) : Bool :=
  let panel := fieldMask 14 2
  let bank := fieldMask 16 1
  let a := fieldMask 17 4
  let a2 := if mPre w = 0 then 0 else fieldMask 21 4
  let g := fieldMask 25 6
  match wOp w with
  | 0 => onlyIn w 0
  | 1 => onlyIn w (fieldMask 14 12) && cGang (mCfg w) < 3 && pairingOk (cFa (mCfg w)) (cFb (mCfg w)) (cAcc (mCfg w)) &&
    !(cCube (mCfg w) && cGang (mCfg w) != 0)
  | 2 => onlyIn w (panel + a + a2 + g + fieldMask 34 4) && mPre w < 3 && (mPre w == 0 || mPiece w == 0)
  | 3 => onlyIn w (panel + bank + a + a2 + fieldMask 31 7) && mPre w < 3 && (mPre w == 0 || mPiece w == 0) && (!mDual w || mPre w == 1)
  | 4 | 5 => onlyIn w (panel + bank + a + g)
  | 6 => onlyIn w (panel + bank + a + fieldMask 31 1)
  | 7 => onlyIn w ((if mAll w then 0 else panel) + fieldMask 38 21)
  | 8 => onlyIn w ((if mAll w then 0 else panel) + fieldMask 38 1)
  | 9 => onlyIn w (panel + g)
  | _ => false

def mReads (w : Nat) : List CReg :=
  match wOp w with
  | 2 => [.a (mA w), .g (mG w)] ++ (if mPre w = 0 then [] else [.a (mA2 w)])
  | 3 => [.a (mA w)] ++ (if mPre w = 0 then [] else [.a (mA2 w)])
  | 4 | 5 => [.a (mA w), .g (mG w)]
  | 6 => [.a (mA w)]
  | _ => []

def mWrites (w : Nat) : List CReg := if wOp w = 9 then [.g (mG w)] else []

/-! ### V (R260, R261) -/

def vFmt (w : Nat) : Nat := bits w 14 3
def vMmode (w : Nat) : Nat := bits w 17 2
def vMidx (w : Nat) : Nat := bits w 19 3
def vDst (w : Nat) : Nat := bits w 22 9
def vSA (w : Nat) : Nat := bits w 31 9
def vSB (w : Nat) : Nat := bits w 40 9
def vNv (w : Nat) : Nat := bits w 49 6
def vAccp (w : Nat) : Nat := bits w 55 2
def vAccb (w : Nat) : Nat := bits w 57 1
def vSub (w : Nat) : Nat := bits w 58 3
def vSat (w : Nat) : Bool := bitAt w 61
/-- Kind and index of a specifier (R257). -/
def spKind (x : Nat) : Nat := x / 64
def spIdx (x : Nat) : Nat := x % 64

/-- Operations with two sources; element operations and row operations with one. -/
def vTwo (op : Nat) : Bool := (4 ≤ op && op ≤ 9) || op == 0xC || op == 0xD || op == 0x21
def vOne (op : Nat) : Bool := op == 3 || op == 0xA || op == 0xB || (0x10 ≤ op && op ≤ 0x17) || op == 0x20 || op == 0x22
def vTrans (op : Nat) : Bool := 0x10 ≤ op && op ≤ 0x17
/-- An operation on vectors. -/
def vArith (op : Nat) : Bool := vTwo op || vOne op

/-- SAT is used: an FP8 value is written (R260). -/
def vSatUsed (w : Nat) : Bool :=
  if wOp w = 3 then vSub w == 2 || vSub w == 3
  else (vFmt w == 2 || vFmt w == 3) && (spKind (vDst w) == 3 || spKind (vDst w) == 4) && !(wOp w == 0x20 && vSub w == 4)

/-- A V-slot encoding is legal but for the state it runs in (R576). -/
def vLegal (w : Nat) : Bool :=
  let op := wOp w
  if vArith op then
    let k2 := spKind (vSA w) == 2 || (vTwo op && spKind (vSB w) == 2)
    vMmode w != 3 && (if op = 0xD ∨ op = 0x20 then vSub w ≤ 4 else true) &&
    spKind (vDst w) != 7 && spKind (vSA w) != 7 && spKind (vSB w) != 7 &&
    onlyIn w (fieldMask 14 5 + (if vMmode w = 0 then 0 else fieldMask 19 3) + fieldMask 22 (if op = 0xD then 3 else 9) + fieldMask 31 9 +
      (if vTwo op then fieldMask 40 9 else 0) + (if op = 0xD then 0 else fieldMask 49 6) + (if k2 then fieldMask 55 3 else 0) +
      (if op = 3 ∨ op = 0xD ∨ op = 0x20 then fieldMask 58 3 else 0) + (if vSatUsed w then fieldMask 61 1 else 0))
  else match op with
  | 0 | 2 | 0x38 => onlyIn w 0
  | 1 => onlyIn w (fieldMask 55 3)
  | 0x30 =>
    vSub w ≤ 5 && onlyIn w (fieldMask 22 3 + fieldMask 58 3 + (if vSub w ≤ 3 then fieldMask 31 3 else 0) + (if vSub w ≤ 2 then fieldMask 40 3 else 0))
  | 0x31 => onlyIn w (fieldMask 22 6 + fieldMask 31 3)
  | 0x32 => onlyIn w (fieldMask 22 3 + fieldMask 31 6)
  | 0x39 => onlyIn w (fieldMask 22 6)
  | _ => false

/-- The core register through which a specifier is read at issue. -/
def spReads (x : Nat) : List CReg :=
  match spKind x with
  | 3 | 4 | 5 => [.a (spIdx x % 16)]
  | 6 => [.g (spIdx x)]
  | _ => []

def vReads (w : Nat) : List CReg :=
  let op := wOp w
  if vArith op then
    spReads (vSA w) ++ (if vTwo op then spReads (vSB w) else []) ++
    (if op ≠ 0xD ∧ spKind (vDst w) ≠ 6 then spReads (vDst w) else []) ++
    (if vMmode w = 1 then [.m (vMidx w)] else if vMmode w = 2 then [.a (8 + vMidx w)] else [])
  else match op with
  | 0x30 => (if vSub w ≤ 3 then [.m (vSA w % 8)] else []) ++ (if vSub w ≤ 2 then [.m (vSB w % 8)] else [])
  | 0x31 => [.m (vSA w % 8)]
  | 0x32 => [.g (spIdx (vSA w))]
  | _ => []

/-- The core register that a queued vector operation writes at its end. -/
def vLands (w : Nat) : List CReg :=
  match wOp w with
  | 0xD | 0x30 | 0x32 => [.m (vDst w % 8)]
  | 0x31 => [.g (spIdx (vDst w))]
  | 0x20 => if spKind (vDst w) = 6 then [.g (spIdx (vDst w))] else []
  | _ => []

def vWrites (w : Nat) : List CReg := if wOp w = 0x39 then [.g (spIdx (vDst w))] else vLands w

/-! ### Slots together -/

/-- The core registers that slot `i` reads, its predicate among them, and those it writes. -/
def slotReads (i w : Nat) : List CReg :=
  regOf 2 (wPred w) ++
  (match i with
   | 0 | 1 => sReads w
   | 2 => lReads w
   | 3 => if wOp w = 1 then [.a (dA w)] else []
   | 4 => mReads w
   | 5 => vReads w
   | 6 => qReads w
   | _ => bReads w)

def slotWrites (i w : Nat) : List CReg :=
  match i with
  | 0 | 1 => sWrites w
  | 2 => lWrites w
  | 3 => if wOp w = 3 then [.g (dG w)] else []
  | 4 => mWrites w
  | 5 => vWrites w
  | 6 => qWrites w
  | _ => bWrites w

/-- The encoding of slot `i` passes the checks of R576 that raise ILLEGAL. -/
def slotLegal (i w : Nat) : Bool :=
  !wHead13 w &&
  (match i with
   | 0 | 1 => sLegal i w
   | 2 => lLegal w
   | 3 => dLegal w
   | 4 | 5 => true
   | 6 => qLegal w
   | _ => bLegal w)

end Sys2Proof.Machine
end

