-- ==== Sys2Proof/Machine/MxOps.lean ====
section
/-! DEFINITION. The matrix engine's operations in their queues (R222): the stream descriptor (R212 to R215), the banks an operation
names, program order between the engines (R222, R272), where an operation reads and writes. -/

namespace Sys2Proof.Machine

/-! ### Stream descriptors (R212) -/

def xBase (d : List Byte) : Nat := leAt d 0 6
def xMode (d : List Byte) : Nat := leAt d 6 1
def xRows (d : List Byte) : Nat := leAt d 7 1
def xRstride (d : List Byte) : Int := signed 32 (leAt d 8 4)
def xIH (d : List Byte) : Nat := leAt d 12 2
def xIW (d : List Byte) : Nat := leAt d 14 2
def xOW (d : List Byte) : Nat := leAt d 16 2
def xOY0 (d : List Byte) : Nat := leAt d 18 2
def xOX0 (d : List Byte) : Nat := leAt d 20 2
def xSY (d : List Byte) : Nat := leAt d 22 1
def xSX (d : List Byte) : Nat := leAt d 23 1
def xDY (d : List Byte) : Nat := leAt d 24 1
def xDX (d : List Byte) : Nat := leAt d 25 1
def xKY (d : List Byte) : Nat := leAt d 26 1
def xKX (d : List Byte) : Nat := leAt d 27 1
def xPadT (d : List Byte) : Nat := leAt d 28 1
def xPadL (d : List Byte) : Nat := leAt d 29 1
def xPstride (d : List Byte) : Nat := leAt d 32 4
def xChoff (d : List Byte) : Nat := leAt d 36 4
def xBbase (d : List Byte) : Nat := leAt d 40 6
def xKsteps (d : List Byte) : Nat := leAt d 46 2
def xBstride (d : List Byte) : Int := signed 32 (leAt d 48 4)
def xQuad (d : List Byte) : Nat := leAt d 52 1

/-! ### Geometry -/

/-- The operation's cell rows (64, 128 in Gang-128), elements per cell row (two for FP8 with A19 in sheet mode, R208), K and N. -/
def cCells (c : Nat) : Nat := if cGang c = 2 then 128 else 64
def cCpe (c : Nat) : Nat := if cAcc c = 1 ∧ !cCube c then 2 else 1
def cK (c : Nat) : Nat := if cCube c then 4 else cCells c * cCpe c
def cN (c : Nat) : Nat := if cCube c then 32 else cCells c
/-- The bytes of a streamed row or word, of a K-step's operand in cube mode. -/
def cRowBytes (c : Nat) : Nat := (if cCube c then 128 else cK c) * fmtSize (cFa c)
/-- The panels whose banks take an output: P0 and P1 in Gang-128 (R199). -/
def cPanels (c p : Nat) : List Nat := if cGang c = 2 then [0, 1] else [p]
/-- The words that a pass reads (R203). -/
def passWords (c : Nat) (d : List Byte) : Nat :=
  if cCube c then xKsteps d else if cFeed c then xRows d + cCells c - 1 else xRows d

def MxOp.op (o : MxOp) : Nat := wOp o.word
def MxOp.aA (o : MxOp) : Nat := o.args.getD 0 0
def MxOp.aA2 (o : MxOp) : Nat := o.args.getD 1 0
/-- The row stride gG of MLOAD, MREAD and MSPILL. DESIGN CHOICE: it is signed, so that a negative stride is legal; the spec calls only the
strides of descriptors signed. -/
def MxOp.stride (o : MxOp) : Int := signed 64 (o.args.getD 2 0)
def MxOp.desc1 (o : MxOp) : List Byte := o.desc.take 64
def MxOp.desc2 (o : MxOp) : List Byte := o.desc.drop 64

/-- The operation is a pass. -/
def MxOp.isPass (o : MxOp) : Bool := o.op == 3 || o.op == 6

/-- The banks that an operation names, panel and bank (R222). -/
def MxOp.banks (o : MxOp) : List (Nat × Nat) :=
  let ps := cPanels o.cfg (mPanel o.word)
  let b := mBank o.word
  match o.op with
  | 3 => ps.map (fun p => (p, b)) ++ (if mDual o.word then ps.map (fun p => (p, 1 - b)) else [])
  | 4 | 5 | 6 => ps.map (fun p => (p, b))
  | _ => []

/-- The panels that an MLOAD loads: its own, or all four in Quad-share and Gang-128 (R199, R221). -/
def MxOp.loadPanels (o : MxOp) : List Nat :=
  if o.op = 2 then (if cGang o.cfg = 0 then [mPanel o.word] else [0, 1, 2, 3]) else []

/-- The operation writes the banks that it names. -/
def MxOp.writesBank (o : MxOp) : Bool := o.op != 4

/-! ### Program order between operations -/

/-- The kind-2 bank that a vector operation reads (R257). -/
def VxOp.readBank (o : VxOp) : List (Nat × Nat) :=
  if vArith (wOp o.word) && (spKind (vSA o.word) == 2 || (vTwo (wOp o.word) && spKind (vSB o.word) == 2))
  then [(vAccp o.word, vAccb o.word)] else []

/-- Every matrix operation of a tile. -/
def Tile.mxOps (t : Tile) : List MxOp := t.panels.toList.flatMap (fun p => p.queue ++ p.readq)

/-- A matrix operation waits for an earlier operation on one of its banks, in either queue, or for a vector operation (R222, R272). -/
def Tile.mxBlocked (t : Tile) (o : MxOp) : Bool :=
  t.mxOps.any (fun x => x.seq < o.seq && x.banks.any (fun b => o.banks.contains b)) ||
  t.vq.any (fun v => v.seq < o.seq &&
    ((wOp v.word == 2 && (match v.claim with | some b => o.banks.contains b | none => false)) ||
      (o.writesBank && v.readBank.any (fun b => o.banks.contains b))))

/-- A vector operation waits for an earlier matrix operation on a bank that it reads through kind 2 or claims (R272). -/
def Tile.vxBlocked (t : Tile) (v : VxOp) : Bool :=
  let bs := v.readBank ++ (if wOp v.word = 1 then [(vAccp v.word, vAccb v.word)] else [])
  t.mxOps.any (fun x => x.seq < v.seq && x.banks.any (fun b => bs.contains b))

/-- The claim in program order: what the last VCLAIM or VREL of the queue leaves, else what is held (R259, R262). -/
def claimAfter (held : Option (Nat × Nat)) (q : List VxOp) : Option (Nat × Nat) :=
  q.foldl (fun c v => if wOp v.word = 1 then some (vAccp v.word, vAccb v.word) else if wOp v.word = 2 then none else c) held

/-- The panel holds, in program order, a stationary operand: a queued MLOAD counts (R223). -/
def Panel.willBeLoaded (p : Panel) : Bool := p.loaded || p.queue.any (fun o => o.op == 2)

/-! ### Where rows lie -/

/-- A scratchpad address: 48 bits. -/
def spAddr (x : Int) : Nat := unsigned 48 x

/-- Word `t` of a linear stream, or row `i` of a convolution; none for a row read as zeros (R213, R214). -/
def streamAddr (d : List Byte) (i : Nat) : Option Nat :=
  if xMode d = 1 then
    let q := xOY0 d * xOW d + xOX0 d + i
    let iy : Int := (q / xOW d * xSY d + xKY d * xDY d : Nat) - (xPadT d : Int)
    let ix : Int := (q % xOW d * xSX d + xKX d * xDX d : Nat) - (xPadL d : Int)
    if 0 ≤ iy ∧ iy < xIH d ∧ 0 ≤ ix ∧ ix < xIW d then
      some (spAddr ((xBase d : Int) + (iy * xIW d + ix) * xPstride d + xChoff d))
    else none
  else some (spAddr ((xBase d : Int) + i * xRstride d))

/-- Row `r` of a block operation (MLOAD, MREAD, MSPILL) at base `a` (R210, R221). -/
def MxOp.rowAddr (o : MxOp) (a r : Nat) : Nat := spAddr ((a : Int) + r * o.stride)

/-- Bytes of a row that a read-out or spill writes: 64 columns in either mode, 128 in Gang-128 (R237). -/
def MxOp.outBytes (o : MxOp) : Nat := cCells o.cfg * (if o.op = 5 then 8 else readSize (cAcc o.cfg))

/-- The entries of a bank that an operation writes: panel and key. -/
def MxOp.entries (o : MxOp) : List (Nat × Nat) :=
  let cells := fun (r0 nr c0 nc : Nat) =>
    o.banks.flatMap (fun pb => (List.range nr).flatMap (fun r => (List.range nc).map (fun c =>
      (pb.1, 4096 * pb.2 + 64 * (r0 + r) + (c0 + c)))))
  match o.op with
  | 3 => if cCube o.cfg then cells (32 * bits (xQuad o.desc1) 1 1) 32 (32 * bits (xQuad o.desc1) 0 1) 32
      else cells 0 (xRows o.desc1) 0 64
  | 5 => cells 0 64 0 64
  | 6 => cells 0 5 0 64
  | _ => []

/-- The rows of scratchpad bytes that an operation writes: address and length. -/
def MxOp.outRows (o : MxOp) : List (Nat × Nat) :=
  if o.op = 4 ∨ o.op = 5 then (List.range 64).map (fun r => (o.rowAddr o.aA r, o.outBytes)) else []

end Sys2Proof.Machine
end

