-- ==== Sys2Proof/Machine/Engines.lean ====
section
/-! DEFINITION. What the engines leave behind when they are stopped (R187, R227, R276): queued operations are discarded, and what the
ones in flight were writing holds free values. -/

namespace Sys2Proof.Machine

/-- Entries of the banks take free values. -/
def Tile.freeEntries (n : Nat) (es : List (Nat × Nat)) (t : Tile) : Tile :=
  (es.zipIdx n).foldl (fun t e => t.modPanel e.1.1 (fun p =>
    { p with banks := spSet 0 p.banks e.1.2 (Config.freeNat e.2 % 2 ^ 35) })) t

/-- Bytes of the scratchpad take free values. -/
def Tile.freeRows (n : Nat) (rows : List (Nat × Nat)) (t : Tile) : Tile :=
  rows.foldl (fun t r => t.spWrite r.1 ((List.range r.2).map (fun i => Config.freeByte (n + r.1 + i)))) t

/-- The operations of a stream queue that may be in flight: the head, and each one behind passes only (R204, R211, R224). -/
def runningPrefix : List MxOp → List MxOp
  | [] => []
  | o :: l => o :: (if o.isPass then runningPrefix l else [])

/-- The matrix operations that may be in flight. -/
def Tile.mxInFlight (t : Tile) : List MxOp :=
  (t.panels.toList.flatMap (fun p => runningPrefix p.queue ++ p.readq.take 1)).filter (fun o => !t.mxBlocked o)

/-- The element size of a vector operation's destination stream (R257, R267). -/
def vDstSize (w : Nat) : Nat :=
  if wOp w = 3 then fmtSize (vSub w) else if wOp w = 0x20 ∧ vSub w = 4 then 4 else fmtSize (vFmt w)

/-- The vectors that a vector operation writes. -/
def vCount (w : Nat) : Nat := if wOp w = 0x0D then 1 else vNv w + 1

/-- The rows of scratchpad bytes that a vector operation writes. -/
def VxOp.outRows (o : VxOp) : List (Nat × Nat) :=
  let w := o.word
  if !vArith (wOp w) || wOp w == 0x0D then []
  else if spKind (vDst w) = 3 then [(o.args.getD 0 0, 64 * vCount w * vDstSize w)]
  else if spKind (vDst w) = 4 then [(o.args.getD 0 0, vDstSize w)] else []

/-- The entries that a vector operation writes. -/
def VxOp.entries (o : VxOp) : List (Nat × Nat) :=
  let w := o.word
  match o.claim with
  | none => []
  | some (p, b) =>
    if vArith (wOp w) && wOp w != 0x0D && spKind (vDst w) == 1 then
      (List.range (if wOp w = 0x20 then 1 else vCount w)).flatMap (fun r =>
        (List.range 64).map (fun c => (p, 4096 * b + 64 * (spIdx (vDst w) + r) + c)))
    else []

/-- The engines' operations in flight are abandoned: queues empty, what was being written free, a load under way leaves its panel
unloaded, drizzle over. -/
def Tile.abandonEngines (n : Nat) (t : Tile) : Tile :=
  let ms := t.mxInFlight
  let vs := (t.vq.take 1).filter (fun v => !t.vxBlocked v)
  let t1 := t.freeEntries n (ms.flatMap MxOp.entries ++ vs.flatMap VxOp.entries)
  let t2 := t1.freeRows (n + 0x100000) (ms.flatMap MxOp.outRows ++ vs.flatMap VxOp.outRows)
  let gone := ms.flatMap MxOp.loadPanels
  { t2 with
    panels := Vector.ofFn (fun (i : Fin 4) =>
      let p := t2.panel i.val
      let q : Panel := { p with queue := [], readq := [], drizzle := 0, drizzleLeft := 0, ramp := none }
      if gone.contains i.val then { q with loaded := false, stat := [], statPiece := 0 } else q)
    vq := [] }

end Sys2Proof.Machine
end

