-- ==== Sys2Proof/Machine/TileOps.lean ====
section
/-! DEFINITION. The tile's shared operations: draining the store buffer (R181), stopping a tile and its LAUNCH on an exception
(R185 to R187), the scrub (R445), clearing at LAUNCH (R197), the register record (R194). -/

namespace Sys2Proof.Machine

/-! ### Run states (TILE_STATE.RUN) -/

def runIdle : Nat := 0
def runRunning : Nat := 1
def runWait : Nat := 2
def runHalted : Nat := 3
def runDebug : Nat := 4
def runFaulted : Nat := 5
def runStopped : Nat := 6

/-- The run state of a tile. -/
def State.run (s : State) (g : Nat) : Nat := s.get (Reg.TILE_STATE_RUN g)

/-- A tile takes a run state. -/
def State.setRun (g r : Nat) (s : State) : State := s.set (Reg.TILE_STATE_RUN g) r

/-- The tile has a LAUNCH under way: it runs, waits or is debug-halted. -/
def State.tileBusy (s : State) (g : Nat) : Bool :=
  s.run g == runRunning || s.run g == runWait || s.run g == runDebug || (s.tile g).loading.isSome || (s.tile g).halting

/-- TILE_DBG_DATA and the debug commands reach the tile: halted, debug-halted, faulted or stopped (R193). -/
def State.debugReadable (s : State) (g : Nat) : Bool := 3 ≤ s.run g && s.run g ≤ 6

/-! ### Store buffer -/

/-- The bytes of an entry written over a word's bytes: those its mask names. -/
def sbMerge (mask : BitVec 8) (new old : List Byte) : List Byte :=
  (List.range 8).map (fun i => if mask.getLsbD i then new.getD i 0 else old.getD i 0)

/-- An entry drains to its word of the scratchpad (R181). -/
def Tile.drainEntry (t : Tile) (e : SbEntry) : Tile :=
  t.spWrite (8 * e.word) (sbMerge e.mask (leBytes 8 e.data.toNat) (t.spRead (8 * e.word) 8))

/-- Every entry drains, in order. -/
def Tile.drainAll (t : Tile) : Tile := { t.sb.foldl Tile.drainEntry t with sb := [] }

/-- The tile's own view of a byte: the youngest entry that holds it, else the scratchpad. -/
def Tile.sbByte (t : Tile) (a : Nat) : Option Byte :=
  (t.sb.reverse.find? (fun e => e.word == a / 8 && e.mask.getLsbD (a % 8))).map
    (fun e => (leBytes 8 e.data.toNat).getD (a % 8) 0)

/-- SBCOUNT follows the store buffer. -/
def State.syncSb (g : Nat) (s : State) : State := s.set (Reg.TILE_STATE_SBCOUNT g) (s.tile g).sb.length

/-- Bytes that an engine reads: where the store buffer holds a byte that has not drained, the old or the new one (R180). -/
def Tile.engineRead (n : Nat) (t : Tile) (a len : Nat) : List Byte :=
  if t.sb.isEmpty then t.spRead a len
  else (List.range len).map (fun i =>
    match t.sbByte (a + i) with
    | some b => if Config.freeBool (n + i) then b else spGet ramByte t.sp (a + i)
    | none => spGet ramByte t.sp (a + i))

/-! ### Registers that mirror the tile -/

/-- The descriptor counts of the channels (R349). -/
def State.syncDma (g : Nat) (s : State) : State :=
  s.set (Reg.TILE_DMA_STATUS_QC g)
    ((List.range 4).foldl (fun n c => n + ((s.tile g).chan c).descs.length * 8 ^ c) 0)

/-- The panels' stream-queue counts less one, their busy bits and what they hold (TILE_MX_STATUS, TILE_MX_CFG.LOADED). -/
def State.syncMx (g : Nat) (s : State) : State :=
  let sum := fun (k : Nat) (f : Panel → Nat) => (List.range 4).foldl (fun n i => n + f ((s.tile g).panel i) * k ^ i) 0
  ((s.set (Reg.TILE_MX_STATUS_QCOUNT g) (sum 4 (fun p => p.queue.length - 1))).set (Reg.TILE_MX_STATUS_BUSY g)
    (sum 2 (fun p => b2n (!p.queue.isEmpty || !p.readq.isEmpty)))).set (Reg.TILE_MX_CFG_LOADED g) (sum 2 (fun p => b2n p.loaded))

/-- The V queue's count and busy bit (TILE_VX_STATUS). -/
def State.syncVx (g : Nat) (s : State) : State :=
  (s.set (Reg.TILE_VX_STATUS_QCOUNT g) (s.tile g).vq.length).set (Reg.TILE_VX_STATUS_BUSY g)
    (b2n (!(s.tile g).vq.isEmpty))

/-- All of them. -/
def State.syncTile (g : Nat) (s : State) : State := (((s.syncSb g).syncDma g).syncMx g).syncVx g

/-- The vector engine's claim, as held (TILE_VX_STATUS). -/
def State.claim (s : State) (g : Nat) : Option (Nat × Nat) :=
  if s.on (Reg.TILE_VX_STATUS_CLAIMED g) then some (s.get (Reg.TILE_VX_STATUS_CPANEL g), s.get (Reg.TILE_VX_STATUS_CBANK g)) else none

/-- The claim is released (R259). -/
def State.releaseClaim (g : Nat) (s : State) : State :=
  s.unset [Reg.TILE_VX_STATUS_CLAIMED g, Reg.TILE_VX_STATUS_CPANEL g, Reg.TILE_VX_STATUS_CBANK g]

/-- Every panel is unloaded (R221, R227, R229). -/
def Tile.unload (t : Tile) : Tile :=
  { t with panels := t.panels.map (fun p => { p with loaded := false, stat := [], statPiece := 0 }) }

/-! ### The LAUNCH a tile runs -/

/-- The function, ring and command count of the running LAUNCH whose placement holds the tile. -/
def State.launchOf (s : State) (g : Nat) : Option (Nat × Nat × RingCmd) :=
  (List.range 17).findSome? (fun f => (List.range 16).findSome? (fun r =>
    ((s.ring f r).cmds.find? (fun c => c.st == .running && leAt c.desc 0 1 == 2 && bitAt c.place g)).map
      (fun c => (f, r, c))))

/-- A command of a ring changed by `h`. -/
def State.modCmd (f r idx : Nat) (h : RingCmd → RingCmd) (s : State) : State :=
  s.modRing f r (fun x => { x with cmds := x.cmds.map (fun c => if c.idx = idx then h c else c) })

/-- A command takes its first failure; a later one changes nothing (R35). -/
def State.failCmd (f r idx : Nat) (e : Failure) (s : State) : State :=
  s.modCmd f r idx (fun c => if c.fail.isSome then c else { c with fail := some e })

/-! ### Twin pairs -/

/-- The twin pair whose primary is tile `g`. -/
def State.twinOf (s : State) (g : Nat) : Option Twin := s.twins.find? (fun w => w.primary == g)

/-- Tile `g` is a shadow (R525). -/
def State.isShadow (s : State) (g : Nat) : Bool := s.twins.any (fun w => w.shadow == g)

/-- The compare window that a tile's cycle counter stands in (R528). -/
def State.window (s : State) (g : Nat) : Nat := (s.tile g).cycle.toNat / 64

/-- A token leaves tile `g`: a shadow sends none (R525), a primary's waits for its window's compare (R528); one to the pair's own LQs is not
held. -/
def State.departToken (g : Nat) (p : Iso) (s : State) : State :=
  if s.isShadow g then s
  else match s.twinOf g with
  | some w =>
    if !p.pool && (p.tile == g || p.tile == w.shadow) then s.sendIso p
    else { s with twins := s.twins.map (fun w =>
        if w.primary = g then { w with heldTokens := w.heldTokens ++ [(s.window g, p)] } else w) }
  | none => s.sendIso p

/-- What followed the drain of the store buffer's head goes on: tokens depart, descriptors may start (R183). -/
def State.headDrained (g : Nat) (s : State) : State :=
  (s.tile g).owedTokens.foldl (fun s p => s.departToken g p)
    (s.modTile g (fun t => { t with owedTokens := [], owedStarts := [] }))

/-! ### Stopping a tile (R187) -/

/-- The packet belongs to a pooled wait of tile `g`; a pooled read and its answer do not. -/
def Iso.ofWaitOf (g : Nat) (p : Iso) : Bool :=
  p.tile == g && p.pool && decide (p.kind ≠ .signal ∧ p.kind ≠ .peek ∧ p.kind ≠ .sweep ∧ ¬ (p.kind = .reply ∧ p.status = 0))

/-- The packet belongs to a pooled read of tile `g`. -/
def Iso.ofPeekOf (g : Nat) (p : Iso) : Bool :=
  p.tile == g && p.pool && decide (p.kind = .peek ∨ (p.kind = .reply ∧ p.status = 0))

/-- A tile asks its pooled queue to cancel its wait (R299, R310); a shadow sends nothing (R525). -/
def State.sendCancel (g : Nat) (s : State) : State :=
  if s.twins.any (fun w => w.shadow == g) then s
  else
    let p : Iso :=
      { kind := .cancel, pool := true, queue := s.get (Reg.TILE_Q_WAIT_QUEUE g), tile := g, src := .slot g, tenancy := s.tileTen g
        count := 0, epoch := s.heldEpoch (0xC0 + s.tileTen g) }
    s.sendIso p

/-- The tile is in a TAKE that its queue has served, or may have served already (R310). -/
def State.inTake (s : State) (g : Nat) : Bool :=
  ((s.tile g).wait.phase == .pooled || (s.tile g).wait.phase == .released) && s.get (Reg.TILE_Q_WAIT_OP g) == 4

/-- A wait at a pooled queue is cancelled, and what follows waits for the queue's reply; where the queue has served a TAKE, it
follows the bundle that took the token (R310). -/
def State.cancelThen (g : Nat) (a : AfterCancel) (s : State) : State :=
  if (s.tile g).wait.after == .none then
    (if (s.tile g).wait.phase == .pooled && !(s.tile g).wait.timedOut then s.sendCancel g else s).modTile g
      (fun t => { t with wait := { t.wait with after := a } })
  else s

/-- A tile's engines stop: its store buffer drains, its DMA channels stop, its matrix and vector operations in flight are
abandoned, its wait ends. A pooled read that is under way still lands (R185, R186). -/
def State.quenchTile (g : Nat) (s : State) : State :=
  let n := s.free
  let moved := (List.range 4).foldl (fun m c => m + (s.tile g).stopBytes n c) 0
  let s1 := (s.set (Reg.TILE_DMA_BYTES_BYTES g) (s.get (Reg.TILE_DMA_BYTES_BYTES g) + moved)).modTile g (fun t =>
    let t1 := [0, 1, 2, 3].foldl (Tile.stopChan n) t.drainAll
    let t2 := t1.abandonEngines (n + 4)
    { t2 with wait := {}, halting := false, debugPending := false, stepping := false, loading := none })
  let s2 := State.dropWaiters (fun w => !w.rime && w.unit == g && !w.peek)
    { s1 with free := n + 0x2000000, isobar := s1.isobar.filter (fun p => !p.ofWaitOf g) }
  (((((s2.headDrained g).set (Reg.TILE_Q_WAIT_ACTIVE g) 0).set (Reg.PWR_DOM_STATE_WAITLULL g) 0).releaseClaim g).syncTile g).syncDrizzle g |>.settleRate g

/-- The fault record of a tile (R185, R186): code, status, slot (0xF for an asynchronous exception), address. -/
def State.recordFault (g code status slot addr : Nat) (s : State) : State :=
  ((((((s.set (Reg.TILE_FAULT_INFO_CODE g) code).set (Reg.TILE_FAULT_INFO_STATUS g) status).set
    (Reg.TILE_FAULT_INFO_SLOT g) slot).set (Reg.TILE_FAULT_INFO_BA g) (s.get (Reg.TILE_STATE_BA g))).set
    (Reg.TILE_FAULT_INFO_EPOCH g) (s.get (Reg.TILE_STATE_EPOCH g))).set (Reg.TILE_FAULT_INFO_VALID g) 1).set
    (Reg.TILE_FAULT_ADDR_ADDR g) addr

/-- A tile is stopped at its bundle boundary, with the code and status (R187). -/
def State.stopNow (code status g : Nat) (s : State) : State :=
  ((s.recordFault g code status 0xF 0).quenchTile g).setRun g runStopped

/-- A tile that another tile's fault or an end of its LAUNCH stops. One in a pooled TAKE first cancels it (R186, R310). A
tile that has completed its halt is left as it is (R198). -/
def State.stopOne (code status g : Nat) (s : State) : State :=
  if s.tileBusy g then
    if s.inTake g then s.cancelThen g (.stop code status) else s.stopNow code status g
  else s

/-- Every tile of a placement stops. -/
def State.stopPlacement (code status place : Nat) (s : State) : State :=
  (bitList 64 place).foldl (fun s g => s.stopOne code status g) s

/-- The tile that a flit or token addressed to tile `g` reaches: the primary for a shadow (R525). -/
def State.facing (s : State) (g : Nat) : Nat :=
  ((s.twins.find? (fun w => w.shadow == g)).map (·.primary)).getD g

/-- A tile raises an exception (R184 to R187): its fault record is written, it is faulted, its engines stop, the ring engine
stops the other tiles of the same LAUNCH with code 0x25, and the LAUNCH has its first failure. A tile with no LAUNCH under
way raises none; a twin pair's names the primary (R530). An asynchronous one that finds the tile in a TAKE waits for its end (R186, R310);
one that finds it faulted or stopped leaves its record and is only reported, as a later failure (R196, R35). -/
def State.raiseExc (g code status slot addr : Nat) (s : State) : State :=
  let report := fun (s : State) => { s with breeze := s.breeze ++
    [{ kind := .report, dest := 0x01, src := 0x40 + g, func := 0x1F, epoch := 0, status := status
       beat1 := code + 256 * slot + 4096 * s.get (Reg.TILE_STATE_BA g), beat2 := addr, beat3 := s.tick.toNat }] }
  if slot = 0xF ∧ s.inTake g then s.cancelThen g (.raise code status addr)
  else if slot = 0xF ∧ (s.run g = runFaulted ∨ s.run g = runStopped) then report s else
  let ba := s.get (Reg.TILE_STATE_BA g)
  let s2 := report (((s.recordFault g code status slot addr).quenchTile g).setRun g runFaulted)
  match s.launchOf g with
  | none => s2
  | some (f, r, c) =>
    let s3 := s2.failCmd f r c.idx
      { status := status, xstatus := code, detail := s.facing g + 64 * slot + 32768, ba := ba }
    (bitList 64 c.place).foldl (fun s h => if h = g then s else s.stopOne 0x25 status h) s3

/-- A corrected error marks the LAUNCH of a tile (R188). -/
def State.markCorrected (g : Nat) (s : State) : State :=
  match s.launchOf g with
  | none => s
  | some (f, r, c) => s.modCmd f r c.idx (fun c => { c with corrected := true })

/-! ### Clearing -/

/-- A scrub of a tile (R445): zeros in its scratchpad, instruction store, banks, registers, queues, fault and debug registers;
engines emptied; no tenancy. -/
def State.scrubTile (g : Nat) (s : State) : State :=
  let s1 := s.modTile g (fun t =>
    { sdcCount := t.sdcCount, uncorrAddrs := t.uncorrAddrs, corrCount := t.corrCount })
  let s2 := s1.unset [Reg.TILE_FAULT_INFO_CODE g, Reg.TILE_FAULT_INFO_STATUS g, Reg.TILE_FAULT_INFO_SLOT g,
    Reg.TILE_FAULT_INFO_BA g, Reg.TILE_FAULT_INFO_EPOCH g, Reg.TILE_FAULT_INFO_VALID g, Reg.TILE_FAULT_ADDR_ADDR g,
    Reg.TILE_DBG_CTL_ARM g, Reg.TILE_DBG_CTL_LHALT g, Reg.TILE_DBG_BP_BP0 g, Reg.TILE_DBG_BP_EN0 g, Reg.TILE_DBG_BP_BP1 g,
    Reg.TILE_DBG_BP_EN1 g, Reg.TILE_DBG_SEL_SPACE g, Reg.TILE_DBG_SEL_AUTOINC g, Reg.TILE_DBG_SEL_OFFSET g,
    Reg.TILE_STATE_BA g, Reg.TILE_STATE_RUN g, Reg.TILE_STATE_TENANCY g, Reg.TILE_MX_CFG_LOADED g,
    Reg.TILE_VX_STATUS_CLAIMED g, Reg.TILE_Q_WAIT_ACTIVE g, Reg.TILE_Q_WAIT_SWEEPLATCH g]
  (s2.syncTile g).modTile g (fun t => { t with scrubbing := true })

/-- The quiesce reset of a tile (R501): issue pipeline, prefetched bundles, store buffer, channels, engine queues, stationary
operands, vector claim, wait and sweep latch; everything else is kept. -/
def State.resetTile (g : Nat) (s : State) : State :=
  let s1 := s.modTile g (fun t =>
    { t with
      stale := [], sb := [], owedTokens := [], owedStarts := [], chans := Vector.replicate 4 {}, vq := [], wait := {}, peeks := []
      panels := t.panels.map (fun p => { p with queue := [], readq := [], loaded := false, stat := [], statPiece := 0 }) })
  (s1.unset [Reg.TILE_MX_CFG_LOADED g, Reg.TILE_VX_STATUS_CLAIMED g, Reg.TILE_VX_STATUS_CPANEL g,
    Reg.TILE_VX_STATUS_CBANK g, Reg.TILE_Q_WAIT_QUEUE g, Reg.TILE_Q_WAIT_POOL g, Reg.TILE_Q_WAIT_OP g,
    Reg.TILE_Q_WAIT_DEPTH g, Reg.TILE_Q_WAIT_ACTIVE g, Reg.TILE_Q_WAIT_SWEEPLATCH g, Reg.TILE_Q_WAIT_COUNT g]).syncTile g

/-! ### The register record (R194) and the settings word of a queue (R279) -/

/-- The settings word of a queue. -/
def Queue.word (q : Queue) : Nat :=
  q.rest.toNat + 2 ^ 24 * b2n q.strict + 2 ^ 25 * b2n q.sweep + 2 ^ 26 * b2n q.ovf + 2 ^ 32 * q.lastSrc.toNat +
    2 ^ 38 * q.lastMod.toNat + 2 ^ 44 * b2n q.lastValid + 2 ^ 45 * b2n q.lastDma + 2 ^ 46 * b2n q.lastHost +
    2 ^ 47 * b2n q.lastRime + 2 ^ 48 * q.owner.toNat

/-- A queue with the value and the settings that an image declares (R311, R418, R419). -/
def Queue.declared (owner : BitVec 5) (value word : Nat) : Queue :=
  { value := BitVec.ofNat 24 value, rest := BitVec.ofNat 24 word, strict := bitAt word 24, sweep := bitAt word 25, owner := owner }

/-- A queue restored from a saved value and settings word, bit for bit (R309). -/
def Queue.restored (value word : Nat) : Queue :=
  { value := BitVec.ofNat 24 value, rest := BitVec.ofNat 24 word, strict := bitAt word 24, sweep := bitAt word 25
    ovf := bitAt word 26, lastSrc := BitVec.ofNat 6 (word / 2 ^ 32), lastMod := BitVec.ofNat 6 (word / 2 ^ 38)
    lastValid := bitAt word 44, lastDma := bitAt word 45, lastHost := bitAt word 46, lastRime := bitAt word 47
    owner := BitVec.ofNat 5 (word / 2 ^ 48) }

/-- Predicate `i`: p0 always reads 1 (R160). -/
def Tile.pred (t : Tile) (i : Nat) : Bool := i == 0 || t.p.getLsbD i

/-- General register `i`, address register `i`, mask `i`. -/
def Tile.gr (t : Tile) (i : Nat) : Word := t.g[i]?.getD 0
def Tile.ar (t : Tile) (i : Nat) : BitVec 48 := t.a[i]?.getD 0
def Tile.mr (t : Tile) (i : Nat) : Word := t.m[i]?.getD 0

/-- Local queue `i`. -/
def Tile.queue (t : Tile) (i : Nat) : Queue := t.lq[i]?.getD {}

/-- A tile with a general, address, mask or predicate register or a local queue written. A write to p0 is ignored (R160). -/
def Tile.setG (i : Nat) (v : Word) (t : Tile) : Tile := { t with g := t.g.setIfInBounds i v }
def Tile.setA (i : Nat) (v : BitVec 48) (t : Tile) : Tile := { t with a := t.a.setIfInBounds i v }
def Tile.setM (i : Nat) (v : Word) (t : Tile) : Tile := { t with m := t.m.setIfInBounds i v }
def Tile.setP (i : Nat) (v : Bool) (t : Tile) : Tile :=
  if i = 0 then t
  else { t with p := if v then t.p ||| BitVec.ofNat 16 (2 ^ i) else t.p &&& ~~~(BitVec.ofNat 16 (2 ^ i)) }
def Tile.setLq (i : Nat) (q : Queue) (t : Tile) : Tile := { t with lq := t.lq.setIfInBounds i q }

/-- The 8-byte word of the register record at byte offset `o` (R194). -/
def State.recordWord (s : State) (g o : Nat) : Nat :=
  let t := s.tile g
  if o < 0x200 then (t.gr (o / 8)).toNat
  else if o < 0x280 then (t.ar ((o - 0x200) / 8)).toNat
  else if o = 0x280 then (List.range 16).foldl (fun n i => n + b2n (t.pred i) * 2 ^ i) 0
  else if o = 0x288 then
    s.get (Reg.TILE_STATE_BA g) + 2 ^ 11 * s.run g + 2 ^ 16 * s.get (Reg.TILE_FAULT_INFO_CODE g) +
      2 ^ 24 * s.get (Reg.TILE_FAULT_INFO_STATUS g)
  else if o < 0x2D0 then (t.mr ((o - 0x290) / 8)).toNat
  else if o = 0x2D0 then t.cycle.toNat
  else if o = 0x2D8 then s.get (Reg.TILE_STATE_EPOCH g) + 2 ^ 16 * s.get (Reg.TILE_STATE_TENANCY g)
  else if o < 0x300 then 0
  else if o < 0x380 then
    let i := (o - 0x300) / 4
    (t.queue i).value.toNat + 2 ^ 32 * (t.queue (i + 1)).value.toNat
  else if o < 0x480 then (t.queue ((o - 0x380) / 8)).word
  else 0

end Sys2Proof.Machine
end

