-- ==== Sys2Proof/Machine/RimeOps.lean ====
section
/-! DEFINITION. The Rime engines' shared operations: the parameter sets (R466), the result of a command (R483), what an engine
drops when its command is stopped from outside (R486, R488), its scrub. -/

namespace Sys2Proof.Machine

/-- A parameter set (R466): message bits, short dimension, polynomial size, digit width and levels of the BSK and of the KSK. -/
structure RimeSet where
  p : Nat
  n : Nat
  size : Nat
  lbB : Nat
  lB : Nat
  lbK : Nat
  lK : Nat
  deriving DecidableEq, Repr

/-- RP1 and RP2. -/
def rimeSet (set : Nat) : RimeSet :=
  if set = 1 then ⟨2, 672, 1024, 7, 3, 3, 5⟩ else ⟨4, 768, 2048, 11, 2, 4, 4⟩

def RimeSet.bskBytes (r : RimeSet) : Nat := r.n * (2 * r.lB) * 2 * r.size * 4
def RimeSet.kskBytes (r : RimeSet) : Nat := r.size * r.lK * (r.n + 1) * 4
def RimeSet.lutBytes (r : RimeSet) : Nat := 2 ^ r.p * 4

/-- Bytes of a ciphertext: header, N + 1 words, padding to 64 bytes (R467): 4,224 or 8,320. -/
def RimeSet.ctBytes (r : RimeSet) : Nat := roundUp (64 + 4 * (r.size + 1)) 128

/-- "None" in the upper half of RESULT (R483). -/
def rimeNone : Nat := 0xFFFFFFFF

/-- Entry `i` of an op list, and its OUT (R474). -/
def opEntry (ops : List Byte) (i : Nat) : List Byte := slice ops (128 * i) 128
def opOut (e : List Byte) : Nat := leAt e 8 8

/-- The result of a Rime command (R483): ops written, and the first that warned. -/
def State.rimeResult (s : State) (e : Nat × Nat × Nat) : Nat :=
  match (List.range 4).find? (fun d => (s.rime d).active == some e) with
  | some d => (s.rime d).written + 2 ^ 32 * (s.rime d).warned.getD rimeNone
  | none => 2 ^ 32 * rimeNone

/-- RIME_STATUS.QCOUNT follows the queue, the active command included. -/
def State.syncRime (d : Nat) (s : State) : State :=
  s.set (Reg.RIME_STATUS_QCOUNT d) ((s.rime d).queue.length + if (s.rime d).active.isSome then 1 else 0)

/-- The outputs of the wave in flight are unpredictable within those ciphertexts (R486). -/
def State.spoilWave (d : Nat) (s : State) : State :=
  let x := s.rime d
  let size := (rimeSet (leAt x.desc 0 1)).ctBytes
  let left := x.ops.length / 128 - x.written
  (List.range (min 16 left)).foldl (fun s i =>
    (s.hbmWrite (opOut (opEntry x.ops (x.written + i))) (Config.freeBytes s.free size).toList).draw) s

/-- An engine abandons the command it runs (R486): its wave in flight is lost, a start token it waits for is given up. -/
def State.rimeAbandon (d : Nat) (s : State) : State :=
  let s1 := if s.get (Reg.RIME_STATUS_PHASE d) = 4 ∧ leAt (s.rime d).desc 0 1 ≠ 0 then s.spoilWave d else s
  let s2 := State.dropWaiters (fun w => w.rime && w.unit == d)
    { s1 with isobar := s1.isobar.filter (fun p => !(p.tile == 64 + d && p.pool) && decide (p.src ≠ .rime d)) }
  ((s2.modRime d (fun x => { x with active := none, waiting := false, owes := none, ops := [], heads := [], desc := [] })).set
    (Reg.RIME_STATUS_PHASE d) 0).syncRime d

/-- An engine without work is back at idle current (R52), and enters L1 where it is in L0 and nothing holds it there (R106). -/
def State.rimeRest (d : Nat) (s : State) : State :=
  let n := 68 + d
  if (s.rime d).active.isSome ∨ !(s.rime d).queue.isEmpty then s
  else if s.domState n = 0 ∧ s.autoMay n 1 then (s.enterSleep n 1).modDom n (fun x => { x with idleAt := s.tick })
  else s.rateDown n

/-- A command stopped from outside leaves the engine that holds it, in its queue or under way (R483, R488). -/
def State.rimeForget (e : Nat × Nat × Nat) (s : State) : State :=
  (List.range 4).foldl (fun s d =>
    if (s.rime d).active = some e then (s.rimeAbandon d).rimeRest d
    else if (s.rime d).queue.contains e then
      (s.modRime d (fun x => { x with queue := x.queue.filter (· != e) })).syncRime d
    else s) s

/-- The key store holds no key. -/
def State.emptyStore (d : Nat) (s : State) : State :=
  (s.modRime d (fun x => { x with key := none })).unset [Reg.RIME_KEY_KEYDESC d, Reg.RIME_KEY_SET d, Reg.RIME_KEY_VALID d]

/-- A scrub of a Rime engine (R445, R488): key store and buffers empty, OWNER 0x1F. -/
def State.scrubRime (d : Nat) (s : State) : State :=
  (((s.rimeAbandon d).emptyStore d).modRime d (fun x => { x with queue := [], scrubAt := none })).syncRime d |>.set
    (Reg.RIME_STATUS_OWNER d) 0x1F

end Sys2Proof.Machine
end

