-- ==== Sys2Proof/Machine/RingOps.lean ====
section
/-! DEFINITION. The rings' shared operations: the status record (R403), completion records, their order and their interrupts
(R405, R423 to R426), the end of a command, the ends that reach many commands at once (R47, R432, R442). -/

namespace Sys2Proof.Machine

/-- Ring states (RING_STATE.STATE). -/
def ringOff : Nat := 0
def ringRunning : Nat := 1
def ringStopping : Nat := 2
def ringError : Nat := 3
def ringHeld : Nat := 4

/-- The state of ring `r` of function `f`. -/
def State.ringState (s : State) (f r : Nat) : Nat := s.get (Reg.RING_STATE_STATE f r)

/-- Data writes of a ring carry Relaxed Ordering: RING_CTL.RO and the function's enable, bit 4 of Device Control, are 1 (R402). -/
def State.relaxed (s : State) (f r : Nat) : Bool := s.on (Reg.RING_CTL_RO f r) && !bitAt (spGet 0 (s.func f).cfg 0x078) 4

/-- The ring is served only on a Secure stream and its stream is not Secure (R399). -/
def State.ideBlocked (s : State) (f r : Nat) : Bool :=
  s.on (Reg.RING_CTL_IDEREQ f r) && !bitAt (s.get Reg.RING_IDE_SECURE) f

/-- The status record is written (R403). -/
def State.writeStatus (f r : Nat) (s : State) : State :=
  if s.ideBlocked f r then s
  else s.emit (.hostWrite f (64 * s.get (Reg.RING_STADDR_ADDR f r))
    (leBytes 4 (s.get (Reg.RING_STATE_CHEAD f r)) ++ leBytes 4 (s.get (Reg.RING_COUNT_CWRITTEN f r)) ++
     [BitVec.ofNat 8 (s.ringState f r), BitVec.ofNat 8 (s.get (Reg.RING_STATE_ERRSTATUS f r))] ++ zeros 6))

/-- A ring takes a state, and its status record says so (R403). -/
def State.setRingState (f r st : Nat) (s : State) : State :=
  if s.ringState f r = st then s else (s.set (Reg.RING_STATE_STATE f r) st).writeStatus f r

/-- Bytes of the completion record with count `n` (R405). -/
def cplRecord (s : State) (r n log2 : Nat) (c : Cpl) : List Byte :=
  [BitVec.ofNat 8 c.status, BitVec.ofNat 8 c.opcode, BitVec.ofNat 8 r, BitVec.ofNat 8 c.xstatus] ++ c.tag ++
    leBytes 4 c.idx ++ leBytes 2 c.detail ++ leBytes 2 c.ba ++ leBytes 8 c.result ++ leBytes 7 s.tick.toNat ++
    [BitVec.ofNat 8 ((n / 2 ^ log2 + 1) % 2 + 2 * b2n c.event)]

/-- The completion counts toward an interrupt (R425). -/
def Cpl.counts (c : Cpl) : Bool :=
  c.irq || !(c.status == stOK || c.status == stOkCorrected || c.status == stRimeDistance)

/-- The ring's message is sent, and announces every record written before it (R426). -/
def State.ringMsix (f r : Nat) (s : State) : State :=
  (s.modRing f r (fun x => { x with unannounced := 0, irqStart := none })).sendMsix f (s.get (Reg.RING_CTL_VECTOR f r))

/-- One completion record is written: its bytes, the counts, the interrupt (R405, R425, R426). -/
def State.writeCpl (f r : Nat) (c : Cpl) (s : State) : State :=
  let n := s.get (Reg.RING_COUNT_CWRITTEN f r)
  let log2 := s.get (Reg.RING_SIZE_CPLLOG2 f r)
  let s1 := s.emit (.hostWrite f (64 * s.get (Reg.RING_CPLBASE_ADDR f r) + 32 * (n % 2 ^ log2)) (cplRecord s r n log2 c))
  let s2 := s1.set (Reg.RING_COUNT_CWRITTEN f r) (n + 1)
  let s3 := if c.dispatched then s2.set (Reg.RING_COUNT_INFLIGHT f r) (s2.get (Reg.RING_COUNT_INFLIGHT f r) - 1) else s2
  if s3.on (Reg.RING_CTL_IRQEN f r) && c.counts then
    let u := (s3.ring f r).unannounced + 1
    let s4 := s3.modRing f r (fun x =>
      { x with unannounced := u
               irqStart := if x.irqStart.isSome then x.irqStart else some s3.tick })
    if u ≥ s4.get (Reg.RING_IRQ_COUNT f r) then s4.ringMsix f r else s4
  else s3

/-- Completion records that the host has not consumed (R423). -/
def State.unread (s : State) (f r : Nat) : Nat :=
  (s.get (Reg.RING_COUNT_CWRITTEN f r) + 2 ^ 32 - (s.ring f r).rhead) % 2 ^ 32

/-- The ABORT commands that waited for a target's completion complete after it, with RESULT 1 (R424). -/
def State.queueAborts (f : Nat) (l : List (Nat × Nat)) (s : State) : State :=
  l.foldl (fun s a =>
    match (s.ring f a.1).cmds.find? (fun c => c.idx == a.2) with
    | none => s
    | some c => s.modRing f a.1 (fun x =>
        { x with
          cmds := x.cmds.filter (fun c => c.idx != a.2)
          cpls := x.cpls ++ [{ status := stOK, opcode := leAt c.desc 0 1, tag := slice c.desc 4 4, idx := a.2, result := 1,
                               irq := bitAt (leAt c.desc 1 1) 1, dispatched := false }] })) s

/-- The completions of a ring that can be written are written, in their order; a held ring writes none (R399), a full
completion ring none (R423), one of a tenancy that is being destroyed none (R443). A stopping ring whose last completion is written is off (R430). -/
def State.flushRing (f r : Nat) : Nat → State → State
  | 0, s => s
  | k + 1, s =>
    match (s.ring f r).cpls with
    | [] =>
      if s.ringState f r = ringStopping ∧ (s.ring f r).cmds = [] then s.setRingState f r ringOff else s
    | c :: cs =>
      if (s.ten f).destroying ∨ s.ideBlocked f r ∨ s.unread f r ≥ 2 ^ s.get (Reg.RING_SIZE_CPLLOG2 f r) ∨ s.ringState f r = ringOff then s
      else
        let s1 := (s.modRing f r (fun x => { x with cpls := cs })).writeCpl f r c
        State.flushRing f r k (s1.queueAborts f c.abortedBy)

/-- Every ring of a function writes what it can. -/
def State.flushFunc (f : Nat) (s : State) : State :=
  (List.range 16).foldl (fun s r => s.flushRing f r ((s.ring f r).cpls.length + (s.ring f r).cmds.length + 1)) s

/-- The twin pairs of a LAUNCH end with it (R524). -/
def State.endTwins (pairs : List (Nat × Nat)) (s : State) : State :=
  let s1 : State := { s with twins := s.twins.filter (fun w => !pairs.contains (w.primary, w.shadow)) }
  pairs.foldl (fun s p => (s.set (Reg.TILE_TWIN_EN p.1) 0).set (Reg.TILE_TWIN_EN p.2) 0) s1

/-- A command ends with a status and the fields of its record: it leaves its ring's commands, and its completion takes its
place in the order in which commands end (R423). The first failure it had decides (R35); otherwise a warning or a correction
on its path does (R428). -/
def State.endCmd (f r : Nat) (c : RingCmd) (status result : Nat) (s : State) : State :=
  let e := c.fail.getD { status := status }
  let st := if e.status = stOK ∧ c.warned then stRimeDistance
    else if e.status = stOK ∧ c.corrected then stOkCorrected else e.status
  let rec' : Cpl :=
    { status := st, xstatus := if leAt c.desc 0 1 = 2 then e.xstatus else 0, opcode := leAt c.desc 0 1, tag := slice c.desc 4 4
      idx := c.idx, detail := e.detail, ba := e.ba, result := result, irq := bitAt (leAt c.desc 1 1) 1, event := c.logged
      dispatched := c.st != .fetched && leAt c.desc 0 1 != 3, abortedBy := c.abortedBy }
  ((s.endTwins c.pairs).modRing f r (fun x =>
    { x with cmds := x.cmds.filter (fun d => d.idx != c.idx), cpls := x.cpls ++ [rec'] })).flushFunc f

/-- The command with count `idx` of a ring. -/
def State.cmd (s : State) (f r idx : Nat) : Option RingCmd := (s.ring f r).cmds.find? (fun c => c.idx == idx)

/-- Every ring of every function, with its numbers, in ring order: functions ascending, then rings. -/
def ringNumbers : List (Nat × Nat) :=
  (List.range 17).flatMap (fun f => (List.range 16).map (fun r => (f, r)))

/-- Bundles issued by the tiles of a placement (R413). -/
def State.issuedBy (s : State) (place : Nat) : Nat :=
  (bitList 64 place).foldl (fun n g => n + s.get (Reg.TILE_PERF_ISSUED g)) 0

/-- Bundles issued by every tile of a LAUNCH (R413): those of the tiles that it still has, and of those that a later LAUNCH took. -/
def State.issuedOf (s : State) (c : RingCmd) : Nat := c.issued + s.issuedBy c.place

/-- The opcode of a command. -/
def RingCmd.op (c : RingCmd) : Nat := leAt c.desc 0 1

/-- An event about a command is recorded, and its completion will say so (R405, R537). -/
def State.logCmd (f r : Nat) (c : RingCmd) (e : EvRec) (s : State) : State :=
  (s.logEvent { e with func := f, ring := r, index := c.idx, tenancy := f }).modCmd f r c.idx
    (fun c => { c with logged := true })

/-- A flit of the ring engine's copy: the command with count `idx` of a ring. -/
def Flit.ofCopy (f r idx : Nat) (x : Flit) : Bool :=
  (x.src == 0x01 || x.dest == 0x01) && x.remote.any (fun m => m.mod == f && m.tile == r && m.dseq == idx)

/-- A running or dispatched command ends because of something outside it: its tiles stop with the code, and it completes with
the status; a LAUNCH carries the code and the bundles issued, a copy stops and carries the bytes it moved
(R413, R424, R442). -/
def State.cutCmd (f r code status : Nat) (c : RingCmd) (s : State) : State :=
  if c.op = 2 then
    let s1 := if c.st = .running then s.stopPlacement code status c.place else s
    let c' := { c with fail := some (c.fail.getD { status := status, xstatus := code }) }
    s1.endCmd f r c' status (if c.st = .running then s1.issuedOf c else 0)
  else
    let s1 : State := if c.op = 0x12 ∨ c.op = 0x13 then
        { s with
          flits := s.flits.filter (fun x => !x.ofCopy f r c.idx)
          hcq := s.hcq.map (fun q => q.filter (fun x => !x.flit.ofCopy f r c.idx)) }
      else s
    (s1.rimeForget (f, r, c.idx)).endCmd f r { c with fail := some (c.fail.getD { status := status }) } status
      (if c.op = 0x12 ∨ c.op = 0x13 ∨ c.op = 0x31 ∨ c.op = 0x32 then c.moved
       else if 0x51 ≤ c.op then s1.rimeResult (f, r, c.idx) else 0)

/-- Every dispatched, unfinished command that `p` picks completes with a status, in ring order; fetched ones get none
(R47, R435, R521). -/
def State.cutAll (p : Nat → RingCmd → Bool) (code status : Nat) (s : State) : State :=
  ringNumbers.foldl (fun s fr =>
    ((s.ring fr.1 fr.2).cmds.filter (fun c => c.st != .fetched && c.op != 3 && p fr.1 c)).foldl
      (fun s c => s.cutCmd fr.1 fr.2 code status c) s) s

/-- What a function-level reset does to a function's rings (R432): they stop with no completion, its LAUNCHes stop with code 0x24, its
copies, waits and Rime commands end, its ring blocks return to reset. Each stopped LAUNCH and Rime command is
logged (R483). -/
def State.resetRings (f : Nat) (s : State) : State :=
  let s1 := (List.range 16).foldl (fun s r =>
    (s.ring f r).cmds.foldl (fun s c =>
      if c.op = 2 ∧ c.st = .running then
        ((s.stopPlacement 0x24 stAbortedHost c.place).endTwins c.pairs).logEvent
          { kind := 0x11, status := stAbortedHost, func := f, ring := r, index := c.idx, tenancy := f
            body := [BitVec.ofNat 8 f, BitVec.ofNat 8 r, 0] }
      else if 0x50 ≤ c.op ∧ c.st = .running then
        (s.rimeForget (f, r, c.idx)).logEvent
          { kind := 0x11, status := stAbortedHost, func := f, ring := r, index := c.idx, tenancy := f
            body := [BitVec.ofNat 8 f, BitVec.ofNat 8 r, 0] }
      else s) s) s
  let s1 : State := { s1 with
    flits := s1.flits.filter (fun x => !((x.src == 0x01 || x.dest == 0x01) && x.remote.any (fun m => m.mod == f)))
    hcq := s1.hcq.map (fun q => q.filter (fun x => !(x.flit.src == 0x01 && x.flit.remote.any (fun m => m.mod == f)))) }
  let s2 := (List.range 16).foldl (fun s r => s.modRing f r (fun _ => {})) s1
  s2.unsetRange (0x208000 + 0x10000 * f) (0x209000 + 0x10000 * f)

/-- A function-level reset of a function (R432): of its rings, and its MSI-X state returns to reset. -/
def State.resetFunc (f : Nat) (s : State) : State := (s.resetRings f).modFunc f (fun h => { h with msix := {} })

end Sys2Proof.Machine
end

