-- ==== Sys2Proof/Machine/EpochOps.lean ====
section
/-! DEFINITION. Unit epochs and the quiesce (R491 to R504): committing an epoch, asking for a quiesce, fencing a unit in,
what its requesters see, what its reset clears, release and hold. -/

namespace Sys2Proof.Machine

/-- The unit has an epoch (R491). -/
def isUnit (u : Nat) : Bool :=
  u == 0x01 || (0x04 ≤ u && u ≤ 0x13) || u == 0x18 || u == 0x19 || (0x20 ≤ u && u ≤ 0x23) ||
    (0x40 ≤ u && u ≤ 0xBF) || (0xC0 ≤ u && u ≤ 0xD0)

/-- The registers that copy a unit's epoch (R459, R195). -/
def State.copyEpoch (u e : Nat) (s : State) : State :=
  if 0x40 ≤ u ∧ u < 0x80 then s.set (Reg.TILE_STATE_EPOCH (u - 0x40)) e
  else if 0xC0 ≤ u ∧ u ≤ 0xD0 then s.set (Reg.TN_STATE_EPOCH (u - 0xC0)) e
  else s

/-- A unit's epoch becomes `e` in the table, at the unit and at its requesters: when it is first brought to L0 at a start, or
with its tenancy (R491, R439). -/
def State.giveEpoch (u e : Nat) (s : State) : State :=
  ({ s with unitEpoch := s.unitEpoch.setIfInBounds u (BitVec.ofNat 16 e)
            reqEpoch := s.reqEpoch.setIfInBounds u (BitVec.ofNat 16 e) } : State).set (Reg.MC_EPOCH_EPOCH u) e |>.copyEpoch u e

/-- The controller commits the next epoch of a unit, with the reason, and the unit takes it (R495, R496 step 1). -/
def State.commitEpoch (u reason : Nat) (s : State) : State :=
  let e := (s.epoch u + 1) % 65536
  let s1 := ((s.set (Reg.MC_EPOCH_EPOCH u) e).set (Reg.MC_EPOCH_REASON u) reason).set
    (Reg.MC_EPOCH_LASTTICK u) (s.tick.toNat / 1024)
  ({ s1 with unitEpoch := s1.unitEpoch.setIfInBounds u (BitVec.ofNat 16 e)
             lastCommit := spSet 0 s1.lastCommit u (s.tick + 1) } : State).copyEpoch u e

/-- An EPOCH packet of a phase leaves the root, as a broadcast (R495). -/
def State.sendEpoch (u phase reason tenancy : Nat) (s : State) : State :=
  { s with breeze := s.breeze ++
      [{ kind := .epoch, dest := 0xFF, src := 0x00, func := 0x1F, epoch := 0
         beat1 := u + 2 ^ 8 * s.epoch u + 2 ^ 24 * phase + 2 ^ 26 * reason + 2 ^ 30 * tenancy }] }

/-- The unit's epoch last advanced 20 µs ago or more, or never (R494). -/
def State.epochFree (s : State) (u : Nat) : Bool :=
  spGet 0 s.lastCommit u == 0 || s.since (spGet 0 s.lastCommit u - 1) ≥ 20000

/-- Units of a tenancy: its tiles and Rime engines (R442). -/
def State.tenancyUnits (s : State) (t : Nat) : List Nat :=
  (bitList 4 (s.get (Reg.TN_CFG_RIME t))).map (fun d => 0x10 + d) ++
    (bitList 64 (s.get (Reg.TN_TILES_MAP t))).map (fun g => 0x40 + g)

/-- A quiesce is asked for; it waits its turn (R494, R505, R518). -/
def State.askQuiesce (q : Quiesce) (s : State) : State := { s with quiesces := s.quiesces ++ [q] }

/-- A unit-class event holds units: their commands end with INTERNAL, a quiesce with reason CONTAIN that ends as a hold is
asked for, their map bits read 0 for the rest of the start (R521, R140). -/
def State.clearMap (u : Nat) (s : State) : State :=
  if 0x40 ≤ u ∧ u < 0x80 then s.set Reg.ID_TILEMAP_MAP (s.get Reg.ID_TILEMAP_MAP &&& (2 ^ 64 - 1 - 2 ^ (u - 0x40)))
  else if 0x80 ≤ u ∧ u < 0xC0 then s.set Reg.ID_LINKMAP_MAP (s.get Reg.ID_LINKMAP_MAP &&& (2 ^ 64 - 1 - 2 ^ (u - 0x80)))
  else if 0x08 ≤ u ∧ u < 0x10 then s.set Reg.ID_STACKMAP_MAP (s.get Reg.ID_STACKMAP_MAP &&& (2 ^ 8 - 1 - 2 ^ (u - 0x08)))
  else s

/-- The granules that a handle of a command names (R450), none where it names none. -/
def State.handleGrans (s : State) (h : Nat) : List Nat := (s.handle (h % 4096)).grans

/-- The stacks that a range of physical granules touches: in local mode the granule's own, in uniform mode all (R333, R334). -/
def State.granStacks (s : State) (G : Nat) : List Nat :=
  let ns := if s.hbmStacks = 6 then 6 else 8
  if bitAt (s.get Reg.MEM_GROUPMODE_LOCAL) (G / ns) then [s.stackList.getD (G % ns) 0] else s.stackList

/-- The command uses a unit (R522): a LAUNCH the tiles of its placement and their die fabrics, a Rime command its engine and
that die's fabric, a copy the HC of every stack its buffer's extent touches. -/
def State.cmdUses (s : State) (c : RingCmd) (u : Nat) : Bool :=
  let op := c.op
  if op = 0x02 then
    (0x40 ≤ u && u < 0x80 && bitAt c.place (u - 0x40)) ||
      (0x04 ≤ u && u < 0x08 && (bitList 64 c.place).any (fun g => g / 16 == u - 4)) ||
      (0x80 ≤ u && u < 0xC0 && (bitList 64 c.place).any (fun g => (List.range 4).any (fun k =>
        ((s.tile g).chan k).active && (((s.tile g).chan k).reads.contains u || ((s.tile g).chan k).writes.contains u))))
  else if 0x50 ≤ op ∧ op ≤ 0x5F then
    let d := leAt c.desc 8 1 % 4
    u == 0x10 + d || u == 0x04 + d
  else if op = 0x12 ∨ op = 0x13 then
    0x08 ≤ u && u < 0x10 && (s.handleGrans (leAt c.desc 16 8)).any (fun G => (s.granStacks G).contains (u - 8))
  else if op = 0x20 ∨ op = 0x21 then u == 0x19
  else if op = 0x30 ∨ op = 0x31 ∨ op = 0x32 then u == 0x40 + leAt c.desc 8 1 % 64
  else false

/-- Every unfinished command that uses one of the units completes with the status (R521, R522). -/
def State.cutUsers (us : List Nat) (status : Nat) (s : State) : State :=
  s.cutAll (fun _ c => us.any (s.cmdUses c)) 0x23 status

/-- A tenancy has an unfinished command that uses one of the units (R502, R521). -/
def State.stopsTenancy (s : State) (us : List Nat) (t : Nat) : Bool :=
  (List.range 16).any (fun r => (s.ring t r).cmds.any (fun c => c.st != .fetched && c.op != 3 && us.any (s.cmdUses c)))

/-- A unit-class containment event (R521, class 3): record and management event, INTERNAL on the commands that use the units,
the units held by a quiesce with reason CONTAIN, their map bits 0. A die fabric takes its tiles and Rime engine with it; the epoch of each tenancy that it stops advances (R502). -/
def State.contain (us : List Nat) (e : EvRec) (s : State) : State :=
  let all := us ++ (us.filter (fun u => 4 ≤ u && u < 8)).flatMap
    (fun u => (0x10 + (u - 4)) :: (List.range 16).map (fun i => 0x40 + 16 * (u - 4) + i))
  let s1 := (s.classEvent { e with cls := 3, status := stInternal }).cutUsers all stInternal
  let s2 := all.foldl (fun s u => s.clearMap u) s1
  let hit := (List.range 17).filter (fun t => s.stopsTenancy all t)
  let new := all.filter (fun u => !s2.excluded.contains u)
  ({ s2 with excluded := s2.excluded ++ new, heldEv := s2.heldEv ++ new } : State).askQuiesce
    { units := all ++ hit.map (0xC0 + ·), reason := 5, hold := true }

/-- The units that emitted what is still in flight (R496 step 2). -/
def State.emitting (s : State) (u : Nat) : Bool :=
  s.flits.any (fun f => f.src == u) || s.breeze.any (fun p => p.src == u) ||
  s.isobar.any (fun p => match p.src with
    | .slot g => u == 0x40 + g
    | .dma g _ => u == 0x40 + g
    | .rime d => u == 0x10 + d
    | .ring _ _ => u == 0x01
    | .link j _ _ _ => u == 0x80 + j
    | .pooled => u == 0x19)

/-- A later failure of a LAUNCH, or one found when its tile has stopped, goes to the event ring alone (R35, R196). -/
def State.laterFailure (g code status slot ba : Nat) (s : State) : State :=
  let e : EvRec := { kind := 0x0B, cls := 2, status := status, unit := 0x40 + g, tenancy := s.tileTen g
                     body := [BitVec.ofNat 8 code, BitVec.ofNat 8 status, BitVec.ofNat 8 g, BitVec.ofNat 8 slot] ++ leBytes 2 ba }
  match s.launchOf g with
  | some (f, r, c) => s.logCmd f r c e
  | none => s.logEvent e

/-- A tile that has stopped learns that a request of its own got no answer: the failure goes to the event ring (R35, R498). -/
def State.abortGone (u g : Nat) (s : State) : State :=
  if !s.tileBusy g && (List.range 4).any (fun c => ((s.tile g).chan c).gone.contains u) then
    (s.laterFailure g 0x20 stAbortedEpoch 0xF (s.get (Reg.TILE_STATE_BA g))).modTile g (fun t =>
      (List.range 4).foldl (fun t c => t.modChan c (fun x => { x with gone := x.gone.filter (· != u) })) t)
  else s

/-- The requesters of a drained unit see ABORTED_EPOCH (R497, R498): requests queued at it or on their way
to it are discarded, a DMA channel that
waits for its reply raises the DMA exception, the ring engine ends its commands. -/
def State.abortRequesters (u : Nat) (s : State) : State :=
  let s1 := if 0x08 ≤ u ∧ u < 0x10 then { s with hcq := s.hcq.setIfInBounds (u - 8) [] } else s
  let old := fun (f : Flit) => f.dest == u && f.epoch != s1.epoch u && f.typ != .rdata && f.typ != .wack
  let s2 : State := ({ s1 with flits := s1.flits.filter (fun f => !old f) } : State).bump Reg.MC_STALE_FLITS (s1.flits.filter old).length
  let s3 := (List.range 64).foldl (fun s g =>
    if s.tileBusy g && (List.range 4).any (fun c =>
        ((s.tile g).chan c).reads.contains u || ((s.tile g).chan c).writes.contains u) then
      let addr := (((List.range 4).findSome? (fun c =>
        if ((s.tile g).chan c).reads.contains u || ((s.tile g).chan c).writes.contains u
        then ((s.tile g).chan c).descs.head?.map (·.1) else none))).getD 0
      s.raiseExc g 0x20 stAbortedEpoch 0xF addr
    else s.abortGone u g) s2
  s3.cutAll (fun _ c => c.op != 2 && s3.cmdUses c u) 0x23 stAbortedEpoch

/-- The reset time of a unit in ns (R501). -/
def resetTime (u : Nat) : Nat :=
  if 0x40 ≤ u ∧ u < 0x80 then 1000 else if 0x08 ≤ u ∧ u < 0x10 then 2000 else if 0x10 ≤ u ∧ u < 0x14 then 4000
  else if u ≥ 0xC0 then 0 else if u ≥ 0x80 then 0 else 5000

/-- The quiesce that names a unit and stands at a step. -/
def State.quiesceAt (s : State) (p : QPhase) (u : Nat) : Option Quiesce :=
  s.quiesces.find? (fun q => q.phase == p && q.units.contains u)

/-- A quiesce in the list changed. -/
def State.setQuiesce (old new : Quiesce) (s : State) : State :=
  { s with quiesces := s.quiesces.replace old new }

/-- A quiesce under way names the unit (R505). -/
def State.inQuiesce (s : State) (u : Nat) : Bool :=
  s.quiesces.any (fun q => q.phase != .waiting && q.units.contains u)

end Sys2Proof.Machine
end

