-- ==== Sys2Proof/Machine/LinkOps.lean ====
section
/-! DEFINITION. The links' shared operations: states and causes (R368), the wiring rule (R363 to R366), going DOWN and what it
does to the channels (R387), control words (R362, R370), the domain digest (R371), IDENTIFY (R369), peer reachability (R384). -/

namespace Sys2Proof.Machine

/-! ### States and causes (R368, LNK_STATUS) -/

def lnkDisabled : Nat := 0
def lnkTrain : Nat := 1
def lnkQualify : Nat := 2
def lnkIdentify : Nat := 3
def lnkQuarantine : Nat := 4
def lnkActive : Nat := 5
def lnkFenced : Nat := 6
def lnkDown : Nat := 7

def causeFused : Nat := 1
def causeUnused : Nat := 2
def causeOff : Nat := 3
def causeSleep : Nat := 4
def causeQualFail : Nat := 5
def causeWiring : Nat := 6
def causeDigest : Nat := 7
def causeLatency : Nat := 8
def causeTime : Nat := 9
def causeLoss : Nat := 10
def causeReplay : Nat := 11
def causePeerDown : Nat := 12
def causeSpareIdle : Nat := 13

/-- The state of link `j`. -/
def State.linkState (s : State) (j : Nat) : Nat := s.get (Reg.LNK_STATUS_STATE j)

/-- The link exchanges control words with its far end: IDENTIFY, QUARANTINE, ACTIVE or FENCED. -/
def State.linkUp (s : State) (j : Nat) : Bool := 3 ≤ s.linkState j && s.linkState j ≤ 6

/-- The 64-bit form of a control word that the module sends: KIND, PART and BODY (R362). -/
def controlWord (kind part body : Nat) : Nat := kind + 16 * part + 256 * body

/-- A link takes a state with a cause; entries to DOWN, QUARANTINE, FENCED and DISABLED are logged (R368): one that fails commands once for
each, as an event of the tenancy class with the status (R520, R537), another as a notice. -/
def State.setLinkFor (hits : List (Nat × Nat × RingCmd)) (status j st cause : Nat) (s : State) : State :=
  let was := s.linkState j
  let s1 := (s.set (Reg.LNK_STATUS_STATE j) st).set (Reg.LNK_STATUS_CAUSE j) cause
  let e : EvRec :=
    { kind := 0x07, unit := 0x80 + j
      body := [BitVec.ofNat 8 j, BitVec.ofNat 8 st, BitVec.ofNat 8 cause, BitVec.ofNat 8 (s.get (Reg.LNK_STATUS_PEERMOD j)),
               BitVec.ofNat 8 (s.get Reg.LNK_DOM_TIME_FENCED)] }
  if was ≠ st ∧ (st = lnkDown ∨ st = lnkQuarantine ∨ st = lnkFenced ∨ st = lnkDisabled) then
    (if hits.isEmpty then s1.logEvent e
     else hits.foldl (fun s h => s.logCmd h.1 h.2.1 h.2.2 { e with cls := 2, status := status }) s1)
  else s1

/-- A link takes a state that fails no command. -/
def State.setLink (j st cause : Nat) (s : State) : State := s.setLinkFor [] 0 j st cause

/-! ### Wiring (R363 to R367) -/

/-- The module's number, the domain's size, its port count and whether it is joined. -/
def State.modNum (s : State) : Nat := s.get Reg.LNK_DOM_CFG_MODNUM
def State.domN (s : State) : Nat := s.get Reg.LNK_DOM_CFG_N
def State.domP (s : State) : Nat := if s.on Reg.LNK_DOM_CFG_P31 then 31 else 63
def State.joined (s : State) : Bool := s.on Reg.LNK_DOM_CFG_EN

/-- The bond size B (R363). -/
def bondSize (p n : Nat) : Nat := if n < 2 then 0 else p / (n - 1)

/-- The module and the link that link `j` of module `m` reaches, and its bond member (R363). -/
def wiring (n m j : Nat) : Nat × Nat × Nat :=
  let r := j % (n - 1)
  let b := j / (n - 1)
  ((m + r + 1) % n, b * (n - 1) + (n - 2 - r), b)

/-- Link `b` of the bond of module `m` to module `k` (R363). -/
def bondLink (n m k b : Nat) : Nat := b * (n - 1) + (k + n - m - 1) % n

/-- Why a link is DISABLED, or none where it may train (R363, R367, R368). Before the loopback of stage 7 the map bit is not set yet (R132). -/
def State.linkCause (s : State) (j : Nat) : Option Nat :=
  if !s.linkMapped j ∧ !(s.phase = .bringUp ∧ s.portPresent j) then some causeFused
  else if s.linkState j = lnkDisabled ∧ s.get (Reg.LNK_STATUS_CAUSE j) = causeQualFail then some causeQualFail
  else if s.unitHeld (0x80 + j) then some causeOff
  else if j = 63 ∧ !s.on (Reg.LNK_CTL_SPAREEN 63) then some causeSpareIdle
  else if j < 63 ∧ 2 ≤ s.domN ∧ bondSize s.domP s.domN * (s.domN - 1) ≤ j then some causeUnused
  else if !s.on (Reg.LNK_CTL_EN j) then some causeOff
  else if s.get (Reg.PWR_DOM_STATE_STATE (80 + j / 16)) > 1 then some causeSleep
  else none

/-! ### Words -/

/-- A control word waits for a block of its own (R362). -/
def State.queueWord (j kind part body : Nat) (s : State) : State :=
  s.modLink j (fun l => { l with words := l.words ++ [(kind, part, body)] })

/-- A DOWN word leaves on a link that is up (R370). -/
def State.sendDown (j cause : Nat) (s : State) : State :=
  if s.linkUp j then s.emit (.linkWord j (controlWord 7 0 cause)) else s

/-- A DOWN word leaves on every link that is up (R370). -/
def State.sendDowns (cause : Nat) (s : State) : State := (List.range 64).foldl (fun s j => s.sendDown j cause) s

/-- The IDENT body that this module sends on link `j` (R362). -/
def State.identBody (s : State) (j : Nat) : Nat :=
  s.modNum + 2 ^ 6 * j + 2 ^ 12 * s.domN + 2 ^ 19 * s.get Reg.LNK_DOM_CFG_P31 + 2 ^ 20 * b2n (j == 63) +
    2 ^ 21 * (if j = 63 then s.get (Reg.LNK_CTL_SPAREPEER 63) else 0) + 2 ^ 27 * s.get Reg.ID_UNIT_SERIAL +
    2 ^ 91 * s.get (Reg.LNK_TIME_LAMBDA j)

/-- The digest's 48 bytes. -/
def State.digestBytes (s : State) : List Byte :=
  (List.range 6).flatMap (fun i => leBytes 8 (s.get (Reg.LNK_DOM_DIGEST_DIGEST i)))

/-- IDENT and the four DIGEST parts wait to be sent (R368, R369). -/
def State.sendIdentity (j : Nat) (s : State) : State :=
  let s1 := s.queueWord j 2 0 (s.identBody j)
  (List.range 4).foldl (fun s p => s.queueWord j 3 p (leNat (slice s.digestBytes (12 * p) 12))) s1

/-- The domain digest (R371) is computed and reported. MANVER and the window are those of the running image. -/
def State.computeDigest (s : State) : State :=
  let input := leBytes 2 (s.get Reg.ID_COMPAT_LEVELS) ++ leBytes 2 (s.get Reg.ID_COMPAT_ORDERSET) ++
    leBytes 2 (s.get Reg.CS_ACTIVE_MANVER) ++ leBytes 4 (s.get Reg.CS_WINDOW_WINLO) ++ leBytes 4 (s.get Reg.CS_WINDOW_WINHI) ++
    leBytes 1 s.domN ++ leBytes 1 s.domP ++ leBytes 2 (s.get Reg.LNK_DOM_CFG_HOLD) ++ leBytes 1 50 ++ zeros 1 ++
    (List.range 8).flatMap (fun i => leBytes 8 (s.get (Reg.LNK_DOM_DESC_DESC i)))
  let d := sha384 input
  (List.range 6).foldl (fun s i => s.set (Reg.LNK_DOM_DIGEST_DIGEST i) (leAt d (8 * i) 8)) s

/-! ### What a lost link does to the channels (R387) -/

/-- The channels of this module with a flit on the link that is not acknowledged, or with a descriptor under way on it. -/
def State.channelsOn (s : State) (j : Nat) : List (Nat × Nat) :=
  let l := s.link j
  let fl := l.kept.map (·.2) ++ l.q0 ++ l.q1 ++ l.q3
  let sent := fl.filterMap (fun f => if f.smod = s.modNum ∧ (f.kind = 1 ∨ f.kind = 2 ∨ f.kind = 5) ∧ !f.relay
    then some (f.stile, f.ch) else none)
  let act := (List.range 64).flatMap (fun g => (List.range 4).filterMap (fun c =>
    if ((s.tile g).chan c).active && ((s.tile g).chan c).link == some j then some (g, c) else none))
  (sent ++ act).eraseDups

/-- The LAUNCHes whose channels fault with the link. -/
def State.hitBy (s : State) (j : Nat) : List (Nat × Nat × RingCmd) :=
  ((s.channelsOn j).filterMap (fun gc => if s.tileBusy gc.1 then s.launchOf gc.1 else none)).eraseDups

/-- Every channel with an unacknowledged flit on the link faults with the status (R387). -/
def State.failChannels (j status : Nat) (s : State) : State :=
  (s.channelsOn j).foldl (fun s gc =>
    if s.tileBusy gc.1 then
      s.raiseExc gc.1 0x20 status 0xF ((((s.tile gc.1).chan gc.2).descs.head?.map (·.1)).getD 0)
    else s) s

/-- The link engine's buffers empty; flits received and held to their release stay (R391). -/
def Link.cut (at' : Word) (l : Link) : Link :=
  { held := l.held, downAt := at', replayDowns := l.replayDowns, loopback := l.loopback, lastSlot := l.lastSlot, farSerial := l.farSerial }

/-- A link goes to DOWN (R368, R387). -/
def State.linkToDown (j cause : Nat) (s : State) : State :=
  let s1 := s.failChannels j stLinkDown
  let s2 := (s1.modLink j (Link.cut s1.tick)).bump (Reg.LNK_STATUS_DOWNS j) 1
  let s3 := (s2.set (Reg.LNK_QUAL_RXQUAL j) 0).set (Reg.LNK_QUAL_TXQUAL j) 0
  s3.setLinkFor (s.hitBy j) stLinkDown j lnkDown cause

/-- A link becomes DISABLED with a cause (R368). -/
def State.linkDisable (j cause : Nat) (s : State) : State :=
  let s1 := if s.linkUp j then s.failChannels j stLinkDown else s
  let s2 := s1.modLink j (Link.cut s1.tick)
  let s3 := (s2.set (Reg.LNK_QUAL_RXQUAL j) 0).set (Reg.LNK_QUAL_TXQUAL j) 0
  s3.setLinkFor (if s.linkUp j then s.hitBy j else []) stLinkDown j lnkDisabled cause

/-- A link begins to train (R368). -/
def State.linkToTrain (j : Nat) (s : State) : State :=
  (s.modLink j (fun l => { l with rxTrained := false, txTrained := false, trainStart := s.tick, light := false })).setLink
    j lnkTrain 0

/-- A link leaves DISABLED for TRAIN where nothing holds it, or takes the cause that holds it (R368). -/
def State.linkSettle (j : Nat) (s : State) : State :=
  match s.linkCause j with
  | some c =>
    if s.linkState j = lnkDisabled then s.set (Reg.LNK_STATUS_CAUSE j) c else (s.sendDown j 3).linkDisable j c
  | none => if s.linkState j = lnkDisabled then s.linkToTrain j else s

/-- A link bank enters L3, L4 or Off: its links send DOWN and lie DISABLED (R102, R368, R370). -/
def State.bankDown (b : Nat) (s : State) : State :=
  (List.range 16).foldl (fun s i =>
    let j := 16 * b + i
    if s.linkState j = lnkDisabled then s
    else (if s.linkUp j then (s.sendDown j 2).linkToDown j causePeerDown else s).linkDisable j causeSleep) s

/-- The laser of a link's port is on (R76, R79, R91, R95): its bank is in L0 or L1, its port is present and enabled, and the module is neither in
Deep Frost nor in scan mode. -/
def State.laserOn (s : State) (j : Nat) : Bool :=
  s.domState (80 + j / 16) ≤ 1 && s.on (Reg.LNK_CTL_EN j) && (s.linkMapped j || (s.phase == .bringUp && s.portPresent j)) &&
    !s.unitHeld (0x80 + j) && s.frost == .awake && !s.pins.scanEn

/-- A domain's switch opens (R104), and what it held is gone: a bank's links lie DISABLED, a Rime engine's key store is empty, an HC's
requests are lost. -/
def State.switchOff (n : Nat) (s : State) : State :=
  let s1 := if 80 ≤ n ∧ n < 84 then (s.bankDown (n - 80)).openSwitch n
    else if 68 ≤ n ∧ n < 72 then (s.scrubRime (n - 68)).openSwitch n
    else s.openSwitch n
  if 72 ≤ n ∧ n < 80 then { s1 with hcq := s1.hcq.setIfInBounds (n - 72) [] } else s1

/-- A link bank is back in L0: its links train again (R102). -/
def State.bankUp (b : Nat) (s : State) : State :=
  (List.range 16).foldl (fun s i => s.linkSettle (16 * b + i)) s

/-! ### Share maps (R373) -/

/-- A tenancy's own map. -/
def State.ownMap (s : State) (t : Nat) : ShareMap :=
  { gen := s.get (Reg.TN_STATE_MAPGEN t), tiles := s.get (Reg.TN_TILES_MAP t)
    grans := maskOf ((List.range 256).filter (fun G => s.granOwner G == t))
    base := s.get (Reg.PQ_TNCFG_BASE t), count := s.get (Reg.PQ_TNCFG_COUNT t) }

/-- The bodies of the four MAP words of tenancy `t` (R373). -/
def State.mapBodies (s : State) (t : Nat) : List Nat :=
  let m := s.ownMap t
  [t + 2 ^ 5 * m.gen + 2 ^ 21 * m.tiles, bits m.grans 0 112, bits m.grans 112 112,
    bits m.grans 224 32 + 2 ^ 32 * m.base + 2 ^ 44 * m.count]

/-- The MAP words of tenancy `t` wait on a link. -/
def State.queueMap (j t : Nat) (s : State) : State :=
  s.modLink j (fun l => { l with words := l.words ++ (List.range 4).map (fun p => (8, p, (s.mapBodies t).getD p 0)) })

/-- The MAP words of tenancy `t` wait on every link that is up (R373). -/
def State.publishMap (t : Nat) (s : State) : State :=
  (List.range 64).foldl (fun s j => if s.linkUp j then s.queueMap j t else s) s

/-- A tenancy's assignment changed: its map generation goes up and the map is published (R373, R451). -/
def State.newMap (t : Nat) (s : State) : State := (s.wrapAdd (Reg.TN_STATE_MAPGEN t) 1).publishMap t

/-! ### IDENTIFY (R369) -/

/-- Both ends are SYNCED, or one of them is the master (R369). -/
def State.timeAgrees (s : State) (l : Link) : Bool :=
  s.on Reg.LNK_DOM_TIME_ISMASTER ||
    (match l.up with
     | none => false
     | some u => u.isMaster || (s.on Reg.LNK_DOM_TIME_SYNCED && u.synced))

/-- The far end is the one that R363 names, or R367 for L63. -/
def State.wiredRight (s : State) (j : Nat) (d : Ident) : Bool :=
  d.n == s.domN && d.p31 == s.on Reg.LNK_DOM_CFG_P31 &&
    (if j = 63 then d.mod == s.get (Reg.LNK_CTL_SPAREPEER 63) && d.link == 63 && d.spare && d.target == s.modNum
     else d.mod == (wiring s.domN s.modNum j).1 && d.link == (wiring s.domN s.modNum j).2.1 && !d.spare)

/-- A link is admitted: it is ACTIVE, and the maps of every tenancy go out on it (R368, R373). -/
def State.admitLink (j : Nat) (s : State) : State := (List.range 17).foldl (fun s t => s.queueMap j t) (s.setLink j lnkActive 0)

/-- A link in IDENTIFY is judged once the far end's IDENT and its whole digest are known; it is held while EN is 0 (R368,
R369). -/
def State.identify (j : Nat) (s : State) : State :=
  let l := s.link j
  if s.linkState j ≠ lnkIdentify ∨ !s.joined then s
  else match l.ident with
  | none => s
  | some d =>
    if l.digest.length < 4 then s
    else
      let far := (List.range 4).flatMap (fun p => leBytes 12 (((l.digest.find? (fun e => e.1 == p)).map (·.2)).getD 0))
      let s1 := ((s.set (Reg.LNK_STATUS_PEERMOD j) d.mod).set (Reg.LNK_STATUS_PEERLINK j) d.link).set
        (Reg.LNK_PEER_SERIAL j) d.serial
      let limit := 10 * (s.get Reg.LNK_DOM_CFG_HOLD - 20)
      if !s.wiredRight j d then s1.setLink j lnkQuarantine causeWiring
      else if far ≠ s.digestBytes then s1.setLink j lnkQuarantine causeDigest
      else if !s.timeAgrees l then s1.set (Reg.LNK_STATUS_CAUSE j) causeTime
      else if s.get (Reg.LNK_TIME_LAMBDA j) > limit ∨ d.lambda > limit then s1.setLink j lnkQuarantine causeLatency
      else
        let s2 := s1.set (Reg.LNK_STATUS_MEMBER j)
          (if j = 63 then s.get (Reg.LNK_CTL_SPAREMEMBER 63) else (wiring s.domN s.modNum j).2.2)
        if s.on Reg.LNK_DOM_TIME_FENCED ∨ bitAt (s.get (Reg.LNK_DOM_MAP_MAP 1)) d.mod then s2.setLink j lnkFenced 0
        else s2.admitLink j

/-- A link in QUARANTINE whose IDENT or digest changed on either end is identified again (R368). -/
def State.requarantine (j : Nat) (s : State) : State :=
  if s.linkState j = lnkQuarantine then ((s.setLink j lnkIdentify 0).sendIdentity j).identify j
  else s.identify j

/-- Links that reach a module (R363, R367). -/
def State.linksTo (s : State) (m : Nat) : List Nat :=
  (List.range 64).filter (fun j => s.linkUp j && s.get (Reg.LNK_STATUS_PEERMOD j) == m)

/-- LNK_DOM_MAP follows the links: modules reached directly, quarantined, or through a relay (R384, R390). -/
def State.activeTo (s : State) (m : Nat) : Bool :=
  (List.range 64).any (fun j => s.linkState j == lnkActive && s.get (Reg.LNK_STATUS_PEERMOD j) == m)

/-- The relay module toward a peer: the lowest that both ends reach (R384), with the link that reaches it. -/
def State.relayTo (s : State) (m : Nat) : Option (Nat × Nat) :=
  (List.range 64).findSome? (fun k =>
    if k = m ∨ k = s.modNum then none
    else (List.range 64).findSome? (fun j =>
      if s.linkState j = lnkActive ∧ s.get (Reg.LNK_STATUS_PEERMOD j) = k then
        (match (s.link j).up with
         | some u => if bitAt u.active m then some (k, j) else none
         | none => none)
      else none))

/-- The link that carries a descriptor of bond member `b` to module `m` now: the spare that holds the member's slots, or the
member itself (R366, R383). -/
def State.memberLink (s : State) (m b : Nat) : Nat :=
  if s.on (Reg.LNK_STATUS_SPARE 63) && s.get (Reg.LNK_STATUS_PEERMOD 63) == m && s.get (Reg.LNK_STATUS_MEMBER 63) == b then 63
  else bondLink s.domN s.modNum m b

/-- A descriptor's reachability (R384): the link to use and the relay module if there is one, or the status of the fault. -/
def State.reach (s : State) (m b : Nat) (sched : Bool) : (Nat × Option Nat) ⊕ Nat :=
  let held := s.memberLink m b
  let own := bondLink s.domN s.modNum m b
  let j := if !sched && s.linkState held != lnkActive then own else held
  if s.joined && s.linkState j == lnkActive && s.get (Reg.LNK_STATUS_PEERMOD j) == m then .inl (j, none)
  else if s.on Reg.LNK_DOM_TIME_FENCED || bitAt (s.get (Reg.LNK_DOM_MAP_MAP 1)) m then .inr stFenced
  else
    let relay := if !sched && !s.activeTo m then s.relayTo m else none
    match relay with
    | some (k, jk) => .inl (jk, some k)
    | none =>
      if (List.range 64).any (fun i => s.linkState i == lnkQuarantine &&
          (s.get (Reg.LNK_STATUS_PEERMOD i) == m || (i < 63 && (wiring s.domN s.modNum i).1 == m)))
      then .inr stQuarantined else .inr stLinkDown

/-- LNK_DOM_MAP[0], [2] and [3] follow the links (R390). -/
def State.syncDomMap (s : State) : State :=
  let others := (List.range 64).filter (fun m => m < s.domN && m ≠ s.modNum)
  let direct := others.filter s.activeTo
  let relay := others.filter (fun m => !s.activeTo m && !bitAt (s.get (Reg.LNK_DOM_MAP_MAP 1)) m && (s.relayTo m).isSome)
  let quar := others.filter (fun m => !s.activeTo m && !bitAt (s.get (Reg.LNK_DOM_MAP_MAP 1)) m && (s.relayTo m).isNone &&
    (List.range 63).any (fun i => s.linkState i == lnkQuarantine && (wiring s.domN s.modNum i).1 == m))
  ((s.set (Reg.LNK_DOM_MAP_MAP 0) (maskOf direct)).set (Reg.LNK_DOM_MAP_MAP 2) (maskOf quar)).set
    (Reg.LNK_DOM_MAP_MAP 3) (maskOf relay)

/-! ### The maps of the peers (R373) -/

/-- The last map received from module `m` for tenancy `t` (R373). -/
def State.peerMap (s : State) (m t : Nat) : ShareMap :=
  ((s.domain.maps.find? (fun e => e.1 == 32 * m + t)).map (·.2)).getD {}

end Sys2Proof.Machine
end

