-- ==== Sys2Proof/Machine/Stop.lean ====
section
/-! DEFINITION. The orderly stop (R47) and what every switched domain's loss of power loses (R48, R198, R353, R463); module-class
events (R521). -/

namespace Sys2Proof.Machine

/-- Offsets of the registers that a stop keeps: the supply event, the restart settings, the retirement records, the withheld
granules, the persisted FORCECOLD, and the boot record's mirror (R48, R59, R141, R146, R521, R539). -/
def keptOffset (o : Nat) : Bool :=
  [Reg.PWR_SUPPLY_EVENT_CAUSE.off, Reg.PWR_RESTART_AUTO.off, Reg.PWR_BANK_CAP.off, Reg.BRU_CTL_FORCECOLD.off, Reg.BRU_RETIRED_T_TILES.off,
   Reg.BRU_RETIRED_L_LINKS.off].contains o ||
  (List.range 4).any (fun i => (Reg.MC_GRANWH_WITHHELD i).off == o) || Reg.CS_BOOT_ACTIVE.off == o

/-- What an unlisted byte of the store reads as: erased. -/
def erasedByte : Byte := 0xFF

/-! ### What a stop leaves half done in the store and the fuses -/

/-- Consecutive one bits from bit 0. -/
def leadingOnes : Nat → Nat → Nat
  | 0, _ => 0
  | n + 1, x => if x % 2 = 1 then 1 + leadingOnes n (x / 2) else 0

/-- The anti-rollback counters: 0 the maker's, 1 the owner's (R557). -/
def State.rollback (s : State) (i : Nat) : Nat := leadingOnes 128 (s.fuse (12 + 2 * i) + 2 ^ 64 * s.fuse (13 + 2 * i))

/-- The counter that a COMMITSVN still raises: 0 the maker's, 1 the owner's (R562). -/
def State.commitNext (s : State) : Option Nat :=
  if s.rollback 0 < s.get Reg.CS_ACTIVE_SVN then some 0
  else if !s.store.ownerKey.isEmpty && s.rollback 1 < s.get Reg.CS_ACTIVE_OSVN then some 1 else none

/-- The next bit of a counter is blown. -/
def State.blowBit (i : Nat) (s : State) : State :=
  let b := s.rollback i
  let w := 12 + 2 * i + b / 64
  { s with fuses := s.fuses.setIfInBounds w (BitVec.ofNat 64 (s.fuse w ||| 2 ^ (b % 64))) }

/-- After a trip the controller completes the bit that it has started (R557). -/
def State.blowStarted (s : State) : State :=
  match s.mbx with
  | some (0x56, _, _) => match s.commitNext with
    | some i => s.blowBit i
    | none => s
  | _ => s

/-- A record of the unit record area waits to be written: 3 settings, 4 retirement (R59, R141, R538). -/
def State.queueRec (kind : Nat) (s : State) : State :=
  { s with store := { s.store with recQ := if s.store.recQ.contains kind then s.store.recQ else s.store.recQ ++ [kind] } }

/-- A supply stop meets the store (R49, R566): the page program in progress completes, of those that follow none is begun; an erase in
progress is abandoned and leaves its sector's bytes unpredictable. How many pages had been done is a free value. -/
def State.cutStore (s : State) : State :=
  let write := fun (a : Nat) (bs : List Byte) (s : State) =>
    { s with store := { s.store with cells := memWrite erasedByte s.store.cells a bs } }
  let sector := fun (n : Nat) (s : State) => (write (65536 * n) (Config.freeBytes s.free 65536).toList s).draw
  let s1 := match s.store.op with
    | some (2, a, n, d) => (write a (d.take (256 * (1 + Config.freeNat s.free % (n / 256)))) s).draw
    | some (3, a, _, _) => sector (a / 65536) s
    | _ => s
  let s2 := match s1.store.erase with
    | some (slot, k) => if s1.store.op.isSome then s1 else sector (384 * slot + k) s1
    | none => s1
  { s2 with store := { s2.store with op := none, erase := none } }

/-- The units that are excluded, not only held by a containment event (R104, R141). -/
def State.ownExcluded (s : State) : List Nat := s.excluded.filter (fun u => !s.heldEv.contains u)

/-- What the boundary-scan port drives is given back when scan mode ends: an instruction of scan mode acts as BYPASS from then on (R90). -/
def Tap.leaveScan (t : Tap) : Tap := if t.drive = 0 then t else { t with ir := 0xFF, drive := 0 }

/-- Every switched domain loses its power: scratchpads, queues, accumulators, HBM, rings, tenancies, epochs, links and engines
are lost, and every register outside the kept ones returns to its reset value. What the world outside has been sent, the time
base, the store, the fuses and what is kept with them stay. -/
def State.loseAll (s : State) : State :=
  { s with
    regs := spClear (fun k => !keptOffset (k / 64 * 8)) s.regs
    tiles := Vector.replicate 64 {}, isobar := [], isoSeq := [], waiters := [], touched := [], pqs := [], flits := []
    hcq := Vector.replicate 8 [], hbm := [], moved := [], poison := [], rewrites := [], slotsJ := [], slotsB := [], slotsM := []
    slotsL := [], breeze := [], rings := Vector.replicate 17 (Vector.replicate 16 {}), polls := (0, 0)
    funcs := Vector.replicate 17 {}, vfEnable := false, tens := Vector.replicate 17 {}
    granules := Vector.replicate 256 31, handles := [], unitEpoch := Vector.replicate 256 0
    reqEpoch := Vector.replicate 256 0, lastCommit := [], quiesces := [], evRings := Vector.replicate 18 {}, coalesce := []
    twins := [], excluded := [], mgmt := {}, doms := Vector.replicate 86 {}, links := Vector.replicate 64 {}
    domain := {}, rimes := Vector.replicate 4 {}, hbmLog := [], hbmRow := [], hbmAhead := [], hbmBytes := []
    scrubs := Vector.replicate 8 {}, exclWait := [], retiring := [], turn := [], mbx := none, mbxHeld := [], snap := []
    frost := .awake
    supply := { s.supply with
      slewNow := 100, capNow := 1100, reserveNow := 200, grants := [], busy := []
      rail := ⟨#[750, 0, 0, 0, 0, 0, 0, 0, 0, 0, 0, 0, 0], rfl⟩, railTarget := Vector.replicate 4 0, warm := 0, heat := 0, tripped := 0
      window := 0, charge := [], measured := [], shared := 0, pinSum := 0, pinAvg := 0, burstAt := none }
    pins := { s.pins with alert := false, scanEn := false, tap := s.pins.tap.leaveScan }
    store := { s.store with op := none, erase := none }
    heldEv := []
    boot := { s.boot with lastExcluded := s.ownExcluded, perstAt := none, enumerated := false } }

/-- The stop is latched, with what its record says; the bank is cut off from the input. -/
def State.latchStop (record : List Byte) (s : State) : State :=
  { s with
    phase := .stopping
    boot := { s.boot with afterStop := true }
    supply := { s.supply with stopped := true, stopAt := s.tick, isolated := true, stopRecord := record, stopWritten := false } }

/-- Every dispatched and unfinished command completes with the stop's status, in ring order (R47). Under another status than ABORTED_SAG the
completions are not written yet: within 100 ns a supply trip still turns them into ABORTED_SAG (R93). `dueOut` holds what goes out in the
one case and in the other. -/
def State.stopCompletions (status : Nat) (s : State) : State :=
  let sag := s.cutAll (fun _ _ => true) 0 stAbortedSag
  if status = stAbortedSag then sag
  else
    let s1 := s.cutAll (fun _ _ => true) 0 status
    let new := fun (t : State) => t.out.drop s.out.length
    { s1 with out := s.out, supply := { s1.supply with dueOut := some (new s1, new sag) } }

/-- The completions that a stop still owes are written. -/
def State.flushStop (s : State) : State :=
  match s.supply.dueOut with
  | some (o, _) => { s with out := s.out ++ o, supply := { s.supply with dueOut := none } }
  | none => s

/-- The orderly stop (R47), once latched (R48): each link that is up sends its link-down notice, every dispatched and unfinished
command completes with the status in ring order, every switch opens. `record` is what the stop record says,
`cause` what the link-down notices say (R362). -/
def State.orderlyStop (cause status : Nat) (record : List Byte) (s : State) : State :=
  if s.supply.stopped then s
  else
    let s1 := s.sendDowns cause
    ((s1.stopCompletions status).blowStarted.cutStore.loseAll.set Reg.PWR_IN_STATUS_BAND 4).latchStop record

/-- The SUPPLY and THERMAL records of a stop are written to the provider's ring after the next Ready (R540, R543). -/
def State.keepRecords (es : List EvRec) (s : State) : State :=
  { s with boot := { s.boot with
      events := s.boot.events ++ (es.filter (fun e => e.kind == 0x09 || e.kind == 0x0A)).map (fun e => { e with tick := s.tick }) } }

/-- A module-class event (R521): recorded, reported, and contained by the orderly stop with INTERNAL. The link-down
notices of a thermal one say so (R362). -/
def State.moduleEvent (e : EvRec) (s : State) : State :=
  let e' := { e with cls := 4, status := stInternal }
  ((s.classEvent e').orderlyStop (if e.kind = 0x0A then 5 else 0) stInternal ([BitVec.ofNat 8 e.kind, BitVec.ofNat 8 e.unit] ++ e.body)).keepRecords
    [e']

/-- A fabric error (R284, R330, R520): of a compute die's fabric it is a unit-class event, of the base die's a module-class
event. `net` is 0 Jetstream, 1 Breeze, 2 Isobar; `unit` the station or router; `port` its port. -/
def State.fabricFault (net die unit port : Nat) (s : State) : State :=
  let e : EvRec := { kind := 0x08, unit := unit, body := [BitVec.ofNat 8 net, BitVec.ofNat 8 unit, BitVec.ofNat 8 port] }
  if die < 4 then s.contain [4 + die] e else s.moduleEvent e

/-- A corrected error of a fabric is recorded (R284, R330, R520, R536). -/
def State.fabricCorrected (net unit port : Nat) (s : State) : State :=
  s.logCorrected (0x0800 + net) { kind := 0x08, unit := unit, status := stOkCorrected
                                  body := [BitVec.ofNat 8 net, BitVec.ofNat 8 unit, BitVec.ofNat 8 port] }

end Sys2Proof.Machine
end

