-- ==== Sys2Proof/Machine/StoreOps.lean ====
section
/-! DEFINITION. The configuration store's die (R546 to R549, R554): its bytes, erasing, the records of the unit record area. -/

namespace Sys2Proof.Machine

/-- Bytes of the store. -/
def Store.read (t : Store) (a n : Nat) : List Byte := memRead erasedByte t.cells a n

/-- Bytes programmed into the store. -/
def Store.program (a : Nat) (bs : List Byte) (t : Store) : Store := { t with cells := memWrite erasedByte t.cells a bs }

/-- A sector of 64 KiB erased. -/
def Store.eraseSector (n : Nat) (t : Store) : Store :=
  { t with cells := spClear (fun a => a / 65536 == n) t.cells }

/-- The store of the state changed by `f`. -/
def State.modStore (f : Store → Store) (s : State) : State := { s with store := f s.store }

/-- The next free page and the newest SEQ of a sub-area of the unit record area: 1 boot, 2 owner, 3 settings, 4 retirement, 5 stop,
6 summary. -/
def Store.recAt (t : Store) (kind : Nat) : Nat × Nat :=
  ((t.recPos.find? (fun e => e.1 == kind)).map (·.2)).getD (0, 0)

/-- A record is written (R548): the body pages first and the header page last; where it does not fit in its sector, the other sector of
the sub-area is erased and the record goes there. -/
def Store.writeRecord (kind : Nat) (body : List Byte) (t : Store) : Store :=
  let (page, seq) := t.recAt kind
  let pages := 1 + (body.length + 255) / 256
  let base := 0x3800000 + 0x20000 * (kind - 1)
  let fits := page % 256 + pages ≤ 256 ∧ page ≠ 256 ∧ page < 512
  let p := if fits then page else if page ≤ 256 then 256 else 0
  let t1 := if fits then t else t.eraseSector (base / 65536 + p / 256)
  let h := [BitVec.ofNat 8 kind, 0] ++ leBytes 2 body.length ++ leBytes 4 (seq + 1) ++ zeros 20
  let header := h ++ leBytes 4 (crc32 (h ++ body))
  let t2 := (t1.program (base + 256 * (p + 1)) body).program (base + 256 * p) header
  { t2 with recPos := (kind, p + pages, seq + 1) :: t2.recPos.filter (fun e => e.1 != kind) }

/-- The body of the boot record (R559). -/
def State.bootBody (s : State) : List Byte :=
  [BitVec.ofNat 8 (s.get Reg.CS_BOOT_ACTIVE), BitVec.ofNat 8 (s.get Reg.CS_BOOT_PREV),
   BitVec.ofNat 8 (s.get Reg.CS_BOOT_TRIAL + 2 * b2n s.store.reverted), BitVec.ofNat 8 (s.get Reg.CS_BOOT_TRIES),
   BitVec.ofNat 8 (s.get Reg.CS_BOOT_REVCAUSE), 0, 0, 0] ++ leBytes 4 s.store.aver ++ leBytes 4 s.store.pver

/-- What the boot, settings, retirement, stop and summary records say from now on. -/
def State.keep (kind : Nat) (s : State) : Kept :=
  let k := s.store.kept
  match kind with
  | 1 => { k with bootWord := s.wordOf [Reg.CS_BOOT_ACTIVE, Reg.CS_BOOT_PREV, Reg.CS_BOOT_TRIAL, Reg.CS_BOOT_TRIES, Reg.CS_BOOT_REVCAUSE] }
  | 3 => { k with auto := s.get Reg.PWR_RESTART_AUTO, holdoff := s.get Reg.PWR_RESTART_HOLDOFF
                  forceCold := s.get Reg.BRU_CTL_FORCECOLD, starts := s.startCount }
  | 4 => { k with tiles := s.get Reg.BRU_RETIRED_T_TILES, links := s.get Reg.BRU_RETIRED_L_LINKS
                  withheld := (List.range 4).map (fun i => s.get (Reg.MC_GRANWH_WITHHELD i)), granPoison := s.granPoison
                  lastExcluded := if s.phase = .ready then s.ownExcluded else s.boot.lastExcluded }
  | 5 => { k with cause := s.get Reg.PWR_SUPPLY_EVENT_CAUSE, vatstop := s.get Reg.PWR_SUPPLY_EVENT_VATSTOP
                  stops := s.get Reg.PWR_SUPPLY_EVENT_STOPS }
  | 6 => { k with summary := (List.range 10).map (fun i =>
      (s.wordOf (Reg.row_BRU_REPORT0.fields i 0), s.get (Reg.BRU_REPORT2_DATA i))) }
  | _ => k

/-- A record of the unit record area is written now. The body of the boot record is that of R559; the layout of the others is not
given, so their bytes are free values (256 of them, DESIGN CHOICE; 97 for the owner key). -/
def State.record (kind : Nat) (s : State) : State :=
  let body := if kind = 1 then s.bootBody
    else if kind = 2 then s.store.ownerKey ++ zeros (97 - s.store.ownerKey.length)
    else (Config.freeBytes s.free 256).toList
  let kept := s.keep kind
  let s1 := if kind ≤ 2 then s else s.draw
  s1.modStore (fun t => { t.writeRecord kind body with kept := kept, recQ := t.recQ.filter (· != kind) })

/-- The die carries out one program or erase at a time (R547). -/
def Store.busy (t : Store) : Bool := t.op.isSome || t.erase.isSome

end Sys2Proof.Machine
end

