-- ==== Sys2Proof/Machine/Supply.lean ====
section
/-! DEFINITION. The input bands and the trips (R36 to R50, R66), the faults of the rails (R540), the slew governor's grants (R51 to R53)
and the registers of the supply (R56 to R59). A voltage is in units of 10 mV. -/

namespace Sys2Proof.Machine

/-- The input is watched: the module has left Start wait. -/
def State.powered (s : State) : Bool :=
  match s.phase with
  | .charging | .thermalWait | .bringUp | .ready | .halted | .recovery | .scan | .off => true
  | _ => false

/-- The band, and what follows from it. -/
def State.setBand (b : Nat) (s : State) : State :=
  let s1 := s.set Reg.PWR_IN_STATUS_BAND b
  s1.set Reg.PWR_IN_STATUS_BURST_OK (b2n s1.burstOk)

/-- A supply record of a trip, for the provider's ring after the next Ready (R540). -/
def State.tripRecord (s : State) (cause vin : Nat) : EvRec :=
  { kind := 0x09, cls := 4, status := stAbortedSag, tick := s.tick
    body := [BitVec.ofNat 8 cause, BitVec.ofNat 8 (s.get Reg.PWR_IN_STATUS_BAND)] ++ leBytes 2 vin ++ [0xFF] }

/-- The record of the trip under way lists a further cause: in its first byte the lowest code, and every cause detected after its body (R60).
The spec gives the list no place in the record: bytes 5 on are the model's (DESIGN CHOICE). -/
def listCause (cs : List Nat) (es : List EvRec) : List EvRec :=
  match es.reverse with
  | [] => []
  | e :: rest =>
    (({ e with body := BitVec.ofNat 8 (cs.foldl min 15) :: ((e.body.take 5).drop 1 ++ cs.map (BitVec.ofNat 8)) } : EvRec) :: rest).reverse

/-- A supply trip (R36, R42, R47): the orderly stop with ABORTED_SAG, its cause latched; a second cause within 100 ns joins the first one's
record, and the lowest code stands in CAUSE (R60). A supply cause that meets a thermal stop within 100 ns wins: the commands complete with
ABORTED_SAG (R93). -/
def State.supplyTrip (cause vin : Nat) (s : State) : State :=
  let e := s.tripRecord cause vin
  if s.phase = .stopping then
    if s.since s.supply.stopAt ≤ 100 ∧ !s.supply.causes.contains cause then
      let cs := s.supply.causes ++ [cause]
      let first := s.supply.causes.isEmpty
      let s1 : State := { s with supply := { s.supply with
                                   causes := cs, stopRecord := s.supply.stopRecord ++ [BitVec.ofNat 8 cause]
                                   dueOut := s.supply.dueOut.map (fun o => (o.2, o.2)) }
                                 boot := { s.boot with events := if first then s.boot.events ++ [e] else listCause cs s.boot.events } }
      let s2 := s1.set Reg.PWR_SUPPLY_EVENT_CAUSE (cs.foldl min cause)
      if first then (s2.set Reg.PWR_SUPPLY_EVENT_VATSTOP vin).bump Reg.PWR_SUPPLY_EVENT_STOPS 1 else s2
    else s
  else if !s.powered then s
  else
    let s1 := s.orderlyStop 0 stAbortedSag [BitVec.ofNat 8 cause]
    let s2 := ((s1.set Reg.PWR_SUPPLY_EVENT_CAUSE cause).set Reg.PWR_SUPPLY_EVENT_VATSTOP vin).bump Reg.PWR_SUPPLY_EVENT_STOPS 1
    { s2 with supply := { s2.supply with causes := [cause] }, boot := { s2.boot with events := s2.boot.events ++ [e] } }

/-- SAG (R36, R47). -/
def execSag (vin : BitVec 16) (s : State) : Res :=
  if vin.toNat < 3600 then .next (s.supplyTrip 1 vin.toNat) else .next s

/-- OVERCURRENT (R42): the input switch opens too. -/
def execOvercurrent (vin : BitVec 16) (s : State) : Res :=
  let s1 := s.supplyTrip 2 vin.toNat
  .next (if s.powered then { s1 with supply := { s1.supply with inputOpen := true } } else s1)

/-- OVERVOLT (R36): the input switch opens too. -/
def execOvervolt (vin : BitVec 16) (s : State) : Res :=
  if vin.toNat ≤ 6800 then .next s
  else
    let s1 := s.supplyTrip 3 vin.toNat
    .next (if s.powered then { s1 with supply := { s1.supply with inputOpen := true } } else s1)

/-- SURGE_ENTRY (R36): from the Normal band, and from the Dip band too. -/
def execSurgeEntry (vin : BitVec 16) (s : State) : Res :=
  if s.powered ∧ (s.get Reg.PWR_IN_STATUS_BAND = 1 ∨ s.get Reg.PWR_IN_STATUS_BAND = 2) ∧ vin.toNat > 6000 then
    let s1 := (s.set Reg.PWR_IN_STATUS_DIP_OVERLOAD 0).setBand 3
    .next { s1 with supply := { s1.supply with bandAt := s.tick } }
  else .next s

/-- SURGE_EXIT (R36). -/
def execSurgeExit (vin : BitVec 16) (s : State) : Res :=
  if s.powered ∧ s.get Reg.PWR_IN_STATUS_BAND = 3 ∧ vin.toNat ≤ 6000 then .next (s.setBand 1) else .next s

/-- SURGE_LONG (R36): 100 ms in the Surge band. -/
def execSurgeLong (vin : BitVec 16) (s : State) : Res :=
  if s.get Reg.PWR_IN_STATUS_BAND = 3 ∧ s.since s.supply.bandAt ≥ 100000000 then .next (s.supplyTrip 4 vin.toNat) else .next s

/-- POWER_CONNECTOR_PULL (R66): the break of PRSNT_P is a trip with cause SAG. A stop that runs goes on unchanged (R93). -/
def execPowerConnectorPull (vin : BitVec 16) (s : State) : Res :=
  let s1 := if s.phase = .stopping then s else s.supplyTrip 1 vin.toNat
  .next { s1 with pins := { s1.pins with prsntP := false } }

/-- DIP_ENTRY (R36, R44): from the Normal band, and from the Surge band too; the reduced cap; budget lent into pinned tenancies is returned
first. -/
def execDipEntry (vin : BitVec 16) (s : State) : Res :=
  if s.powered ∧ (s.get Reg.PWR_IN_STATUS_BAND = 1 ∨ s.get Reg.PWR_IN_STATUS_BAND = 3) ∧ 3600 ≤ vin.toNat ∧ vin.toNat < 4000 then
    .next ((s.setBand 2).set Reg.PWR_IN_SAMPLE_VIN vin.toNat).rebudget
  else .next s

/-- DIP_EXIT (R36, R46). -/
def execDipExit (vin : BitVec 16) (s : State) : Res :=
  if s.powered ∧ s.get Reg.PWR_IN_STATUS_BAND = 2 ∧ vin.toNat ≥ 4100 then
    .next (((s.set Reg.PWR_IN_SAMPLE_VIN vin.toNat).setBand 1).set Reg.PWR_IN_STATUS_DIP_OVERLOAD 0).rebudget
  else .next s

/-- The tiles that a dip or a throttle steps (R44, R83): those of tenancies that are not pinned; where only compute dies are hot, of the
tenancies that hold a tile of such a die. -/
def State.steppable (s : State) (g : Nat) : Bool :=
  let t := s.tileTen g
  let whole := s.overPower || s.supply.heat ≥ 16 || s.on Reg.PWR_BUDGET_STATUS_RESERVE_OVER
  t ≤ 16 && !s.tnPinned t && s.domState g != 5 &&
    (whole || (s.tenTiles t).any (fun h => bitAt s.supply.heat (h / 16)))

/-- A tile was stepped less than 20 µs ago (R93, R126). -/
def State.steppedLately (s : State) (g : Nat) : Bool :=
  match (s.dom g).stepAt with | some a => s.since a < 20000 | none => false

/-- Tiles of pinned tenancies that wait in L0, for what throttles to hold in L1 (R44, R83): with only compute dies hot, those of tenancies that
hold a tile of such a die. -/
def State.lullable (s : State) (g : Nat) : Bool :=
  let t := s.tileTen g
  t ≤ 16 && s.tnPinned t && s.run g == runWait && s.domState g == 0 && !s.on (Reg.PWR_DOM_CTL_HOLD g) &&
    (s.overPower || s.supply.heat ≥ 16 || s.on Reg.PWR_BUDGET_STATUS_RESERVE_OVER || (s.tenTiles t).any (fun h => bitAt s.supply.heat (h / 16)))

/-- A waiting tile is held in L1 until its wait ends, with no change to its wake time (R44). -/
def State.lull (g : Nat) (s : State) : State := (s.enterSleep g 1).modDom g (fun d => { d with lulled := true })

/-- UNPINNED_STEP_DOWN (R44, R83): every tile of an unpinned tenancy steps down by one, not twice within 20 µs. Where none can step any
further, the waiting tiles of pinned tenancies are held in L1. Where none of these is left and the cap of a dip is still exceeded,
DIP_OVERLOAD is set and a warning logged (R45). -/
def execUnpinnedStepDown (s : State) : Res :=
  if s.phase ≠ .ready ∨ !s.throttled then .next s
  else
    let gs := (List.range 64).filter s.steppable
    let down := gs.filter (fun g => (s.dom g).held + (s.dom g).forced < 3)
    let s1 := (down.filter (fun g => !s.steppedLately g)).foldl (fun s g =>
      let s1 := s.modDom g (fun d => { d with forced := d.forced + 1, stepAt := some s.tick })
      s1.stepDomain g (min 3 ((s1.dom g).held + (s1.dom g).forced))) s
    let waits := (List.range 64).filter s.lullable
    if down.isEmpty ∧ !waits.isEmpty then .next (waits.foldl (fun s g => s.lull g) s1)
    else if down.isEmpty ∧ s.get Reg.PWR_IN_STATUS_BAND = 2 ∧ s.overPower ∧ !s.on Reg.PWR_IN_STATUS_DIP_OVERLOAD then
      .next ((s1.set Reg.PWR_IN_STATUS_DIP_OVERLOAD 1).supplyWarning 0 0xFF 31)
    else .next s1

/-- UNPINNED_STEP_UP (R46): out of the Dip band, steps that a dip or a throttle took are raised by one every 20 µs, each within the slew
limit. -/
def execUnpinnedStepUp (s : State) : Res :=
  if s.phase ≠ .ready ∨ s.throttled ∨ s.get Reg.PWR_IN_STATUS_BAND = 2 then .next s
  else
    let gs := (List.range 64).filter (fun g => (s.dom g).forced > 0 && !s.steppedLately g)
    .next (gs.foldl (fun s g =>
      let s1 := s.modDom g (fun d => { d with forced := d.forced - 1, stepAt := some s.tick })
      s1.applyStep g (min 3 ((s1.dom g).held + (s1.dom g).forced))) s)

/-- RIPPLE (R38): above its limits, or no longer within the last 1 ms. -/
def execRipple (on : Bool) (s : State) : Res :=
  if !s.powered then .next s
  else if on then .next ((s.set Reg.PWR_IN_STATUS_RIPPLE 1).supplyWarning 0 0xFF 31)
  else .next (s.set Reg.PWR_IN_STATUS_RIPPLE 0)

/-- STOP_RECORD_WRITE (R49): on hold-up energy the stop record goes into the store; the module stands in Start wait (R48). -/
def execStopRecordWrite (s : State) : Res :=
  if s.phase ≠ .stopping then .next s
  else
    let s1 := (s.flushStop.record 5).set Reg.PWR_IN_STATUS_BAND 0
    .next { s1 with phase := .startWait, boot := { s1.boot with startWaitAt := s.tick }, supply := { s1.supply with stopped := false, stopWritten := true } }

/-- A voltage is out of ±3 % of what a rail is to hold (R39). -/
def offRail (mv nominal : Nat) : Bool := 100 * mv > 103 * nominal || 100 * mv < 97 * nominal

/-- VT_RAIL_FAULT (R39, R540): a die's rail that is on is out of ±3 % of its voltage for 2 µs: a unit-class event; the die's tile and Rime
switches open. -/
def execVtRailFault (die : Fin 4) (mv : BitVec 16) (s : State) : Res :=
  if (s.phase ≠ .ready ∧ s.phase ≠ .bringUp) ∨ s.railGoal die.val = 0 ∨ !offRail mv.toNat (s.railMv die.val) then .next s
  else
    let d := die.val
    let us := (0x10 + d) :: (List.range 16).map (fun i => 0x40 + 16 * d + i)
    let body := [0, BitVec.ofNat 8 (s.get Reg.PWR_IN_STATUS_BAND)] ++ leBytes 2 (s.get Reg.PWR_IN_SAMPLE_VIN) ++ [BitVec.ofNat 8 (8 + d)]
    .next (((dieDomains d).foldl (fun s n => s.switchOff n) s).contain us { kind := 0x09, unit := 4 + d, body := body })

/-- OTHER_RAIL_FAULT (R39, R540): a rail that is on is out of ±3 % of its nominal voltage for 2 µs: a module-class event. Rails are numbered
in the order of R62; VT0 to VT3 are 8 to 11. -/
def execOtherRailFault (rail : Fin 16) (mv : BitVec 16) (s : State) : Res :=
  if !s.powered ∨ (8 ≤ rail.val ∧ rail.val < 12) ∨ s.railAtRest rail.val = 0 ∨ !offRail mv.toNat (s.railAtRest rail.val) then .next s
  else
    let body := [0, BitVec.ofNat 8 (s.get Reg.PWR_IN_STATUS_BAND)] ++ leBytes 2 (s.get Reg.PWR_IN_SAMPLE_VIN) ++ [BitVec.ofNat 8 rail.val]
    .next (s.moduleEvent { kind := 0x09, body := body })

/-! ### The slew governor -/

/-- A share has no ramp under way (R52). -/
def State.shareFree (s : State) (share : Nat) : Bool := s.shareEnd share == s.tick

/-- What a quantum was asked for takes place: an exit counts from its grant, a step is taken, full rate is reached at the end of the ramp, a
panel's drizzle ramps down over `ns`; a fall has taken place already. -/
def State.granted (x : Quantum) (ns : Nat) (s : State) : State :=
  match x with
  | .wake n => s.modDom n (fun d => if d.exiting.isSome then { d with granted := some s.tick } else d)
  | .step n k => s.stepDomain n k
  | .full n => s.modDom n (fun d => { d with rate := some (s.tick + BitVec.ofNat 64 ns) })
  | .fall _ => s
  | .drizzle g p => s.drizzleDown g p ns

/-- SLEW_GRANT (R52): the share's first pending quantum is granted as a linear ramp of its current over the share's rate. -/
def execSlewGrant (share : Fin 18) (s : State) : Res :=
  let k := share.val
  match s.supply.grants.find? (fun g => g.1 == k) with
  | none => .next s
  | some g =>
    let rate := s.shareRate k
    if !s.shareFree k ∨ rate = 0 then .next s
    else
      let s1 : State := { s with supply := { s.supply with grants := s.supply.grants.erase g } }
      .next ((s1.takeShare k g.2.2).granted g.2.1 (rampNs g.2.2 rate))

/-- A write of PWR_SLEW (R57): LIMIT reads back at once, and the governor takes it at the next 1 µs boundary. -/
def State.writeSlew (func : Nat) (part : Part) (v : Word) (s : State) : State :=
  let n := bits (partOf (s.get Reg.PWR_SLEW_LIMIT) part v) 0 16
  if n = s.get Reg.PWR_SLEW_LIMIT then s
  else if n < 25 ∨ n > 400 ∨ 9 * n < 10 * s.get Reg.PWR_SLEW_SCHED then s.logRefused Reg.PWR_SLEW_LIMIT.off func v.toNat
  else s.set Reg.PWR_SLEW_LIMIT n

/-- PWR_SLEW_WRITE (R57). -/
def execPwrSlewWrite (part : Part) (v : Word) (s : State) : Res := .next (s.whenReady (State.writeSlew 0 part v))

/-- A write of PWR_DRIZZLE (R58): refused while a scheduled tenancy is started. -/
def State.writeDrizzle (func : Nat) (part : Part) (v : Word) (s : State) : State :=
  let fs := [Reg.PWR_DRIZZLE_WINDOW, Reg.PWR_DRIZZLE_LEVEL]
  let s1 := s.putWord fs part v
  if s.startedTens.any (fun t => s.on (Reg.TN_CFG_MODE t)) ∧ s1 ≠ s then s.logRefused Reg.PWR_DRIZZLE_WINDOW.off func v.toNat else s1

/-- PWR_DRIZZLE_WRITE (R58). -/
def execPwrDrizzleWrite (part : Part) (v : Word) (s : State) : Res := .next (s.whenReady (State.writeDrizzle 0 part v))

/-- A write of PWR_IN_EXTREMES (R56): CLEAR returns the extremes to their reset values. -/
def State.writeExtremes (v : Word) (s : State) : State :=
  if bitAt v.toNat 63 then s.unset [Reg.PWR_IN_EXTREMES_VMIN, Reg.PWR_IN_EXTREMES_VMAX, Reg.PWR_IN_EXTREMES_IPEAK] else s

/-- PWR_IN_EXTREMES_CLEAR (R56). -/
def execPwrInExtremesClear (v : Word) (s : State) : Res := .next (s.whenReady (State.writeExtremes v))

/-- A write of PWR_RESTART (R59): persisted within 10 ms. -/
def State.writeRestart (part : Part) (v : Word) (s : State) : State :=
  (s.putWord [Reg.PWR_RESTART_AUTO, Reg.PWR_RESTART_HOLDOFF] part v).queueRec 3

/-- PWR_RESTART_WRITE (R59). -/
def execPwrRestartWrite (part : Part) (v : Word) (s : State) : Res := .next (s.whenReady (State.writeRestart part v))

end Sys2Proof.Machine
end

