-- ==== Sys2Proof/Machine/FaultOps.lean ====
section
/-! DEFINITION. Faults counted per unit (R538, R539): exclusion, retirement and withholding, and the counts of SRAM errors, SDC
events and poisoned words that reach their thresholds. -/

namespace Sys2Proof.Machine

/-- A RETIRE record (R539): kind 1 tile, 2 link port, 3 granule, 4 Rime engine; action 0 excluded, 1 retired, 2 withheld,
3 undone; the row of the threshold table, 0 for none. -/
def State.retireRec (kind idx action row unit : Nat) (s : State) : State :=
  s.logEvent { kind := 0x10, unit := unit
               body := [BitVec.ofNat 8 kind, BitVec.ofNat 8 idx, BitVec.ofNat 8 action, BitVec.ofNat 8 row] }

/-- The kind and index under which a RETIRE record names a unit. -/
def retireKind (u : Nat) : Nat × Nat :=
  if 0x40 ≤ u ∧ u < 0x80 then (1, u - 0x40) else if 0x80 ≤ u ∧ u < 0xC0 then (2, u - 0x80) else (4, u - 0x10)

/-- The commands that a Rime engine still holds end with INTERNAL (R521). -/
def State.cutEngine (u : Nat) (s : State) : State :=
  if 0x10 ≤ u ∧ u < 0x14 then s.cutAll (fun _ c => 0x50 ≤ c.op && leAt c.desc 8 1 % 4 == u - 0x10) 0x23 stInternal else s

/-- A tile or Rime engine is excluded for the rest of the start (R140, R538): its map bit reads 0, its domain is Off. A tile
whose threshold retires it is retired from the next start (R141). -/
def State.excludeUnit (u row : Nat) (retire : Bool) (s : State) : State :=
  let (kind, idx) := retireKind u
  let s1 :=
    if s.ownExcluded.contains u then s
    else
      let s0 := (((s.cutEngine u).clearMap u).switchOff (unitDom u)).retireRec kind idx 0 row u
      { s0 with excluded := s0.excluded.filter (· != u) ++ [u], heldEv := s0.heldEv.filter (· != u) }
  if retire && !s1.retiring.contains u then
    ({ s1 with retiring := s1.retiring ++ [u] } : State).retireRec kind idx 1 row u
  else s1

/-- The unit runs a command. -/
def State.unitBusy (s : State) (u : Nat) : Bool :=
  if 0x40 ≤ u ∧ u < 0x80 then (s.launchOf (u - 0x40)).isSome
  else if 0x10 ≤ u ∧ u < 0x14 then (s.rime (u - 0x10)).active.isSome else false

/-- A threshold that is not of SDC events is reached: the unit is excluded when the command it runs completes (R538). -/
def State.excludeLater (u row : Nat) (retire : Bool) (s : State) : State :=
  if s.unitBusy u then { s with exclWait := s.exclWait ++ [(u, row, retire)] } else s.excludeUnit u row retire

/-- The units whose command has completed since their threshold was reached are excluded. -/
def State.settleExclusions (s : State) : State :=
  let due := s.exclWait.filter (fun e => !s.unitBusy e.1)
  due.foldl (fun s e => s.excludeUnit e.1 e.2.1 e.2.2) { s with exclWait := s.exclWait.filter (fun e => s.unitBusy e.1) }

/-- A corrected SRAM error of a tile is counted (row 3). -/
def State.countCorrected (g : Nat) (s : State) : State :=
  let n := (s.tile g).corrCount + 1
  let s1 := s.modTile g (fun t => { t with corrCount := n })
  if n = 4096 then s1.excludeLater (0x40 + g) 3 false else s1

/-- An uncorrectable error at an address of a tile's scratchpad, instruction store or accumulators is counted (row 2). `where'`
numbers the structure and its address. -/
def State.countUncorrected (g where' : Nat) (s : State) : State :=
  if (s.tile g).uncorrAddrs.contains where' then s
  else
    let s1 := s.modTile g (fun t => { t with uncorrAddrs := t.uncorrAddrs ++ [where'] })
    if (s1.tile g).uncorrAddrs.length = 2 then s1.excludeLater (0x40 + g) 2 true else s1

/-- An SDC event counts toward a tile at once (row 1, R532); where the tenancy's policy says so the tile is excluded (R533). -/
def State.countSdc (g t : Nat) (s : State) : State :=
  let n := (s.tile g).sdcCount + 1
  let s1 := s.modTile g (fun x => { x with sdcCount := n })
  let s2 := if n = 3 then s1.excludeUnit (0x40 + g) 1 true else s1
  if t ≤ 16 ∧ s2.on (Reg.TN_FPOLICY_SDCEXCL t) then s2.excludeUnit (0x40 + g) 0 false else s2

/-- The SRAM_ECC record of a tile's structure: 0 scratchpad, 1 instruction store, 2 accumulator. -/
def State.sramEvent (g structure' addr panel bank row cls status : Nat) (s : State) : State :=
  let e : EvRec :=
    { kind := 0x06, unit := 0x40 + g, tenancy := s.tileTen g, cls := cls, status := status
      body := [BitVec.ofNat 8 g, BitVec.ofNat 8 structure', 0, 0] ++ leBytes 4 addr ++
        [BitVec.ofNat 8 panel, BitVec.ofNat 8 bank, BitVec.ofNat 8 row] }
  if cls = 1 then s.logCorrected (0x0600 + structure') e else s.logEvent e

/-- A scratchpad word was corrected (R188, R520): counted at the tile and toward its threshold, its LAUNCH completes with
OK_CORRECTED. -/
def State.spCorrected (g addr : Nat) (s : State) : State :=
  (((s.bump (Reg.TILE_ECC_SPCORR g) 1).markCorrected g).countCorrected g).sramEvent g 0 addr 0 0 0 1 stOkCorrected

/-- A word of the instruction store was corrected. -/
def State.isCorrected (g addr : Nat) (s : State) : State :=
  (((s.bump (Reg.TILE_ECC_ISCORR g) 1).markCorrected g).countCorrected g).sramEvent g 1 addr 0 0 0 1 stOkCorrected

/-- An uncorrectable scratchpad word was found by the tile or an engine. -/
def State.spUncorrected (g addr : Nat) (s : State) : State :=
  (s.countUncorrected g (4 * (addr / 8))).sramEvent g 0 addr 0 0 0 2 stUncorrected

/-- An uncorrectable word of the instruction store was found. -/
def State.isUncorrected (g addr : Nat) (s : State) : State :=
  (s.countUncorrected g (4 * (addr / 8) + 1)).sramEvent g 1 addr 0 0 0 2 stUncorrected

/-- A granule is withheld (R538 row 5, R539): ALLOC gives it no more. -/
def State.withhold (G : Nat) (s : State) : State :=
  let f := Reg.MC_GRANWH_WITHHELD (G / 64)
  if bitAt (s.get f) (G % 64) then s
  else (s.set f (s.get f ||| 2 ^ (G % 64))).retireRec 3 G 2 5 0xFF

/-- A poisoned word counts toward its granule once in the granule's life (row 5); the count is kept in the retirement record. -/
def State.countPoison (word : Nat) (s : State) : State :=
  let G := word / 2 ^ 24
  if s.granPoison.contains (G, word) then s
  else
    let s1 := ({ s with granPoison := s.granPoison ++ [(G, word)] } : State).queueRec 4
    if (s1.granPoison.filter (fun e => e.1 == G)).length ≥ 4 then s1.withhold G else s1

end Sys2Proof.Machine
end

