-- ==== Sys2Proof/Machine/VxOps.lean ====
section
/-! DEFINITION. The vector engine: arithmetic of a lane (R263), compares, row reductions (R267), VRSUB and ROWSOFTMAX (R268, R269),
operands (R256 to R258), the checks at issue (R262), and one operation run on a tile. -/

namespace Sys2Proof.Machine

/-! ### Lanes -/

/-- A result rounded once to A35, or saturated to the 35-bit integer range (R263); the flag is ISAT. A zero keeps its sign only where
`sign` says so and never in an integer operation. -/
def laneRound (int sign : Bool) (x : Num) : Num × Bool :=
  if int then
    let r := x.toSat 35
    (.ofInt r.1, r.2)
  else if x.isZero && !sign then (.zero, false) else (rnd35 x, false)

/-- The larger or the smaller of two numbers, −0 below +0 (R263). -/
def laneMax (a b : Num) : Num := if a.isNan || b.isNan then .nan else if a.below b then b else a
def laneMin (a b : Num) : Num := if a.isNan || b.isNan then .nan else if b.below a then b else a

/-- An element operation on an enabled lane (R261, R263), and ISAT: `c` is the old element of DST. -/
def laneOp (op : Nat) (int : Bool) (a b c : Num) : Num × Bool :=
  match op with
  | 0x04 => laneRound int false (a.add b)
  | 0x05 => laneRound int false (a.sub b)
  | 0x06 => laneRound int true (a.mul b)
  | 0x07 => laneRound int false ((a.mul b).add c)
  | 0x08 => (laneMin a b, false)
  | 0x09 => (laneMax a b, false)
  | 0x0A => if int then laneRound true false a.abs else (a.abs, false)
  | 0x0B => if int then laneRound true false a.flip else (a.flip, false)
  | _ => (a, false)

/-- A compare (R261, R263): 0 EQ, 1 NE, 2 LT, 3 LE, 4 UNORDERED. -/
def laneCmp (sub : Nat) (a b : Num) : Bool :=
  let un := a.isNan || b.isNan
  match sub with
  | 0 => a.eqv b
  | 1 => un || !a.eqv b
  | 2 => a.lt b
  | 3 => a.lt b || a.eqv b
  | _ => un

/-- VRSUB of a lane (R269). -/
def laneRsub (en : Bool) (x m : Num) : Num :=
  if m.isNan then .nan
  else if !en then .inf true
  else if x = .inf true then .inf true
  else if m = .inf false then (if x = .inf false then .zero else if x.isNan then .nan else .inf true)
  else (laneRound false false (x.sub m)).1

/-! ### Rows -/

/-- The position of the first element that `f` picks, at least `i`. -/
def firstAt (f : Num → Bool) : List (Bool × Num) → Nat → Option Nat
  | [], _ => none
  | (e, x) :: l, i => if e && f x then some i else firstAt f l (i + 1)

/-- The result of a reduction: its value, EMPTY, ISAT. -/
structure Reduced where
  val : Num
  empty : Bool
  isat : Bool
  deriving DecidableEq, Repr

/-- VRED (R267) of the lanes of a row with their enables: 0 SUM, 1 SUMSQ, 2 MAX, 3 MIN, 4 ARGMAX. -/
def reduceRow (sub : Nat) (int : Bool) (row : List (Bool × Num)) : Reduced :=
  let xs := (row.filter (·.1)).map (·.2)
  match xs with
  | [] =>
    match sub with
    | 2 => ⟨if int then .ofInt (-(2 ^ 34 : Int)) else .inf true, true, false⟩
    | 3 => ⟨if int then .ofInt (2 ^ 34 - 1) else .inf false, true, false⟩
    | 4 => ⟨.ofInt (-1), true, false⟩
    | _ => ⟨.zero, true, false⟩
  | x :: l =>
    match sub with
    | 0 => let r := laneRound int false (Num.sum xs); ⟨r.1, false, r.2⟩
    | 1 => let r := laneRound int false (Num.sum (xs.map (fun x => x.mul x))); ⟨r.1, false, r.2⟩
    | 2 => ⟨l.foldl laneMax x, false, false⟩
    | 3 => ⟨l.foldl laneMin x, false, false⟩
    | _ =>
      let m := l.foldl laneMax x
      let i := if m.isNan then firstAt Num.isNan row 0 else firstAt (fun y => !y.below m && !m.below y) row 0
      ⟨.ofInt (i.getD 0), false, false⟩

/-- ROWSOFTMAX of a row (R268), and EMPTY. -/
def rowSoftmax (row : List (Bool × Num)) : List Num × Bool :=
  let m := reduceRow 2 false row
  let e := row.map (fun r => (transcendental 0x10 (laneRsub r.1 r.2 m.val)).1)
  let s := reduceRow 0 false (e.map (fun x => (true, x)))
  let r := transcendental 0x17 s.val
  (e.map (fun x => (laneRound false true (x.mul r.1)).1), m.empty || r.2)

/-! ### Issue (R262) -/

/-- The value that a specifier or a mask is read with at issue: an address, a core register. -/
def Tile.specArg (t : Tile) (x : Nat) : Nat :=
  match spKind x with
  | 3 | 4 | 5 => (t.ar (spIdx x % 16)).toNat
  | 6 => (t.gr (spIdx x)).toNat
  | _ => 0

/-- Mask `i` as a number. -/
def Tile.maskArg (t : Tile) (i : Nat) : Nat := (t.mr (i % 8)).toNat

/-- What a vector operation reads at issue: for DST, SA, SB and the mask. -/
def Tile.vxArgs (t : Tile) (w : Nat) : List Nat :=
  match wOp w with
  | 0x30 => [0, t.maskArg (vSA w), t.maskArg (vSB w), 0]
  | 0x31 => [0, t.maskArg (vSA w), 0, 0]
  | 0x32 => [0, (t.gr (spIdx (vSA w))).toNat, 0, 0]
  | _ =>
    if vArith (wOp w) then
      [t.specArg (vDst w), t.specArg (vSA w), t.specArg (vSB w),
       if vMmode w = 1 then t.maskArg (vMidx w) else if vMmode w = 2 then (t.ar (8 + vMidx w)).toNat else 0]
    else [0, 0, 0, 0]

/-- The places of an operation on vectors: specifier, whether it is the destination, its element size, its vectors. -/
def vPlaces (w : Nat) : List (Nat × Bool × Nat × Nat) :=
  [(vSA w, false, fmtSize (vFmt w), vCount w)] ++
  (if vTwo (wOp w) then [(vSB w, false, fmtSize (vFmt w), vCount w)] else []) ++
  (if wOp w = 0x0D then [] else [(vDst w, true, vDstSize w, if wOp w = 0x20 then 1 else vCount w)])

/-- A specifier may stand in its place, whatever the state (R257). -/
def placeOk (w : Nat) (p : Nat × Bool × Nat × Nat) : Bool :=
  let k := spKind p.1
  let i := spIdx p.1
  (if p.2.1 then (if wOp w = 0x20 then k == 1 || k == 4 || k == 6 else k == 1 || k == 3) else 1 ≤ k && k ≤ 6) &&
  (!(3 ≤ k && k ≤ 5) || i < 16) && (k != 1 || i + p.2.2.2 ≤ 64)

/-- The formats and the specifiers of an operation on vectors are ones that it defines (R262, R576). -/
def vShape (w : Nat) : Bool :=
  let op := wOp w
  let int := fmtIsInt (vFmt w)
  !vArith op ||
    ((vFmt w != 7 || op == 3) && !(int && (vTrans op || op == 0x21 || op == 0x22 || (op == 0x20 && vSub w == 1))) && (vPlaces w).all (placeOk w))

/-- The stream extents of an operation: lowest byte, bytes, element size. -/
def Tile.vxExtents (t : Tile) (w : Nat) : List (Nat × Nat × Nat) :=
  (vPlaces w).filterMap (fun p =>
    let a := t.specArg p.1
    match spKind p.1 with
    | 3 => some (a, 64 * p.2.2.2 * p.2.2.1, p.2.2.1)
    | 4 => some (a, p.2.2.1, p.2.2.1)
    | 5 => some (a, p.2.2.2 * p.2.2.1, p.2.2.1)
    | _ => none) ++
  (if vMmode w = 2 then [((t.ar (8 + vMidx w)).toNat, 8 * vCount w, 8)] else [])

/-- The first check that fails at issue and depends on the state, as a status (R262). -/
def Tile.vxCheck (t : Tile) (claim : Option (Nat × Nat)) (w : Nat) : Option Nat :=
  let op := wOp w
  let c := claimAfter claim t.vq
  if op = 1 then (if c.isSome then some stBadOpcode else none)
  else if op = 2 then (if c.isNone then some stBadOpcode else none)
  else if !vArith op then none
  else if c.isNone && (vPlaces w).any (fun p => spKind p.1 == 1) then some stBadOpcode
  else
    let ext := t.vxExtents w
    if ext.any (fun e => e.1 % e.2.2 != 0) then some stBadDescriptor
    else if ext.any (fun e => e.1 + e.2.1 > 0x800000) then some stBounds else none

/-- The bundle stalls for the V queue (R271). -/
def Tile.vxStall (t : Tile) (w : Nat) : Bool :=
  match wOp w with
  | 0 | 0x39 => false
  | 0x38 => !t.vq.isEmpty
  | _ => t.vq.length ≥ 4

/-! ### Running an operation -/

/-- What an operation has done so far: the tile, ISAT, the rows that set EMPTY. -/
structure VxRun where
  t : Tile
  isat : Bool := false
  empties : Nat := 0

/-- An accumulator entry as the vector engine reads it (R258): an integer operation takes its bits as an integer, a floating-point one
those of an integer bank as A35. -/
def bankNum (int : Bool) (acc w : Nat) : Num :=
  if int then .ofInt (signed 35 (if acc = 1 then w % 2 ^ 19 else w)) else accVal (if acc = 2 then 0 else acc) w

/-- Elements of a stream, read directly (R257, R273). -/
def Tile.streamNums (t : Tile) (n c a k : Nat) : List Num :=
  let es := fmtSize c
  let bs := t.engineRead (n + a) a (k * es)
  (List.range k).map (fun i => readFmt c (leAt bs (i * es) es))

/-- Vector `k` of a source, and whether an int64 scalar saturated (R255, R257). Rows past 63 of an accumulator bank hold free values: the spec
does not say what a kind-2 operand reads there. -/
def Tile.srcVec (t : Tile) (n acc : Nat) (o : VxOp) (spec arg k : Nat) : List Num × Bool :=
  let w := o.word
  let int := fmtIsInt (vFmt w)
  let r := spIdx spec + k
  let row := fun (pb : Nat × Nat) => (List.range 64).map (fun c =>
    bankNum int acc (if r < 64 then spGet 0 (t.panel pb.1).banks (4096 * pb.2 + 64 * r + c)
      else Config.freeNat (n + 0x1800000 + 64 * r + c) % 2 ^ 35))
  match spKind spec with
  | 1 => (match o.claim with | some pb => row pb | none => [], false)
  | 2 => (row (vAccp w, vAccb w), false)
  | 3 => (t.streamNums n (vFmt w) (arg + 64 * k * fmtSize (vFmt w)) 64, false)
  | 4 => (List.replicate 64 ((t.streamNums n (vFmt w) arg 1).headD .zero), false)
  | 5 => (List.replicate 64 ((t.streamNums n (vFmt w) (arg + k * fmtSize (vFmt w)) 1).headD .zero), false)
  | _ =>
    if int then
      let r := satInt 35 (signed 64 arg)
      (List.replicate 64 (.ofInt r.1), r.2)
    else (List.replicate 64 (rnd35 (fmtB64.decode arg)), false)

/-- The mask of vector `k` (R256). Words of a mask stream that stand behind the arguments were being written as the operation read them (R276). -/
def Tile.maskVec (t : Tile) (n : Nat) (o : VxOp) (k : Nat) : List Bool :=
  let m := o.args.getD 3 0
  let word := match vMmode o.word with
    | 0 => 2 ^ 64 - 1
    | 1 => m
    | _ => (o.args[4 + k]?).getD (leNat (t.engineRead (n + m + 8 * k) (m + 8 * k) 8))
  (List.range 64).map (bitAt word)

/-- A result as a word of the claimed bank (R258): VCVT rounds to its destination format first. -/
def bankWord (w acc : Nat) (x : Num) : Nat × Bool :=
  if wOp w = 3 then
    let r := writeFmt (vSub w) (vSat w) x
    let b := accBits acc (readFmt (vSub w) r.1)
    (b.1, r.2 || b.2)
  else accBits acc x

/-- Vector `k` of the results is written (R257, R258, R264). -/
def VxRun.writeVec (acc : Nat) (o : VxOp) (k : Nat) (ys : List Num) (r : VxRun) : VxRun :=
  let w := o.word
  if spKind (vDst w) = 1 then
    match o.claim with
    | none => r
    | some (p, b) =>
      let ws := ys.map (bankWord w acc)
      { r with
        t := r.t.modPanel p (fun x => { x with
          banks := (ws.zipIdx).foldl (fun m e => spSet 0 m (4096 * b + 64 * (spIdx (vDst w) + k) + e.2) e.1.1) x.banks })
        isat := r.isat || ws.any (·.2) }
  else
    let f := if wOp w = 3 then vSub w else vFmt w
    let ws := ys.map (writeFmt f (vSat w))
    { r with
      t := r.t.spWrite (o.args.getD 0 0 + 64 * k * fmtSize f) (ws.flatMap (fun e => leBytes (fmtSize f) e.1))
      isat := r.isat || ws.any (·.2) }

/-- The results of vector `k`: element and transcendental operations, VSEL, VRSUB; with ISAT and EMPTY. -/
def VxRun.vector (n acc : Nat) (o : VxOp) (k : Nat) (r : VxRun) : List Num × Bool × Bool :=
  let w := o.word
  let op := wOp w
  let int := fmtIsInt (vFmt w)
  let a := r.t.srcVec n acc o (vSA w) (o.args.getD 1 0) k
  let b := if vTwo op then r.t.srcVec n acc o (vSB w) (o.args.getD 2 0) k else ([], false)
  let c := if op = 7 then (r.t.srcVec n acc o (vDst w) (o.args.getD 0 0) k).1 else []
  let en := r.t.maskVec n o k
  let lanes := (List.range 64).map (fun j =>
    let x := a.1.getD j .zero
    let y := b.1.getD j .zero
    let e := en.getD j false
    if op = 0xC then (if e then x else y, false, false)
    else if op = 0x21 then (laneRsub e x y, false, false)
    else if !e then (Num.zero, false, false)
    else if vTrans op then let z := transcendental op x; (z.1, false, z.2)
    else let z := laneOp op int x y (c.getD j .zero); (z.1, z.2, false))
  (lanes.map (·.1), a.2 || b.2 || lanes.any (·.2.1), lanes.any (·.2.2))

/-- The vectors of an element operation from `k` on, each written `d` vectors after it is read (R270); `pend` are results not written. -/
def VxRun.elements (n acc d : Nat) (o : VxOp) : Nat → Nat → List (Nat × List Num) → VxRun → List (Nat × List Num) × VxRun
  | 0, _, pend, r => (pend, r)
  | m + 1, k, pend, r =>
    let due := pend.filter (fun e => e.1 + d ≤ k)
    let r1 := due.foldl (fun r e => r.writeVec acc o e.1 e.2) r
    let v := r1.vector n acc o k
    VxRun.elements n acc d o m (k + 1) (pend.filter (fun e => !(e.1 + d ≤ k)) ++ [(k, v.1)])
      { r1 with isat := r1.isat || v.2.1, empties := r1.empties + b2n v.2.2 }

/-- How many vectors after it is read a vector is written (R270). -/
def vDelay (op : Nat) : Nat := if vTrans op then 3 else 6

/-- The row that SA's vectors form, with its enables. -/
def Tile.vxRow (t : Tile) (n acc : Nat) (o : VxOp) : List (Bool × Num) :=
  (List.range (vCount o.word)).flatMap (fun k => (t.maskVec n o k).zip (t.srcVec n acc o (vSA o.word) (o.args.getD 1 0) k).1)

/-- Bytes of the destination that a source stream overlaps in part (R276): address and length. -/
def VxOp.clash (o : VxOp) : List (Nat × Nat) :=
  let w := o.word
  if wOp w = 0x20 ∨ wOp w = 0x22 ∨ wOp w = 0x0D ∨ spKind (vDst w) ≠ 3 then []
  else
    let d := o.args.getD 0 0
    let dn := 64 * vCount w * vDstSize w
    let es := fmtSize (vFmt w)
    let src := fun (spec arg : Nat) => match spKind spec with
      | 3 => if arg = d ∧ es = vDstSize w then [] else [(arg, 64 * vCount w * es)]
      | 4 => [(arg, es)]
      | 5 => [(arg, vCount w * es)]
      | _ => []
    let all := src (vSA w) (o.args.getD 1 0) ++ (if vTwo (wOp w) then src (vSB w) (o.args.getD 2 0) else []) ++
      (if vMmode w = 2 then [(o.args.getD 3 0, 8 * vCount w)] else [])
    all.filterMap (fun e =>
      let lo := max d e.1
      let hi := min (d + dn) (e.1 + e.2)
      if lo < hi then some (lo, hi - lo) else none)

/-- The value that lands in a core register at the end of an operation. -/
def VxOp.landed (o : VxOp) (row : Unit → Reduced) (cmp : Unit → Nat) : Nat :=
  let w := o.word
  let x := o.args.getD 1 0
  let y := o.args.getD 2 0
  match wOp w with
  | 0x30 =>
    (match vSub w with
     | 0 => x &&& y
     | 1 => x ||| y
     | 2 => x &&& (2 ^ 64 - 1 - y)
     | 3 => 2 ^ 64 - 1 - x
     | 4 => 2 ^ 64 - 1
     | _ => 0)
  | 0x31 | 0x32 => x
  | 0x0D => cmp ()
  | _ =>
    let r := row ()
    if fmtIsInt (vFmt w) || vSub w == 4 then unsigned 64 r.val.nearest else fmtB64.encode false r.val

/-- The first `m` vectors are read and what they wrote by then is written; the results still in flight. -/
def VxOp.part (n acc : Nat) (o : VxOp) (m : Nat) (t : Tile) : List (Nat × List Num) × VxRun :=
  VxRun.elements n acc (vDelay (wOp o.word)) o m 0 [] { t := t }

/-- A whole operation on vectors (R261). -/
def VxOp.run (n acc : Nat) (o : VxOp) (t : Tile) : VxRun :=
  let w := o.word
  match wOp w with
  | 0x20 =>
    let r := reduceRow (vSub w) (fmtIsInt (vFmt w)) (t.vxRow n acc o)
    let scalar := spKind (vSA w) == 6 && fmtIsInt (vFmt w) && (satInt 35 (signed 64 (o.args.getD 1 0))).2
    let run : VxRun := { t := t, isat := r.isat || scalar, empties := b2n r.empty }
    if spKind (vDst w) = 1 then run.writeVec acc o 0 (List.replicate 64 r.val)
    else if spKind (vDst w) = 4 then
      let e := writeFmt (if vSub w = 4 then 6 else vFmt w) (vSat w) r.val
      { run with
        t := t.spWrite (o.args.getD 0 0) (leBytes (vDstSize w) e.1)
        isat := run.isat || (e.2 && !r.empty) }
    else run
  | 0x22 =>
    let y := rowSoftmax (t.vxRow n acc o)
    (List.range (vCount w)).foldl (fun r k => r.writeVec acc o k ((y.1.drop (64 * k)).take 64)) { t := t, empties := b2n y.2 }
  | 0x0D => { t := t, isat := (({ t := t } : VxRun).vector n acc o 0).2.1 }
  | _ =>
    let p := o.part n acc (vCount w) t
    let r := p.1.foldl (fun r e => r.writeVec acc o e.1 e.2) p.2
    { r with t := r.t.freeRows (n + 0x1000000) o.clash }

/-- Row `k` of the first operand that lies in a bank: panel, bank, row (R184). -/
def VxOp.bankRow (o : VxOp) (k : Nat) : Option (Nat × Nat × Nat) :=
  let w := o.word
  ([vSA w] ++ (if vTwo (wOp w) then [vSB w] else []) ++ (if wOp w = 7 then [vDst w] else [])).findSome? (fun x =>
    match spKind x, o.claim with
    | 1, some (p, b) => some (p, b, min (spIdx x + k) 63)
    | 2, _ => some (vAccp w, vAccb w, min (spIdx x + k) 63)
    | _, _ => none)

/-! ### Results that nobody has waited for (R273) -/

/-- The scratchpad after each of the queued vector operations, in order. -/
def Tile.vxAfter (n acc : Nat) (t : Tile) : List VxOp → List Tile
  | [] => []
  | o :: l =>
    let u := if vArith (wOp o.word) then (o.run n acc t).t else t
    u :: Tile.vxAfter n acc u l

/-- A queued vector operation writes the byte. -/
def Tile.vxWrites (t : Tile) (a : Nat) : Bool := t.vq.any (fun o => o.outRows.any (fun r => r.1 ≤ a && a < r.1 + r.2))

/-- Bytes that the core's own view or the DMA engine reads: those that the store buffer holds as R180 says, those that queued vector operations
write old or new, byte by byte (R273). -/
def Tile.looseRead (n acc : Nat) (t : Tile) (a len : Nat) : List Byte :=
  let bs := t.engineRead n a len
  if (List.range len).any (fun i => t.vxWrites (a + i)) then
    let after := t.vxAfter (n + 0x1000000) acc t.vq
    (bs.zipIdx).map (fun e =>
      if t.vxWrites (a + e.2) then
        (match after[Config.freeNat (n + 0x3000000 + e.2) % (after.length + 1)]? with
         | some u => spGet ramByte u.sp (a + e.2)
         | none => e.1)
      else e.1)
  else bs

/-- The mask that VCMP gives (R261, R263): a lane that is not enabled gives 0. -/
def Tile.vxCompare (t : Tile) (n acc : Nat) (o : VxOp) : Nat :=
  let a := (t.srcVec n acc o (vSA o.word) (o.args.getD 1 0) 0).1
  let b := (t.srcVec n acc o (vSB o.word) (o.args.getD 2 0) 0).1
  let en := t.maskVec n o 0
  maskOf ((List.range 64).filter (fun j => en.getD j false && laneCmp (vSub o.word) (a.getD j .zero) (b.getD j .zero)))

end Sys2Proof.Machine
end

