-- ==== Sys2Proof/Machine/NetOps.lean ====
section
/-! DEFINITION. Jetstream's shared operations: positions and ports (R313, R314), the port function π (R316), dynamic routing (R324),
slot entries (R319), twin pairs (R525, R528), a channel's next flit (R343 to R348). -/

namespace Sys2Proof.Machine

/-! ### Positions -/

def tileRow (g : Nat) : Nat := g % 16 / 4
def tileCol (g : Nat) : Nat := g % 4
def tileDie (g : Nat) : Nat := g / 16

/-- The router is at its die's edge, and has vertical ports (R313). -/
def isEdge (g : Nat) : Bool := tileRow g == 0 || tileRow g == 3 || tileCol g == 0 || tileCol g == 3

/-- The local indices of the edge routers, in order of e (R314). -/
def edgeList : List Nat := [0, 1, 2, 3, 4, 7, 8, 11, 12, 13, 14, 15]

/-- The number e of an edge router. -/
def edgeNum (g : Nat) : Nat := edgeList.idxOf (g % 16)

/-- The edge router and the vertical port that the port function gives for tile `g` and an address (R316). -/
def portFn (g addr : Nat) : Nat × Nat :=
  let v := bits addr 9 1
  if isEdge g then (g, v)
  else if bits addr 8 1 = 0 then (16 * tileDie g + 4 * (if tileRow g = 1 then 0 else 3) + tileCol g, v)
  else (16 * tileDie g + 4 * tileRow g + (if tileCol g = 1 then 0 else 3), v)

/-- The mesh step from router `g` toward router `t` of the same die: along the row first (R324). -/
def meshStep (g t : Nat) : Nat :=
  if tileCol g < tileCol t then 3 else if tileCol t < tileCol g then 5 else if tileRow t < tileRow g then 2 else 4

/-- The output of router `g` that a dynamic flit takes. -/
def routerRoute (g : Nat) (f : Flit) : Nat :=
  if 0x40 ≤ f.dest ∧ f.dest < 0x80 ∧ tileDie (f.dest - 0x40) = tileDie g then
    if f.dest - 0x40 = g then f.ch % 2 else meshStep g (f.dest - 0x40)
  else
    let e := portFn (if 0x40 ≤ f.src ∧ f.src < 0x80 ∧ tileDie (f.src - 0x40) = tileDie g then f.src - 0x40 else g) f.addr
    if e.1 = g then 6 + e.2 else meshStep g e.1

/-- The pseudo-channel of an address within its stack. -/
def State.pcsOf (s : State) (addr : Nat) : Nat := (s.hbmPlace addr).2

/-- The quadrant of a unit. -/
def unitQuadrant (u : Nat) : Nat :=
  if 0x08 ≤ u ∧ u < 0x10 then (u - 8) / 2 else if 0x40 ≤ u ∧ u < 0x80 then (u - 0x40) / 16
  else if 0x80 ≤ u ∧ u < 0xC0 then (u - 0x80) / 16 else 0

/-- The output of quadrant `q` that a dynamic flit takes (R324). -/
def State.quadrantRoute (s : State) (q : Nat) (f : Flit) : Nat :=
  let t := unitQuadrant f.dest
  if t ≠ q then 60 + 8 * ((t + 4 - q) % 4 - 1) + bits f.addr 8 3
  else if 0x08 ≤ f.dest ∧ f.dest < 0x10 then 24 + 10 * (f.dest % 2) + s.pcsOf f.addr % 10
  else if 0x80 ≤ f.dest then 44 + (f.dest - 0x80) % 16
  else if 0x40 ≤ f.dest then
    let e := portFn (f.dest - 0x40) f.addr
    2 * edgeNum e.1 + e.2
  else 84

/-- Where a flit stands after it left router `g` through a port (R313, R314), none where the port does not exist. -/
def routerNext (g p : Nat) : Option Loc :=
  match p with
  | 0 | 1 => some .target
  | 2 => if tileRow g = 0 then none else some (.router (g - 4) 4)
  | 3 => if tileCol g = 3 then none else some (.router (g + 1) 5)
  | 4 => if tileRow g = 3 then none else some (.router (g + 4) 2)
  | 5 => if tileCol g = 0 then none else some (.router (g - 1) 3)
  | 6 => if isEdge g then some (.quadrant (tileDie g) (2 * edgeNum g)) else some .target
  | 7 => if isEdge g then some (.quadrant (tileDie g) (2 * edgeNum g + 1)) else none
  | _ => none

/-- Where a flit stands after it left quadrant `q` through a port. -/
def quadrantNext (q p : Nat) : Option Loc :=
  if p < 24 then some (.router (16 * q + edgeList.getD (p / 2) 0) (6 + p % 2))
  else if p < 60 then some .target
  else if p < 84 then
    let k := (p - 60) / 8 + 1
    some (.quadrant ((q + k) % 4) (60 + 8 * (3 - k) + (p - 60) % 8))
  else if p = 84 ∧ q = 0 then some .target else none

/-- The port at which a unit on the base die puts its flits into its quadrant. -/
def State.entryPort (s : State) (f : Flit) : Loc :=
  let u := f.src
  if 0x08 ≤ u ∧ u < 0x10 then .quadrant ((u - 8) / 2) (24 + 10 * (u % 2) + s.pcsOf f.addr % 10)
  else if 0x80 ≤ u then .quadrant ((u - 0x80) / 16) (44 + (u - 0x80) % 16)
  else .quadrant 0 84

/-! ### Slot entries (R319) -/

/-- The slot entry of an output: of a router or of a quadrant. -/
def State.slotEntry (s : State) (l : Loc) (port slot : Nat) : Nat :=
  match l with
  | .router g _ => (spGet 0 s.slotsJ ((8 * g + port) * 1024 + slot)).toNat
  | .quadrant q _ => (spGet 0 s.slotsB ((85 * q + port) * 1024 + slot)).toNat
  | .target => 0

def eSched (e : Nat) : Bool := bitAt e 0
def eTen (e : Nat) : Nat := bits e 1 5
def eInport (e : Nat) : Nat := bits e 6 7
def eCh (e : Nat) : Nat := bits e 13 2

/-- The input port at which a flit stands. -/
def Loc.port : Loc → Nat
  | .router _ p => p
  | .quadrant _ p => p
  | .target => 0

/-- The two places are inputs of one router or one quadrant. -/
def Loc.sameNode : Loc → Loc → Bool
  | .router g _, .router h _ => g == h
  | .quadrant q _, .quadrant r _ => q == r
  | _, _ => false

/-- The entry names the input and, at a local lane, the channel of a scheduled flit of its tenancy (R320). -/
def entryTakes (e : Nat) (f : Flit) : Bool :=
  eSched e && f.sched && eTen e == f.tenancy && eInport e == f.loc.port &&
    (match f.loc with
     | .router _ p => p ≥ 2 || eCh e == f.ch
     | _ => true)

/-- Some slot of an output takes the flit. -/
def State.outputTakes (s : State) (l : Loc) (port : Nat) (f : Flit) : Bool :=
  (List.range 1024).any (fun slot => entryTakes (s.slotEntry l port slot) f)

/-- A flit is a reply (CLASS, R318). -/
def Flit.isReply (f : Flit) : Bool := f.typ == .rdata || f.typ == .wack

/-! ### Twin pairs -/

/-- The tiles that receive what arrives at tile `g`: with a shadow, both of the pair (R525). -/
def State.hearers (s : State) (g : Nat) : List Nat :=
  match s.twinOf g with
  | some w => [g, w.shadow]
  | none => [g]

/-- A flit leaves tile `g`: a shadow sends none (R525), a primary's waits for its window's compare (R528). -/
def State.departFlit (g : Nat) (f : Flit) (s : State) : State :=
  if s.isShadow g then s
  else match s.twinOf g with
  | some _ =>
    { s with twins := s.twins.map (fun w =>
        if w.primary = g then { w with heldFlits := w.heldFlits ++ [(s.window g, f)] } else w) }
  | none => { s with flits := s.flits ++ [f] }

/-! ### A channel's flits -/

/-- The unit that a side of a descriptor names, for an address: own tile, HC, peer tile, link. -/
def State.spaceUnit (s : State) (g space addr : Nat) (ch : Chan) (d : List Byte) : Nat :=
  if space = 1 then 8 + (s.hbmPlace addr).1
  else if space = 2 then 0x40 + s.facing (dPeerTile d)
  else if space = 3 ∨ space = 4 then 0x80 + ch.link.getD 0
  else 0x40 + g

/-- The channel's cursor stands past its last piece. -/
def Chan.atEnd (c : Chan) : Bool :=
  match c.descs with
  | (_, d) :: _ => c.row ≥ dmaRows d
  | [] => true

/-- The cursor past the piece it stands at. -/
def Chan.advance (c : Chan) (d : List Byte) : Chan :=
  if c.off + 1 < (rowPieces d (dmaRow d c.row)).length then { c with off := c.off + 1 } else { c with row := c.row + 1, off := 0 }

/-- The bytes of a copy's source as they stood when it started, where source and destination overlap (R343). -/
def overlay (snap : List Host.Cell) (a : Nat) (bs : List Byte) : List Byte :=
  (List.range bs.length).map (fun i => ((snap.find? (fun e => e.1 == a + i)).map (·.2)).getD (bs.getD i 0))

/-- The flit of the piece at the cursor of channel `c` of tile `g`, and whether the channel then waits for a read or a write. -/
def State.pieceFlit (s : State) (g c : Nat) : Option (Flit × Bool) :=
  let ch := (s.tile g).chan c
  match ch.descs with
  | [] => none
  | (_, d) :: _ =>
    let r := dmaRow d ch.row
    match (rowPieces d r)[ch.off]? with
    | none => none
    | some p =>
      let dst := (r.dst + p.1) % 2 ^ 48
      let t := s.tileTen g
      let lastPiece := (ch.advance d).row ≥ dmaRows d ∧ !tokFollows d
      let remote : Option Remote :=
        if dSrcSpace d = 3 ∨ dSrcSpace d = 4 ∨ dDstSpace d = 3 ∨ dDstSpace d = 4 then
          some { mod := dPeerMod d, tile := dPeerTile d, dseq := ch.seq
                 hbm := dSrcSpace d == 4 || dDstSpace d == 4, last := lastPiece }
        else none
      let base := fun (typ : FlitType) (u addr : Nat) (data : List Byte) (len reply : Nat) =>
        ({ typ := typ, sched := dSched d, tenancy := t, epoch := s.heldEpoch u, dest := u, src := 0x40 + g
           tag := ch.seq % 256, ch := c, addr := addr, data := data, len := len, reply := reply, remote := remote
           loc := .router g (c % 2) } : Flit)
      let wr := fun (data : List Byte) =>
        let u := s.spaceUnit g (dDstSpace d) dst ch d
        (base (if dDstSpace d = 5 then .iswrite else .write) u dst data data.length 0, false)
      match pieceSrc (dConv d) r p.1 p.2 with
      | none => some (wr (zeros p.2))
      | some (a, n) =>
        if dSrcSpace d = 0 then
          some (wr (convBytes (dConv d) (overlay ch.snap a ((s.tile g).looseRead s.free (s.get (Reg.TILE_MX_CFG_ACC g)) a n))))
        else some (base .read (s.spaceUnit g (dSrcSpace d) a ch d) a [] n dst, true)

/-- Channel `c` of tile `g` puts its next flit at its lane when none of its flits stands there (R348). -/
def State.inject (g c : Nat) (s : State) : State :=
  let ch := (s.tile g).chan c
  let busy := s.flits.any (fun f => f.src == 0x40 + g && f.ch == c && f.loc == .router g (c % 2)) ||
    s.twins.any (fun w => w.primary == g && w.heldFlits.any (fun e => e.2.ch == c))
  match ch.descs with
  | [] => s
  | (_, d) :: _ =>
    if !ch.active || dmaLocal d || ch.atEnd || busy then s
    else match s.pieceFlit g c with
    | none => s
    | some (f, rd) =>
      let s1 : State := { s with free := s.free + 128 }
      (s1.modTile g (fun t => t.modChan c (fun ch =>
        { ch.advance d with
          reads := if rd then ch.reads ++ [f.dest] else ch.reads
          writes := if rd then ch.writes else ch.writes ++ [f.dest] }))).departFlit g f

end Sys2Proof.Machine
end

