-- ==== Sys2Proof/Machine/QueueOps.lean ====
section
/-! DEFINITION. Token queues: applying a token (R289, R296), serving waiters (R287, R288), wait records and QUEUE faults (R300), the
sweep's latch (R305), answers of pooled queues (R285). -/

namespace Sys2Proof.Machine

/-! ### Records and faults -/

/-- A wait record (R300). `tile` is the tile with bit 6 set where none applies; `queue` carries POOL in bit 12. -/
def waitRecord (status op tile tenancy ba queue value flags count depth start evtick : Nat) : List Byte :=
  [BitVec.ofNat 8 status, BitVec.ofNat 8 op, BitVec.ofNat 8 tile, BitVec.ofNat 8 tenancy] ++ leBytes 2 ba ++ leBytes 2 queue ++
    leBytes 3 value ++ [BitVec.ofNat 8 flags] ++ leBytes 3 count ++ [BitVec.ofNat 8 depth] ++ leBytes 8 start ++ leBytes 8 evtick

/-- The flags of a record from a queue: OVF, STRICT. -/
def Queue.flags (q : Queue) : Nat := b2n q.ovf + 2 * b2n q.strict

/-- A tile raises QUEUE (R184) for an operation: its wait record is logged, its LAUNCH stops (R301). `flags` holds OVF and STRICT. -/
def State.queueFault (g op queue count depth start value flags : Nat) (waiting : Bool) (status : Nat) (s : State) : State :=
  let body := waitRecord status op g (s.tileTen g) (s.get (Reg.TILE_STATE_BA g)) queue value (flags + 4 * b2n waiting) count depth
    start s.tick.toNat
  let e : EvRec := { kind := 0x02, cls := 2, status := status, unit := 0x40 + g, tenancy := s.tileTen g, body := body }
  let s1 := match s.launchOf g with
    | some (f, r, c) => s.logCmd f r c e
    | none => s.logEvent e
  s1.raiseExc g 0x09 status 6 queue

/-- The queue number of the tile's wait, with POOL in bit 12. -/
def State.waitQueue (s : State) (g : Nat) : Nat := s.get (Reg.TILE_Q_WAIT_QUEUE g) + 4096 * s.get (Reg.TILE_Q_WAIT_POOL g)

/-- A tile's wait in progress faults. -/
def State.waitFault (g value flags status : Nat) (s : State) : State :=
  s.queueFault g (s.get (Reg.TILE_Q_WAIT_OP g)) (s.waitQueue g) (s.get (Reg.TILE_Q_WAIT_COUNT g)) (s.get (Reg.TILE_Q_WAIT_DEPTH g))
    (s.get (Reg.TILE_Q_WSTART_TICK g)) value flags true status

/-! ### Releases -/

/-- A sleeping tile is woken (R109, R291). -/
def State.wakeTile (g : Nat) (s : State) : State := if s.domState g = 0 then s else s.wakeDomain g

/-- A tile's wait is satisfied: its bundle may issue, once the tile is awake (R286, R291). -/
def State.releaseWait (g value : Nat) (s : State) : State :=
  let s1 := s.modTile g (fun t => { t with wait := { t.wait with phase := .released, result := BitVec.ofNat 24 value } })
  (((s1.set (Reg.PWR_DOM_STATE_WAITLULL g) 0).set (Reg.TILE_Q_WAIT_ACTIVE g) 0).setRun g runRunning).wakeTile g

/-- A waiting tile is released where its local queue holds the count (R287). The overflow of a queue concerns waits that begin after it
(R289). -/
def State.checkLocalWait (g : Nat) (s : State) : State :=
  if (s.tile g).wait.phase = .atTile ∧ s.get (Reg.TILE_Q_WAIT_POOL g) = 0 then
    let i := s.get (Reg.TILE_Q_WAIT_QUEUE g)
    let q := (s.tile g).queue i
    let c := s.get (Reg.TILE_Q_WAIT_COUNT g)
    if c ≤ q.value.toNat then
      if s.get (Reg.TILE_Q_WAIT_OP g) = 4 then
        let v := q.value.toNat - c
        (s.modTile g (fun t => t.setLq i { q with value := BitVec.ofNat 24 v })).releaseWait g v
      else s.releaseWait g q.value.toNat
    else s
  else s

/-! ### Tokens -/

/-- What a token's source writes into the queue's LAST fields: tile or die, module, DMA, HOST, RIME (R279). -/
def State.lastOf (s : State) (src : Source) : Nat × Nat × Bool × Bool × Bool :=
  match src with
  | .slot g => (g, s.modNum, false, false, false)
  | .dma g _ => (g, s.modNum, true, false, false)
  | .rime d => (d, s.modNum, true, false, true)
  | .ring _ copy => (0, s.modNum, copy, true, false)
  | .link _ t m dma => (t, m, dma, false, false)
  | .pooled => (0, s.modNum, false, false, false)

/-- A count joins a queue: the value saturates and OVF is set where it would pass 0xFF_FFFF (R285, R289). -/
def Queue.add (count : Nat) (q : Queue) : Queue :=
  let v := q.value.toNat + count
  { q with value := BitVec.ofNat 24 (min v 0xFFFFFF), ovf := q.ovf || decide (v > 0xFFFFFF) }

/-- A token is applied to a queue: its count joins the queue, and the LAST fields name its source (R279). -/
def Queue.token (count : Nat) (last : Nat × Nat × Bool × Bool × Bool) (q : Queue) : Queue :=
  { q.add count with
    lastSrc := BitVec.ofNat 6 last.1, lastMod := BitVec.ofNat 6 last.2.1, lastValid := true
    lastDma := last.2.2.1, lastHost := last.2.2.2.1, lastRime := last.2.2.2.2 }

/-- The port at which a token from a source meets its queue (R282, R287): a pooled queue counts the crossbar's ports, a local queue the tile's
own tokens before ring arrivals. -/
def Source.port (src : Source) (p : Iso) : Nat :=
  if p.pool then
    match src with
    | .slot g => g / 16
    | .dma g _ => g / 16
    | .rime d => d
    | .link j _ _ _ => 4 + j
    | .ring _ _ => 68
    | .pooled => 69
  else
    match src with
    | .slot g => if g = p.tile then 0 else 1
    | .dma g _ => if g = p.tile then 0 else 1
    | _ => 1

/-- What a queue held before this KCLK (R310). -/
def State.queueBefore (s : State) (pool : Bool) (tile queue : Nat) (now : Queue) : Queue :=
  ((s.touched.find? (fun e => e.pool == pool && e.tile == tile && e.queue == queue)).map (·.old)).getD now

/-- A token meets a queue: of the tokens of one KCLK the one of the highest port is the last (R287). -/
def State.tokenAt (s : State) (p : Iso) (tile : Nat) (q : Queue) : Queue :=
  let later := s.touched.any (fun e => e.pool == p.pool && e.tile == tile && e.queue == p.queue && p.src.port p < e.port)
  if later then q.add p.count else q.token p.count (s.lastOf p.src)

/-- A pooled queue's answer to a waiter leaves for its tile, or for its Rime engine (tile 64 + d). -/
def State.answer (kind : IsoKind) (w : Waiter) (value status flags : Nat) (s : State) : State :=
  s.sendIso
    { kind := kind, pool := true, queue := w.queue, tile := if w.rime then 64 + w.unit else w.unit, src := .pooled
      tenancy := w.tenancy, count := value, epoch := s.ownEpoch (if w.rime then 0x10 + w.unit else 0x40 + w.unit)
      status := status, flags := flags }

/-- A waiter leaves its queue with an answer. -/
def State.answerOut (kind : IsoKind) (w : Waiter) (value status flags : Nat) (s : State) : State :=
  State.answer kind w value status flags { s with waiters := s.waiters.erase w }

/-- The TAKEs of a queue, in order, are served as far as the value reaches; one whose count exceeds it blocks those behind (R287). A TAKE of 0
never waits (R285). On a strict queue a TAKE that has just arrived never waits: it is served, or answered with an underflow (R288). -/
def State.serveTakes (q : Nat) : Bool → List Waiter → State → State
  | _, [], s => s
  | blocked, w :: ws, s =>
    let z := s.pq q
    let v := z.value.toNat
    let strict := z.strict && w.fresh
    if w.count ≤ v ∧ (!blocked ∨ w.count = 0 ∨ strict) then
      State.serveTakes q blocked ws
        ((s.setPq q { z with value := BitVec.ofNat 24 (v - w.count) }).answerOut .release w (v - w.count) 0 0)
    else if strict then State.serveTakes q blocked ws (s.answerOut .reply w v stUnderflow z.flags)
    else State.serveTakes q true ws s

/-- A WAIT at a queue is released where its count is met; on a strict queue one that has just arrived underflows else (R287, R288). -/
def State.serveWait (q : Nat) (w : Waiter) (s : State) : State :=
  let z := s.pq q
  let v := z.value.toNat
  if w.count ≤ v then s.answerOut .release w v 0 0
  else if z.strict && w.fresh then s.answerOut .reply w v stUnderflow z.flags
  else s

/-- A pooled queue serves those that wait (R287 to R289): after an overflow each that has just arrived is answered with DRIFT; then TAKEs in order,
each WAIT whose count is met, and reads of the value left. -/
def State.servePq (q : Nat) (s : State) : State :=
  let at' := fun (s : State) (f : Waiter → Bool) => s.waiters.filter (fun w => w.queue == q && f w)
  let z := s.pq q
  let s0 := if z.ovf then (at' s (fun w => w.fresh && !w.peek)).foldl (fun s w => s.answerOut .reply w z.value.toNat stDrift z.flags) s else s
  let s1 := s0.serveTakes q false (at' s0 (·.take))
  let s2 := (at' s1 (fun w => !w.take && !w.peek)).foldl (fun s w => s.serveWait q w) s1
  let s3 := (at' s2 (·.peek)).foldl (fun s w => s.answerOut .reply w (s.pq q).value.toNat stOK 0) s2
  { s3 with waiters := s3.waiters.map (fun w => if w.queue = q then { w with fresh := false } else w) }

/-- What a cancelled wait made way for takes place: the wait is over (R310). -/
def State.performAfter (g : Nat) (a : AfterCancel) (s : State) : State :=
  let s1 := ((s.modTile g (fun t => { t with wait := {} })).set (Reg.TILE_Q_WAIT_ACTIVE g) 0).set (Reg.PWR_DOM_STATE_WAITLULL g) 0
  match a with
  | .none => s
  | .raise code st addr => s1.raiseExc g code st 0xF addr
  | .stop code st => s1.stopNow code st g
  | .debugHalt => (s1.modTile g (fun t => { t with debugPending := false, stepping := false })).setRun g runDebug

/-! ### The sweep (R304, R305) -/

/-- The participants of a tenancy's sweep. -/
def State.sweepers (s : State) (t : Nat) : List Nat :=
  (List.range 64).filter (fun g => (s.tile g).sweeper && s.tileTen g == t)

/-- A queue fails the check. -/
def Queue.drifted (q : Queue) : Bool := q.sweep && (q.ovf || q.value != q.rest)

/-- The wait record of a queue that drifted (R306). -/
def State.driftRecord (s : State) (t tile queue : Nat) (q : Queue) : List Byte :=
  waitRecord stDrift 0 tile t 0 queue q.value.toNat q.flags q.rest.toNat 0 0 s.tick.toNat

/-- The records of the queues that fail the check, as latched now: LQs of the participants, then the tenancy's pooled queues. A token of this
KCLK is not in the latched value (R310). -/
def State.sweepFailures (s : State) (t : Nat) : List (List Byte) :=
  let lq := (s.sweepers t).flatMap (fun g => (List.range 32).filterMap (fun i =>
    let q := s.queueBefore false g i ((s.tile g).queue i)
    if q.drifted then some (s.driftRecord t g i q) else none))
  let base := s.get (Reg.PQ_TNCFG_BASE t)
  let pq := s.pqs.filterMap (fun e =>
    let q := s.queueBefore true 0 e.1 e.2
    if base ≤ e.1 ∧ e.1 < base + s.get (Reg.PQ_TNCFG_COUNT t) ∧ e.1 ≠ s.get (Reg.PQ_TNSWEEP_SWEEPQ t) ∧ q.drifted
    then some (s.driftRecord t 0x40 (4096 + e.1) q) else none)
  lq ++ pq

/-- Pooled queue `q` is the sweep queue of tenancy `t`. -/
def State.isSweepQ (s : State) (t q : Nat) : Bool :=
  t ≤ 16 && s.on (Reg.PQ_TNSWEEP_EN t) && s.get (Reg.PQ_TNSWEEP_SWEEPQ t) == q

/-- A packet of a sweep to a participant (R283, R305). -/
def State.sweepPacket (kind : IsoKind) (t g : Nat) (drift : Bool) (s : State) : State :=
  s.sendIso { kind := kind, pool := true, queue := s.get (Reg.PQ_TNSWEEP_SWEEPQ t), tile := g, src := .pooled, tenancy := t, count := 0
              epoch := s.ownEpoch (0x40 + g), sweep := true, drift := drift }

/-- The packets of a tenancy's sweep have been taken. -/
def State.sweepTaken (kind : IsoKind) (t : Nat) (s : State) : State :=
  { s with isobar := s.isobar.filter (fun p => !(p.sweep && p.kind == kind && p.tenancy == t)) }

/-- The sweep queue reached N: N is subtracted and the checked queues are latched (R305 step 1). -/
def State.sweepLatch (t q : Nat) (s : State) : State :=
  let n := s.get (Reg.PQ_TNSWEEP_N t)
  let v := (s.pq q).value.toNat
  if s.isSweepQ t q ∧ 0 < n ∧ n ≤ v ∧ (s.ten t).sweep = .idle then
    let s1 := s.setPq q { s.pq q with value := BitVec.ofNat 24 (v - n) }
    (s.sweepers t).foldl (fun s g => s.sweepPacket .sweep t g false)
      (s1.modTen t (fun x => { x with sweep := .checking s1.tick (s1.sweepFailures t) }))
  else s

/-! ### Applying a token -/

/-- Those that wait at a queue are served, after its tokens of this KCLK: a sweep that is complete is latched first (R287, R305). -/
def State.serveQueue (pool : Bool) (tile queue : Nat) (s : State) : State :=
  let s1 : State := { s with touched := s.touched.map (fun e =>
    if e.pool = pool ∧ e.tile = tile ∧ e.queue = queue then { e with unserved := false } else e) }
  if pool then (s1.sweepLatch (s1.pq queue).owner.toNat queue).servePq queue else s1.checkLocalWait tile

/-- Every queue that something reached is served. -/
def State.settleQueues (s : State) : State :=
  (s.touched.filter (·.unserved)).foldl (fun s e => s.serveQueue e.pool e.tile e.queue) s

/-- The tenancy that a token carries owns its target, and the epoch is the target's (R296). -/
def State.tokenFresh (s : State) (p : Iso) : Bool :=
  if p.pool then (s.pq p.queue).owner.toNat == p.tenancy && p.epoch == s.ownEpoch (0xC0 + p.tenancy)
  else s.tileTen p.tile == p.tenancy && p.epoch == s.ownEpoch (0x40 + p.tile)

/-- A token is applied, or discarded whole and counted (R296). A local queue's token reaches both tiles of a twin pair (R525). The queue then
holds those that wait there to be served. -/
def State.applyToken (p : Iso) (s : State) : State :=
  if !s.tokenFresh p then s.bump Reg.PQ_ISO_ERR_STALE 1
  else if p.pool then
    let q := s.pq p.queue
    (s.setPq p.queue (s.tokenAt p 0 q)).touchQ true 0 p.queue (p.src.port p) q
  else
    (s.hearers p.tile).foldl (fun s g =>
      let q := (s.tile g).queue p.queue
      let z := s.tokenAt p g q
      (s.modTile g (fun t => t.setLq p.queue z)).touchQ false g p.queue (p.src.port p) q) s

/-! ### Domains on the way (R32, R106) -/

/-- The domains that a packet passes through: its source's die fabric or link bank, its target's die fabric, and the base fabric for one that
crosses the base die. -/
def Iso.doms (p : Iso) : List Nat :=
  let home := fun (g : Nat) => if g < 64 then 64 + g / 16 else g
  let src := match p.src with
    | .slot g => [home g]
    | .dma g _ => [home g]
    | .rime d => [64 + d]
    | _ => [85]
  let toQueue : Bool := decide (p.kind ≠ .release ∧ p.kind ≠ .reply ∧ p.kind ≠ .sweep)
  let tgt := if p.pool && toQueue then [85] else [home p.tile]
  (src ++ tgt ++ if src = tgt then [] else [85]).eraseDups

end Sys2Proof.Machine
end

