-- ==== Sys2Proof/Machine/Queues.lean ====
section
/-! DEFINITION. Isobar packets at their targets: tokens (R287, R296), pooled waits and their answers (R285, R288, R299, R310), CRC
errors (R284), the sweep (R305, R306), snapshots (R303), pooled ranges (R280). -/

namespace Sys2Proof.Machine

/-! ### Packets -/

/-- Packet `k`, when it can be taken: it is not lost, and no earlier packet of its source to its queue is under way (R293). -/
def State.isoAt (s : State) (k : Nat) : Option Iso :=
  match s.isobar[k]? with
  | none => none
  | some p =>
    if p.lost || (s.isobar.take k).any (fun q => decide (q.src = p.src) && q.queue == p.queue && q.pool == p.pool &&
        (q.tile == p.tile || (p.pool && decide (p.src ≠ .pooled)))) then none else some p

/-- A packet leaves the network. -/
def State.dropIso (k : Nat) (s : State) : State := { s with isobar := s.isobar.eraseIdx k }

/-- What a packet at the front of its way does, once the domains on that way are in L0; a packet that meets an Off domain is lost. `k` is where it
stands. -/
def State.takeIso (k : Nat) (p : Iso) (effect : State → State) (s : State) : State :=
  s.through p.doms (fun s => effect (s.dropIso k)) (State.dropIso k)

/-- The active command of a Rime engine ends, and the engine is free for the next. -/
def State.rimeEnd (d : Nat) (status result : Nat) (s : State) : State :=
  match (s.rime d).active with
  | none => s
  | some (f, r, idx) =>
    let s1 := ((s.modRime d (fun x => { x with active := none, waiting := false, owes := none, ops := [], heads := [], desc := [] })).set
      (Reg.RIME_STATUS_PHASE d) 0).syncRime d
    let s2 := match s1.cmd f r idx with
      | none => s1
      | some c =>
        let c' := if status = stOK then c else { c with fail := some (c.fail.getD { status := status }) }
        s1.endCmd f r c' status result
    let s3 := (s2.settleExclusions).rimeRest d
    if s3.inWave then s3 else { s3 with hbmLog := [] }

/-- The token of a Rime command has reached its queue: the command completes (R476). -/
def State.rimeTokenDone (src : Source) (s : State) : State :=
  match src with
  | .rime d =>
    (match (s.rime d).owes with
     | some result => s.rimeEnd d stOK result
     | none => s)
  | _ => s

/-- What a packet reached is served, unless more reaches it in this KCLK. -/
def State.serveAfter (p : Iso) (more : Bool) (s : State) : State :=
  if more then s
  else if p.pool then s.serveQueue true 0 p.queue
  else (s.hearers p.tile).foldl (fun s g => s.serveQueue false g p.queue) s

/-- TOKEN_APPLY (R287, R289, R296): token `k` is applied at its queue or discarded whole; then those that wait there are served, unless `more`
says that other operations reach the queue in the same KCLK, and for a local queue in the same TCLK. -/
def execTokenApply (k : Nat) (more : Bool) (s : State) : Res :=
  match s.isoAt k with
  | some p =>
    if p.kind = .signal then .next (s.takeIso k p (fun s => ((s.applyToken p).serveAfter p more).rimeTokenDone p.src)) else .next s
  | none => .next s

/-- Waiters in the order in which a queue takes them: among those that reached it in one KCLK the lower tile first, then Rime engines by
die (R287). -/
def insertWaiter (w : Waiter) : List Waiter → List Waiter
  | [] => [w]
  | x :: l =>
    if x.queue = w.queue ∧ x.fresh ∧ 64 * b2n w.rime + w.unit < 64 * b2n x.rime + x.unit then w :: x :: l else x :: insertWaiter w l

/-- A pooled operation joins those that wait at its queue (R285). -/
def State.arriveAt (p : Iso) (s : State) : State :=
  let w : Waiter :=
    { queue := p.queue, rime := decide (p.tile ≥ 64), unit := p.tile % 64, take := p.kind == .take, count := p.count, tenancy := p.tenancy
      peek := p.kind == .peek }
  State.touchQ true 0 p.queue 0 (s.pq p.queue) { s with waiters := insertWaiter w s.waiters }

/-- PQ_WAIT_ARRIVE (R285, R287, R288): a WAIT, WAITS, TAKE or PEEK packet reaches its pooled queue, which checks and serves it unless `more`
says that other operations reach it in the same KCLK. One with a stale epoch is discarded (R492). -/
def execPqWaitArrive (k : Nat) (more : Bool) (s : State) : Res :=
  match s.isoAt k with
  | some p =>
    if p.kind = .wait ∨ p.kind = .take ∨ p.kind = .peek then
      .next (s.takeIso k p (fun s =>
        State.serveAfter p more (if s.tokenFresh p then s.arriveAt p else s.bump Reg.PQ_ISO_ERR_STALE 1)))
    else .next s
  | none => .next s

/-- A Rime engine's start token was refused, timed out or cancelled: its command ends with the status (R476). -/
def State.rimeRefused (d status : Nat) (s : State) : State :=
  let op := match (s.rime d).active with
    | some (f, r, idx) => ((s.cmd f r idx).map (·.op)).getD 0
    | none => 0
  s.rimeEnd d status (if op = 0x50 then 0 else rimeNone * 2 ^ 32)

/-- An answer reaches tile `g`. -/
def State.tileAnswer (p : Iso) (g : Nat) (s : State) : State :=
  let t := s.tile g
  if p.kind = .release then
    if t.wait.phase = .pooled then s.releaseWait g p.count else s
  else if p.status = stOK then
    match t.peeks.find? (fun e => e.1 == p.queue) with
    | some e => s.modTile g (fun t => { t.setG e.2 (BitVec.ofNat 64 p.count) with peeks := t.peeks.erase e })
    | none => s
  else if t.wait.phase ≠ .pooled then s
  else if t.wait.after ≠ .none then s.performAfter g t.wait.after
  else s.waitFault g p.count p.flags p.status

/-- An answer reaches a Rime engine. -/
def State.rimeAnswer (p : Iso) (s : State) : State :=
  let d := p.tile - 64
  if !(s.rime d).waiting then s
  else if p.kind = .release then s.modRime d (fun x => { x with waiting := false })
  else s.rimeRefused d p.status

/-- PQ_REPLY_ARRIVE (R285, R299, R310): a release, a refusal, the end of a cancelled wait or a PEEK's value reaches the unit that waits
for it. The queues have served what reached them before. -/
def execPqReplyArrive (k : Nat) (s : State) : Res :=
  let s := s.settleQueues
  match s.isoAt k with
  | some p =>
    if (p.kind = .release ∨ p.kind = .reply) ∧ !p.sweep then
      .next (s.takeIso k p (fun s =>
        if p.tile < 64 then (s.hearers p.tile).foldl (fun s g => s.tileAnswer p g) s else s.rimeAnswer p))
    else .next s
  | none => .next s

/-- A CANCEL takes a wait that the queue still holds out of it and is answered; the release of one served before is on its way (R299). -/
def State.cancelAt (p : Iso) (s : State) : State :=
  let unit := p.tile % 64
  let rime := decide (p.tile ≥ 64)
  let z := s.pq p.queue
  let w : Waiter := { queue := p.queue, rime := rime, unit := unit, take := false, count := 0, tenancy := p.tenancy }
  let mine := fun (w : Waiter) => w.queue == p.queue && w.rime == rime && w.unit == unit && !w.peek
  let answered := s.isobar.any (fun x => x.tile == p.tile && x.pool && !x.sweep && (x.kind == .release || (x.kind == .reply && x.status != stOK)))
  if s.waiters.any mine then
    ((s.dropWaiters mine).answer .reply w z.value.toNat stWaitTimeout z.flags).serveQueue true 0 p.queue
  else if answered then s
  else s.answer .reply w z.value.toNat stWaitTimeout z.flags

/-- PQ_CANCEL_ARRIVE (R299): a CANCEL reaches a pooled queue. -/
def execPqCancelArrive (k : Nat) (s : State) : Res :=
  match s.isoAt k with
  | some p => if p.kind = .cancel then .next (s.takeIso k p (fun s => s.settleQueues.cancelAt p)) else .next s
  | none => .next s

/-! ### Timeouts -/

/-- The tick at which a wait that began at `start` times out: the first whole microsecond at or after expiry (R299). -/
def State.expiry (s : State) (t start : Nat) : Nat := roundUp (start + 10000 * s.get (Reg.PQ_TNCFG_TIMEOUT t)) 1000

/-- WAIT_TIMEOUT (R299): the wait of a tile, or the start token of Rime engine `unit` − 64, outlives the tenancy's timeout. A wait at
the tile faults; one at a pooled queue is cancelled. -/
def execWaitTimeout (unit : Fin 68) (s : State) : Res :=
  let g := unit.val
  if g < 64 then
    let t := s.tileTen g
    let w := (s.tile g).wait
    if s.tick.toNat < s.expiry t (s.get (Reg.TILE_Q_WSTART_TICK g)) then .next s
    else if w.phase = .atTile then
      let q := if s.get (Reg.TILE_Q_WAIT_POOL g) = 1 then s.pq (s.get (Reg.TILE_Q_WAIT_QUEUE g))
        else (s.tile g).queue (s.get (Reg.TILE_Q_WAIT_QUEUE g))
      .next (s.waitFault g q.value.toNat q.flags stWaitTimeout)
    else if w.phase = .pooled ∧ !w.timedOut then
      let s1 := s.modTile g (fun x => { x with wait := { x.wait with timedOut := true } })
      if w.after = .none then .next (s1.sendCancel g) else .next s1
    else .next s
  else
    let d := g - 64
    let x := s.rime d
    match x.active with
    | some (f, r, idx) =>
      if x.waiting ∧ s.tick.toNat ≥ s.expiry f x.waitStart.toNat ∧
          !s.isobar.any (fun p => p.tile == g && decide (p.kind = .cancel)) then
        let q := ((s.cmd f r idx).map (fun c => leAt c.desc 12 2)).getD 0
        .next (s.sendIso { kind := .cancel, pool := true, queue := q, tile := g, src := .rime d, tenancy := f, count := 0
                           epoch := s.heldEpoch (0xC0 + f) })
      else .next s
    | none => .next s

/-! ### CRC errors -/

/-- The die of a station by its unit number: 0 to 3, or 4 for the base die. -/
def stationDie (u : Nat) : Nat :=
  if 0x40 ≤ u ∧ u < 0x80 then (u - 0x40) / 16 else if 0x10 ≤ u ∧ u < 0x14 then u - 0x10
  else if 0x04 ≤ u ∧ u < 0x08 then u - 4 else 4

/-- The running LAUNCHes of a tenancy complete with OK_CORRECTED. -/
def State.markTenancy (t : Nat) (s : State) : State :=
  (List.range 16).foldl (fun s r => s.modRing t r (fun x => { x with cmds := x.cmds.map (fun c =>
    if c.st = .running ∧ c.op = 2 then { c with corrected := true } else c) })) s

/-- The LAUNCH of the tenancy that sent a packet completes with OK_CORRECTED: the sending tile's own, of a token or packet that no tile sent every
one of the tenancy (R284). -/
def State.correctedSource (p : Iso) (s : State) : State :=
  match p.src with
  | .slot g => s.markCorrected g
  | .dma g _ => s.markCorrected g
  | .pooled => if p.tile < 64 then s.markCorrected p.tile else s.markTenancy p.tenancy
  | _ => s.markTenancy p.tenancy

/-- ISOBAR_CRC_ERROR (R284): the station of a unit receives packet `k` with a CRC error: it waits to be sent again, and at a second
error the fabric fails. -/
def execIsobarCrcError (k station : Nat) (s : State) : Res :=
  match s.isobar[k]? with
  | none => .next s
  | some p =>
    if p.lost then .next s
    else if p.retried then
      .next (((s.dropIso k).bump Reg.PQ_ISO_ERR_FAILED 1).fabricFault 2 (stationDie station) station 0)
    else
      let s1 : State := { s with isobar := s.isobar.set k { p with retried := true, lost := true, lostAt := s.tick } }
      .next (((s1.bump Reg.PQ_ISO_ERR_RETRIED 1).correctedSource p).fabricCorrected 2 station 0)

/-- ISOBAR_RESEND (R284): 4 KCLK later the sending station sends packet `k` again. -/
def execIsobarResend (k : Nat) (s : State) : Res :=
  match s.isobar[k]? with
  | none => .next s
  | some p => if p.lost ∧ s.since p.lostAt ≥ 4 then .next { s with isobar := s.isobar.set k { p with lost := false } } else .next s

/-! ### Sweeps -/

/-- SWEEP_CHECK_END (R305, R306): 256 KCLK after the latch the check ends: the first 64 failures are recorded, all are counted, and the
release tick is the next multiple of 64. -/
def execSweepCheckEnd (t : Fin 17) (s : State) : Res :=
  match (s.ten t.val).sweep with
  | .checking latch failed =>
    if s.since latch < 256 then .next s
    else
      let s1 := (failed.take 64).foldl (fun s b => s.logEvent
        { kind := 0x02, cls := 0, status := stDrift, tenancy := t.val
          unit := if leAt b 2 1 < 64 then 0x40 + leAt b 2 1 else 0xFF, body := b }) s
      let s2 := s1.bump (Reg.PQ_TNSWEEP_DRIFTS t.val) failed.length
      let at' := BitVec.ofNat 64 (roundUp (latch.toNat + 256) 64)
      let s3 := (s2.sweepTaken .sweep t.val).modTen t.val (fun x => { x with sweep := .releasing at' (!failed.isEmpty) })
      .next ((s.sweepers t.val).foldl (fun s g => s.sweepPacket .release t.val g (!failed.isEmpty)) s3)
  | _ => .next s

/-- A participant's latch is set at the release tick: its sweep wait is satisfied and clears it, or it stays for the next one (R307). -/
def State.setSweepLatch (g : Nat) (s : State) : State :=
  if (s.tile g).wait.phase = .atTile ∧ s.get (Reg.TILE_Q_WAIT_POOL g) = 1 then s.releaseWait g 0
  else s.set (Reg.TILE_Q_WAIT_SWEEPLATCH g) 1

/-- A participant's sweep wait faults with DRIFT (R306); one that has not begun its wait will fault there. -/
def State.sweepFault (g : Nat) (s : State) : State :=
  if (s.tile g).wait.phase = .atTile ∧ s.get (Reg.TILE_Q_WAIT_POOL g) = 1 then
    let q := s.pq (s.get (Reg.TILE_Q_WAIT_QUEUE g))
    s.waitFault g q.value.toNat q.flags stDrift
  else s.modTile g (fun t => { t with sweepDrift := true })

/-- SWEEP_RELEASE (R305, R306): at the release tick every participant is released, or faults with DRIFT where the check found drift and
DRIFTSTOP is 1. -/
def execSweepRelease (t : Fin 17) (s : State) : Res :=
  match (s.ten t.val).sweep with
  | .releasing at' drifted =>
    if s.tick.toNat < at'.toNat then .next s
    else
      let gs := s.sweepers t.val
      let s1 := ((s.sweepTaken .release t.val).modTen t.val (fun x => { x with sweep := .idle })).bump (Reg.PQ_TNSWEEP_SWEEPS t.val) 1
      let s2 := if drifted && s.on (Reg.PQ_TNSWEEP_DRIFTSTOP t.val) then gs.foldl (fun s g => s.sweepFault g) s1
        else gs.foldl (fun s g => s.setSweepLatch g) s1
      .next (s2.sweepLatch t.val (s.get (Reg.PQ_TNSWEEP_SWEEPQ t.val)))
  | _ => .next s

/-! ### Snapshots -/

/-- The wait record of a tile for a snapshot (R303). -/
def State.snapRecord (s : State) (g : Nat) : List Byte :=
  if s.on (Reg.TILE_Q_WAIT_ACTIVE g) then
    let i := s.get (Reg.TILE_Q_WAIT_QUEUE g)
    let q := if s.get (Reg.TILE_Q_WAIT_POOL g) = 1 then s.pq i else (s.tile g).queue i
    waitRecord stOK (s.get (Reg.TILE_Q_WAIT_OP g)) g (s.tileTen g) (s.get (Reg.TILE_STATE_BA g)) (s.waitQueue g) q.value.toNat
      (q.flags + 4) (s.get (Reg.TILE_Q_WAIT_COUNT g)) (s.get (Reg.TILE_Q_WAIT_DEPTH g)) (s.get (Reg.TILE_Q_WSTART_TICK g)) s.tick.toNat
  else waitRecord stOK 0 g (s.tileTen g) (s.get (Reg.TILE_STATE_BA g)) 0 0 0 0 0 0 s.tick.toNat

/-- A snapshot is taken unless one is being written (R303). -/
def State.takeSnapshot (s : State) : State :=
  let s := s.settleQueues
  if s.on Reg.PQ_SNAP_CTL_BUSY then s
  else (({ s with snap := (List.range 64).map s.snapRecord } : State).set Reg.PQ_SNAP_CTL_BUSY 1).set Reg.PQ_SNAP_CTL_DONE 0

/-- PQ_SNAP_GO (R303): a write of PQ_SNAP_CTL. -/
def execPqSnapGo (v : Word) (s : State) : Res :=
  .next (s.whenReady (fun s => if v.getLsbD 0 then s.takeSnapshot else s))

/-! ### Pooled ranges -/

/-- A tenancy's pooled range changes: queues that enter or leave it are cleared (R280). -/
def State.setRange (t base count : Nat) (s : State) : State :=
  let b0 := s.get (Reg.PQ_TNCFG_BASE t)
  let c0 := s.get (Reg.PQ_TNCFG_COUNT t)
  if b0 = base ∧ c0 = count then s
  else
    let inOld := fun (q : Nat) => b0 ≤ q && q < b0 + c0
    let inNew := fun (q : Nat) => base ≤ q && q < base + count
    let s2 := (List.range 4096).foldl (fun s q =>
      if inOld q && !inNew q then s.setPq q Queue.unowned
      else if inNew q && !inOld q then s.setPq q { owner := BitVec.ofNat 5 t } else s) s
    ((s2.set (Reg.PQ_TNCFG_BASE t) base).set (Reg.PQ_TNCFG_COUNT t) count).newMap t

/-- A Rime engine holds a command of the tenancy whose start queue lies outside a range (R486). -/
def State.rimeQueueOutside (s : State) (t base count : Nat) : Bool :=
  (List.range 4).any (fun d =>
    let x := s.rime d
    (x.active.toList ++ x.queue).any (fun e => e.1 == t &&
      (match s.cmd e.1 e.2.1 e.2.2 with
       | some c => bitAt (leAt c.desc 9 1) 0 && !(base ≤ leAt c.desc 12 2 && leAt c.desc 12 2 < base + count)
       | none => false)))

/-- A write of PQ_TNCFG[t] by a function (R280, R308, R577). -/
def State.writeTncfg (func t : Nat) (part : Part) (v : Word) (s : State) : State :=
  let fs := Reg.row_PQ_TNCFG.fields t 0
  let new := partOf (s.wordOf fs) part v
  let base := bits new 0 12
  let count := bits new 16 13
  let timeout := bits new 32 20
  let off := (Reg.PQ_TNCFG_BASE t).off
  let overlap := (List.range 17).any (fun u => u != t && count != 0 && s.get (Reg.PQ_TNCFG_COUNT u) != 0 &&
    base < s.get (Reg.PQ_TNCFG_BASE u) + s.get (Reg.PQ_TNCFG_COUNT u) && s.get (Reg.PQ_TNCFG_BASE u) < base + count)
  if (s.tnStarted t && s.changesRwl fs part v) || base % 16 != 0 || count % 16 != 0 || base + count > 4096 || overlap ||
      timeout == 0 || timeout > 1000000 then s.logRefused off func v.toNat
  else if s.rimeQueueOutside t base count then
    (s.logRefused off func v.toNat).set (Reg.TN_STATE_LASTSTATUS t) stNoResource
  else (s.setRange t base count).set (Reg.PQ_TNCFG_TIMEOUT t) timeout

/-- PQ_TNCFG_WRITE (R280). -/
def execPqTncfgWrite (t : Fin 17) (part : Part) (v : Word) (s : State) : Res :=
  .next (s.whenReady (fun s => s.writeTncfg 0 t.val part v))

end Sys2Proof.Machine
end

