-- ==== Sys2Proof/Machine/DebugOps.lean ====
section
/-! DEFINITION. The debug functions of a tile (R190 to R194): halt, resume, step, arm, and the words of its debug spaces. -/

namespace Sys2Proof.Machine

/-! ### Words -/

/-- Bytes of a debug space (R194). -/
def debugSpace (space : Nat) : Nat :=
  match space with
  | 0 => 0x1000
  | 1 => 0x800000
  | 2 => 0x20000
  | _ => 0x40000

/-- The key of an accumulator within a panel: bank, row, column. -/
def accKey (b r c : Nat) : Nat := 4096 * b + 64 * r + c

/-- An accumulator of a panel, as its bits. -/
def Panel.acc (p : Panel) (b r c : Nat) : Nat := spGet 0 p.banks (accKey b r c)

/-- An accumulator of a panel takes bits. -/
def Panel.setAcc (b r c v : Nat) (p : Panel) : Panel := { p with banks := spSet 0 p.banks (accKey b r c) v }

/-- The 8-byte word at byte offset `o` of a debug space (R193, R194); past the end, 0. -/
def State.debugWord (s : State) (g space o : Nat) : Nat :=
  if o ≥ debugSpace space then 0
  else match space with
  | 0 => s.recordWord g o
  | 1 => leNat ((s.tile g).spRead o 8)
  | 2 => leNat (memRead ramByte (s.tile g).istore o 8)
  | _ => ((s.tile g).panel (o / 0x10000)).acc (bits o 15 1) (bits o 9 6) (bits o 3 6)

/-- A queue's settings word as a debug write leaves it: REST, STRICT and SWEEP follow, OVF only to 0 (R308). -/
def Queue.debugSet (v : Nat) (q : Queue) : Queue :=
  { q with rest := BitVec.ofNat 24 v, strict := bitAt v 24, sweep := bitAt v 25, ovf := q.ovf && bitAt v 26 }

/-- The word 0x288 of a register record is taken: BA, RUN (7 is no run state and changes nothing), the fault code and status (R194). -/
def State.takeStateWord (g v : Nat) (s : State) : State :=
  let s1 := (((s.set (Reg.TILE_STATE_BA g) v).set (Reg.TILE_FAULT_INFO_CODE g) (bits v 16 8)).set
    (Reg.TILE_FAULT_INFO_STATUS g) (bits v 24 8)).modTile g (fun t => { t with pastEnd := false, stale := [] })
  if bits v 11 3 = 7 then s1 else s1.setRun g (bits v 11 3)

/-- The word 0x2D8 of a register record is taken: the epoch and the owner as TILE_STATE shows them. Which tenancy owns the tile and which epoch
its requests must carry the controller holds, and stands. -/
def State.takeOwnerWord (g v : Nat) (s : State) : State :=
  (s.set (Reg.TILE_STATE_EPOCH g) v).set (Reg.TILE_STATE_TENANCY g) (bits v 16 5)

/-- A word of the register record is written (R193, R194): everything it holds but p0, bits [63:48] of an address register and reserved words. -/
def State.writeRecord (g o v : Nat) (s : State) : State :=
  let w : Word := BitVec.ofNat 64 v
  if o < 0x200 then s.modTile g (Tile.setG (o / 8) w)
  else if o < 0x280 then s.modTile g (Tile.setA ((o - 0x200) / 8) (BitVec.ofNat 48 v))
  else if o = 0x280 then s.modTile g (fun t => { t with p := BitVec.ofNat 16 v })
  else if o = 0x288 then s.takeStateWord g v
  else if o < 0x2D0 then s.modTile g (Tile.setM ((o - 0x290) / 8) w)
  else if o = 0x2D0 then s.modTile g (fun t => { t with cycle := w })
  else if o = 0x2D8 then s.takeOwnerWord g v
  else if 0x300 ≤ o ∧ o < 0x380 then
    let i := (o - 0x300) / 4
    s.modTile g (fun t =>
      let t1 := t.setLq i { t.queue i with value := BitVec.ofNat 24 v }
      t1.setLq (i + 1) { t1.queue (i + 1) with value := BitVec.ofNat 24 (v / 2 ^ 32) })
  else if 0x380 ≤ o ∧ o < 0x480 then
    s.modTile g (fun t => t.setLq ((o - 0x380) / 8) ((t.queue ((o - 0x380) / 8)).debugSet v))
  else s

/-- A word of a debug space is written (R193). -/
def State.writeDebug (g space o v : Nat) (s : State) : State :=
  if o ≥ debugSpace space then s
  else match space with
  | 0 => s.writeRecord g o v
  | 1 => ((s.modTile g (fun t => t.drainAll.spWrite o (leBytes 8 v))).headDrained g).syncSb g
  | 2 => s.modTile g (fun t => { t with istore := memWrite ramByte t.istore o (leBytes 8 v) })
  | _ => s.modTile g (fun t => t.modPanel (o / 0x10000) (Panel.setAcc (bits o 15 1) (bits o 9 6) (bits o 3 6) (v % 2 ^ 35)))

/-- `n` bytes of a debug space from offset `o`, in whole words. -/
def State.debugBytes (s : State) (g space o n : Nat) : List Byte :=
  (List.range (n / 8)).flatMap (fun i => leBytes 8 (s.debugWord g space (o + 8 * i)))

/-- Bytes are written into a debug space, in whole words. -/
def State.writeDebugBytes (g space o : Nat) (bs : List Byte) (s : State) : State :=
  (List.range (bs.length / 8)).foldl (fun s i => s.writeDebug g space (o + 8 * i) (leAt bs (8 * i) 8)) s

/-! ### Actions (R191) -/

/-- A tile that is awake halts for debug: a wait in progress is abandoned; one at a pooled queue is cancelled first (R310). -/
def State.debugHaltNow (g : Nat) (s : State) : State :=
  let t := s.tile g
  if s.run g = runRunning ∧ !t.halting then
    if s.inTake g then s.cancelThen g .debugHalt
    else (s.modTile g (fun t => { t with wait := {}, debugPending := false, stepping := false })).set (Reg.TILE_Q_WAIT_ACTIVE g) 0
      |>.setRun g runDebug
  else if s.run g = runWait then
    if t.wait.phase = .pooled then s.cancelThen g .debugHalt
    else (((s.modTile g (fun t => { t with wait := {}, debugPending := false, stepping := false })).set
      (Reg.TILE_Q_WAIT_ACTIVE g) 0).set (Reg.PWR_DOM_STATE_WAITLULL g) 0).setRun g runDebug
  else s.modTile g (fun t => { t with debugPending := false })

/-- A halt request: a sleeping tile is woken first (R109, R196). -/
def State.debugHalt (g : Nat) (s : State) : State :=
  if s.run g ≠ runRunning ∧ s.run g ≠ runWait then s
  else if s.domState g = 0 then s.debugHaltNow g
  else (s.modTile g (fun t => { t with debugPending := true })).wakeDomain g

/-- A debug-halted tile issues from BA again: freely, or exactly one bundle. Its breakpoint does not stop the first. -/
def State.debugGo (g : Nat) (step : Bool) (s : State) : State :=
  if s.run g ≠ runDebug then s
  else
    let s1 := (s.modTile g (fun t => { t with pastBp := true, stepping := step })).setRun g runRunning
    if s1.domState g = 0 then s1 else s1.wakeDomain g

/-- The debug functions may be used on a tile by the provider: its tenancy's permission allows it (R190, R439). -/
def State.providerDebug (s : State) (g : Nat) : Bool := s.tileTen g ≤ 16 && s.get (Reg.TN_STATE_DEBUG (s.tileTen g)) == 2

/-- The tile belongs to a started pinned tenancy, whose tiles are not halted or stepped (R192). -/
def State.tilePinned (s : State) (g : Nat) : Bool := s.tileTen g ≤ 16 && s.tnStarted (s.tileTen g) && s.tnPinned (s.tileTen g)

end Sys2Proof.Machine
end

