-- ==== Sys2Proof/Machine/CopyOps.lean ====
section
/-! DEFINITION. The ring engine's copies between host memory and HBM (R414): the addresses of a buffer (R448), the flits of a copy,
the host requests it makes. -/

namespace Sys2Proof.Machine

/-- The physical address of byte `o` of a handle's buffer (R448). -/
def State.bufAddr (s : State) (h o : Nat) : Nat := (s.handleGrans h).getD (o / 2 ^ 30) 0 * 2 ^ 30 + o % 2 ^ 30

/-- Bytes of a handle's buffer, as far as it reaches. -/
def State.bufRead (s : State) (h o n : Nat) : List Byte :=
  (List.range n).map (fun i =>
    if o + i < (s.handleGrans h).length * 2 ^ 30 then spGet ramByte s.hbm (s.bufAddr h (o + i)) else 0)

/-- A copy's fields: host address, handle, offset, length. -/
def RingCmd.cHost (c : RingCmd) : Nat := leAt c.desc 8 8
def RingCmd.cHandle (c : RingCmd) : Nat := leAt c.desc 16 8
def RingCmd.cOff (c : RingCmd) : Nat := leAt c.desc 24 8
def RingCmd.cLen (c : RingCmd) : Nat := leAt c.desc 32 4

/-- Bytes of the next host request of a copy from its cursor: what is left, up to a 4 KiB boundary of host memory. -/
def RingCmd.hostChunk (c : RingCmd) : Nat := min (c.cLen - c.cursor) (4096 - (c.cHost + c.cursor) % 4096)

/-- A flit of a copy: a WRITE with data or a READ of `len` bytes at byte `o` of its buffer. -/
def State.copyFlit (s : State) (f r : Nat) (c : RingCmd) (typ : FlitType) (o : Nat) (data : List Byte) (len : Nat) : Flit :=
  let a := s.bufAddr c.cHandle (c.cOff + o)
  let u := 8 + (s.hbmPlace a).1
  { typ := typ, sched := false, tenancy := f, epoch := s.heldEpoch u, dest := u, src := 0x01, tag := c.idx % 256, ch := 0, addr := a
    data := data, len := len, reply := o, remote := some { mod := f, tile := r, dseq := c.idx }, loc := .quadrant 0 84 }

/-- The bytes of a copy's piece at byte `o`: to the end of its 64-byte word of HBM, and no more than are left. -/
def RingCmd.piece (c : RingCmd) (o left : Nat) : Nat := min left (64 - (c.cOff + o) % 64)

/-- The WRITE flits of bytes that arrived from the host for a COPYIN. -/
def State.copyWrites (f r : Nat) (c : RingCmd) : Nat → Nat → List Byte → State → State
  | 0, _, _, s => s
  | n + 1, o, bs, s =>
    if bs.isEmpty then s
    else
      let k := c.piece o bs.length
      let s1 : State := { s with flits := s.flits ++ [s.copyFlit f r c .write o (bs.take k) k] }
      let s2 := s1.modCmd f r c.idx (fun c => { c with owed := c.owed + 1 })
      State.copyWrites f r c n (o + k) (bs.drop k) s2

/-- READ flits that a COPYOUT keeps under way. -/
def copyWindow : Nat := 16

/-- A COPYOUT asks for its next bytes while its window has room. -/
def State.copyPump (f r idx : Nat) : Nat → State → State
  | 0, s => s
  | n + 1, s =>
    match (s.ring f r).cmds.find? (fun c => c.idx == idx) with
    | none => s
    | some c =>
      if c.op ≠ 0x13 ∨ c.owed ≥ copyWindow ∨ c.cursor ≥ c.cLen then s
      else
        let k := c.piece c.cursor (c.cLen - c.cursor)
        let s1 : State := { s with flits := s.flits ++ [s.copyFlit f r c .read c.cursor [] k] }
        State.copyPump f r idx n (s1.modCmd f r idx (fun c => { c with owed := c.owed + 1, cursor := c.cursor + k }))

end Sys2Proof.Machine
end

