-- ==== Sys2Proof/Machine/Net.lean ====
section
/-! DEFINITION. Jetstream: forwarding a flit through an output (R320, R325), and what a flit does at its target: WRITE, READ, RDATA,
WACK and ISWRITE (R318, R176, R492). -/

namespace Sys2Proof.Machine

/-! ### Forwarding -/

/-- A flit taken out of the network. -/
def State.dropFlit (k : Nat) (s : State) : State := { s with flits := s.flits.eraseIdx k }

/-- The dynamic output of a flit at the place where it stands. -/
def State.routeOf (s : State) (f : Flit) : Nat :=
  match f.loc with
  | .router g _ => routerRoute g f
  | .quadrant q _ => s.quadrantRoute q f
  | .target => 0

/-- An older flit of the same kind stands at the same input: scheduled flits of one tenancy and channel, or dynamic flits of one
class (R325). -/
def State.behindAnother (s : State) (k : Nat) (f : Flit) : Bool :=
  (s.flits.take k).any (fun h => h.loc == f.loc && h.sched == f.sched &&
    (if f.sched then h.tenancy == f.tenancy && h.ch == f.ch else h.isReply == f.isReply))

/-- The number of an output, for the turn it remembers. -/
def outputNum (l : Loc) (port : Nat) : Nat :=
  match l with
  | .router g _ => 8 * g + port
  | .quadrant q _ => 512 + 85 * q + port
  | .target => 0

/-- Inputs of the node that hold a dynamic flit of a class for an output. -/
def State.rivals (s : State) (l : Loc) (port : Nat) (reply : Bool) : List Nat :=
  (s.flits.filter (fun h => h.loc.sameNode l && !h.sched && h.isReply == reply && s.routeOf h == port)).map (·.loc.port)

/-- It is the input's turn: none of the rivals comes before it after the input served last (R325); the output remembers the input behind
that one. -/
def State.hasTurn (s : State) (l : Loc) (port : Nat) (reply : Bool) : Bool :=
  let last := spGet 0 s.turn (outputNum l port)
  let dist := fun p => (p + 128 - last) % 128
  (s.rivals l port reply).all (fun p => dist l.port ≤ dist p)

/-- A dynamic flit may cross an output in a slot: the slot is free, or belongs to its tenancy and no scheduled flit stands there for
it (R320); replies go first (R325). -/
def State.dynamicMay (s : State) (f : Flit) (port slot : Nat) : Bool :=
  let e := s.slotEntry f.loc port slot
  (!eSched e || (eTen e == f.tenancy && !s.flits.any (fun h => h.loc.sameNode f.loc && entryTakes e h))) &&
    (f.isReply || (s.rivals f.loc port true).isEmpty) && s.hasTurn f.loc port f.isReply

/-- Counters of an output: a dynamic flit waited; a scheduled flit was carried on as dynamic. -/
def State.countWait (l : Loc) (port n : Nat) (s : State) : State :=
  match l with
  | .router g _ => s.bump (Reg.TILE_JS_STAT_DYNWAIT g) n
  | .quadrant _ _ => if 60 ≤ port ∧ port < 84 then s.bump Reg.MEM_BSW_STAT_BRWAIT n else s
  | .target => s
def State.countLate (l : Loc) (s : State) : State :=
  match l with
  | .router g _ => s.bump (Reg.TILE_JS_STAT_LATE g) 1
  | .quadrant _ _ => s.bump Reg.MEM_BSW_STAT_LATE 1
  | .target => s

/-- A correction on a flit's way marks the LAUNCH of the tile or the copy that it serves (R188, R520). -/
def State.correctedFlit (f : Flit) (s : State) : State :=
  let u := if f.isReply then f.dest else f.src
  if 0x40 ≤ u ∧ u < 0x80 then s.markCorrected (u - 0x40)
  else if u = 0x01 then
    match f.remote with
    | some r => s.modCmd r.mod r.tile r.dseq (fun c => { c with corrected := true })
    | none => s
  else s

/-- A flit passes an output: it stands at the next place, and the channel that sent it puts its next flit at its lane. An
uncorrectable error discards it and fails the fabric; a corrected one is counted (R318, R520). -/
def State.crossOutput (k port : Nat) (f : Flit) (to' : Loc) (ecc : Secded) (s : State) : State :=
  let refill := fun (s : State) =>
    match f.loc with
    | .router g p => if p < 2 ∧ f.src = 0x40 + g then s.inject g f.ch else s
    | _ => s
  match ecc with
  | .uncorrectable =>
    let s1 := s.dropFlit k
    (match f.loc with
     | .router g _ => (s1.bump (Reg.TILE_JS_ERR_UNCORR g) 1).fabricFault 0 (tileDie g) (0x40 + g) port
     | .quadrant _ _ => (s1.bump Reg.MEM_BSW_STAT_UNCORR 1).fabricFault 0 4 0x18 port
     | .target => s1)
  | _ =>
    let s1 : State := { s with
      flits := s.flits.set k { f with loc := to' }
      turn := if f.sched then s.turn else spSet 0 s.turn (outputNum f.loc port) (f.loc.port + 1) }
    let s2 := if ecc = .corrected then
      (match f.loc with
       | .router g _ => ((s1.bump (Reg.TILE_JS_ERR_CORR g) 1).correctedFlit f).fabricCorrected 0 (0x40 + g) port
       | _ => (s1.correctedFlit f).fabricCorrected 0 0x18 port) else s1
    refill s2

/-- The domain of the place at which a flit stands or for which it leaves (R32). -/
def Flit.domAt (f : Flit) : Loc → Nat
  | .router g _ => 64 + g / 16
  | .quadrant _ _ => 85
  | .target => if 0x40 ≤ f.dest ∧ f.dest < 0x80 then 64 + (f.dest - 0x40) / 16 else unitDom f.dest

/-- A flit passes an output whose two sides are in L0; it wakes a side that sleeps, and is lost where it meets one that is Off (R32, R106). -/
def State.passFlit (k port : Nat) (f : Flit) (to' : Loc) (count : State → State) (ecc : Secded) (s : State) : State :=
  s.through [f.domAt f.loc, f.domAt to'] (fun s => (count s).crossOutput k port f to' ecc) (State.dropFlit k)

/-- FLIT_FORWARD (R320, R321, R324, R325): flit `k` crosses an output of the router or quadrant at which it stands, in the slot that
the tick and its half give. A scheduled flit follows the slot entries; one that no entry of its output takes goes on as a
dynamic flit of its tenancy, but not out of its own lane. -/
def execFlitForward (k port : Nat) (half : Bool) (waited : Nat) (ecc : Secded) (s : State) : Res :=
  match s.flits[k]? with
  | none => .next s
  | some f =>
    let slot := 2 * (s.tick.toNat % 512) + b2n half
    let next := match f.loc with
      | .router g _ => routerNext g port
      | .quadrant q _ => quadrantNext q port
      | .target => none
    match next with
    | none => .next s
    | some to' =>
      if s.behindAnother k f then .next s
      else if f.sched then
        let lane := match f.loc with | .router _ p => p < 2 | _ => false
        if entryTakes (s.slotEntry f.loc port slot) f then .next (s.passFlit k port f to' id ecc)
        else if !lane && port == s.routeOf f && !s.outputTakes f.loc port f then
          let d := { f with sched := false }
          if s.dynamicMay d port slot then
            .next ((State.passFlit k port d to' (fun s => State.countLate f.loc { s with flits := s.flits.set k d }) ecc) s)
          else .next s
        else .next s
      else if port = s.routeOf f ∧ s.dynamicMay f port slot then
        .next (s.passFlit k port f to' (State.countWait f.loc port waited) ecc)
      else .next s

/-! ### At the target -/

/-- The unit serves a request with the epoch: it has power, it is in service and the epoch is its own (R492, R508). -/
def State.serves (s : State) (u e : Nat) : Bool :=
  s.domState (unitDom u) != 5 && s.get (Reg.MC_EPOCH_QSTATE u) == 0 && s.ownEpoch u == e

/-- The scratchpad and the instruction store of a tile can be reached: in every state but L4, and not before an exit from L4 has restored them
(R97). DEDUCED: the partition that L1 to L3 retain answers without a wake. -/
def State.memoryUp (s : State) (g : Nat) : Bool :=
  s.domState g != 4 && !(s.domState g == 6 && (s.dom g).exiting.any (fun e => 20000 ≤ e.2))

/-- A flit acts at its target, once that can take it: a tile's memory is there, an HC's or a link engine's domain is in L0 (R100, R106). -/
def State.atTarget (k : Nat) (f : Flit) (effect : State → State) (s : State) : State :=
  if 0x40 ≤ f.dest ∧ f.dest < 0x80 then (if s.memoryUp (f.dest - 0x40) then effect (s.dropFlit k) else s)
  else s.through [unitDom f.dest] (fun s => effect (s.dropFlit k)) (State.dropFlit k)

/-- Two flits keep their order: they are of one class, from one source to one target, and take one path (R325). -/
def Flit.inOrder (f h : Flit) : Bool :=
  h.isReply == f.isReply && h.src == f.src && h.dest == f.dest && h.sched == f.sched && bits h.addr 8 3 == bits f.addr 8 3

/-- Flit `k` of a type stands at its target, behind none that came before it on its path. -/
def State.arrived (s : State) (k : Nat) (typ : FlitType) : Option Flit :=
  match s.flits[k]? with
  | some f => if f.loc = .target ∧ f.typ = typ ∧ !(s.flits.take k).any f.inOrder then some f else none
  | none => none

/-- A stale request is discarded whole and counted (R492). -/
def State.stale (s : State) : State := s.bump Reg.MC_STALE_FLITS 1

/-- Where the answers of a unit enter the network. -/
def State.answerLoc (s : State) (f : Flit) : Loc :=
  if 0x40 ≤ f.src ∧ f.src < 0x80 then .router (f.src - 0x40) (f.ch % 2) else s.entryPort f

/-- The WACK of a WRITE (R318), with the status of the write. -/
def State.wack (f : Flit) (status : Nat) (s : State) : State :=
  let w : Flit := { f with typ := .wack, epoch := 0, dest := f.src, src := f.dest, data := [], len := f.len, status := status, loc := .target }
  { s with flits := s.flits ++ [{ w with loc := s.answerLoc w }] }

/-- The RDATA of a READ. -/
def State.rdata (f : Flit) (data : List Byte) (poison : Bool) (s : State) : State :=
  let w : Flit := { f with typ := .rdata, epoch := 0, dest := f.src, src := f.dest, data := data, len := data.length, poison := poison, loc := .target }
  { s with flits := s.flits ++ [{ w with loc := s.answerLoc w }] }

/-- A request joins those that wait at an HC (R321, R326). -/
def State.toHc (f : Flit) (s : State) : State :=
  let p := s.hbmPlace f.addr
  let q := ((s.hcq[f.dest - 8]?).getD []) ++ [({ flit := f, port := p.2 % 10, pcs := p.2 } : HcReq)]
  { s with hcq := s.hcq.setIfInBounds (f.dest - 8) q }

/-- The link flit that a link engine makes of a WRITE or READ flit (R357, R358). -/
def State.linkFlitOf (s : State) (j : Nat) (f : Flit) (r : Remote) : LFlit :=
  { vc := if f.sched then 0 else 1, kind := if f.typ = .read then 2 else 1, hbm := r.hbm, lastrec := r.last, poison := f.poison
    relay := s.get (Reg.LNK_STATUS_PEERMOD j) != r.mod, tenancy := f.tenancy, dtile := r.tile, ch := f.ch, stile := f.src - 0x40
    dmod := r.mod, smod := s.modNum, tag := f.tag, dseq := r.dseq, addr := f.addr, mapgen := (s.peerMap r.mod f.tenancy).gen
    data := f.data, rdAddr := f.reply, rdLen := f.len }

/-- A link engine accepts a WRITE or READ flit: it waits for a slot of its virtual channel, a write is visible to its channel
(R385), and the last flit of a descriptor starts the wait for its DACK (R386). -/
def State.linkAccept (f : Flit) (s : State) : State :=
  let j := f.dest - 0x80
  match f.remote with
  | none => s
  | some r =>
    let lf := s.linkFlitOf j f r
    let s1 := s.modLink j (fun l =>
      { l with
        q0 := if lf.vc = 0 then l.q0 ++ [lf] else l.q0
        q1 := if lf.vc = 1 then l.q1 ++ [lf] else l.q1
        owed := if r.last ∧ lf.kind = 1 then l.owed ++ [(lf.stile, lf.ch, r.dseq)] else l.owed })
    if f.typ = .write then s1.wack f stOK else s1

/-- A WRITE flit at its target. -/
def State.takeWrite (f : Flit) (s : State) : State :=
  if f.dest < 0x10 then s.toHc f
  else if 0x80 ≤ f.dest then s.linkAccept f
  else ((s.hearers (f.dest - 0x40)).foldl (fun s g => s.modTile g (fun t => t.spWrite f.addr f.data)) s).wack f stOK

/-- JS_WRITE (R318, R492): a WRITE flit at its target is written in the scratchpad, waits at the HC, or goes out on the link. -/
def execJsWrite (k : Nat) (s : State) : Res :=
  match s.arrived k .write with
  | none => .next s
  | some f => if !s.serves f.dest f.epoch then .next (s.dropFlit k).stale else .next (s.atTarget k f (State.takeWrite f))

/-- A READ flit at its target. -/
def State.takeRead (f : Flit) (ecc : Secded) (s : State) : State :=
  if f.dest < 0x10 then s.toHc f
  else if 0x80 ≤ f.dest then s.linkAccept f
  else
    let g := f.dest - 0x40
    let data := (s.tile g).looseRead s.free (s.get (Reg.TILE_MX_CFG_ACC g)) f.addr f.len
    let s2 : State := { s with free := s.free + 256 }
    let s3 := match ecc with
      | .clean => s2
      | .corrected => (s2.spCorrected g f.addr).correctedFlit f
      | .uncorrectable => s2.spUncorrected g f.addr
    s3.rdata f data (ecc == .uncorrectable)

/-- JS_READ (R318): a READ flit at its target is answered from the scratchpad, waits at the HC, or goes out on the link. -/
def execJsRead (k : Nat) (ecc : Secded) (s : State) : Res :=
  match s.arrived k .read with
  | none => .next s
  | some f => if !s.serves f.dest f.epoch then .next (s.dropFlit k).stale else .next (s.atTarget k f (State.takeRead f ecc))

/-- Channel `c` of tile `g` waits for this answer: its descriptor is the one that asked. -/
def State.awaits (s : State) (g : Nat) (f : Flit) (read : Bool) : Bool :=
  let ch := (s.tile g).chan f.ch
  ch.active && ch.seq % 256 == f.tag && (if read then ch.reads.contains f.src else ch.writes.contains f.src)

/-- The answer to a request of a channel that was stopped meanwhile is absorbed (R352). -/
def State.absorb (g : Nat) (f : Flit) (s : State) : State :=
  s.modTile g (fun t => t.modChan f.ch (fun c => { c with gone := c.gone.erase f.src }))

/-- The address of a channel's active descriptor. -/
def State.descAddr (s : State) (g c : Nat) : Nat := ((((s.tile g).chan c).descs.head?.map (·.1))).getD 0

/-- RDATA reaches one tile: its bytes are written where the descriptor says, or go on to the destination that it names; a poisoned
one raises the DMA exception with UNCORRECTED_MEMORY (R339), one of a remote READ with no bytes ABORTED_EPOCH (R498). An answer
that nobody awaits is absorbed (R352). -/
def State.takeRdata (f : Flit) (g : Nat) (s : State) : State :=
  if !s.awaits g f true then s.absorb g f
  else
    let ch := (s.tile g).chan f.ch
    match ch.descs with
    | [] => s
    | (a, d) :: _ =>
      let s1 := s.modTile g (fun t => t.modChan f.ch (fun c => { c with reads := c.reads.erase f.src }))
      if f.poison then s1.raiseExc g 0x20 stUncorrected 0xF a
      else if f.data.isEmpty ∧ 0x80 ≤ f.src then s1.raiseExc g 0x20 stAbortedEpoch 0xF a
      else
        let src := overlay ch.snap f.addr f.data
        let bs := convBytes (dConv d) src
        if dDstSpace d = 0 then
          (s1.modTile g (fun t => t.spWrite f.reply bs)).set (Reg.TILE_DMA_BYTES_BYTES g)
            (s1.get (Reg.TILE_DMA_BYTES_BYTES g) + bs.length)
        else
          let u := s1.spaceUnit g (dDstSpace d) f.reply ch d
          let w : Flit := { f with
            typ := if dDstSpace d = 5 then .iswrite else .write, epoch := s1.heldEpoch u, dest := u, src := 0x40 + g
            addr := f.reply, data := bs, len := bs.length, reply := 0
            remote := f.remote.map (fun r => { r with last := ch.atEnd && ch.reads.length == 1 && !(tokEnable (dToken d) && tokRemote (dToken d)) }), loc := .router g (f.ch % 2) }
          (s1.modTile g (fun t => t.modChan f.ch (fun c => { c with writes := c.writes ++ [u] }))).departFlit g w

/-- The command of a ring that a flit of the ring engine belongs to. -/
def State.cmdOf (s : State) (r : Remote) : Option RingCmd := s.cmd r.mod r.tile r.dseq

/-- An answer reaches the ring engine: bytes of a COPYOUT leave for host memory, bytes of a COPYIN are visible; a bad word stops
the copy with UNCORRECTED_MEMORY (R414, R339). -/
def State.takeCopy (f : Flit) (s : State) : State :=
  match f.remote with
  | none => s
  | some r =>
    match s.cmdOf r with
    | none => s
    | some c =>
      if f.poison ∨ f.status ≠ stOK then s.cutCmd r.mod r.tile 0 stUncorrected c
      else
        let s1 := s.modCmd r.mod r.tile r.dseq (fun c => { c with owed := c.owed - 1, moved := c.moved + f.len })
        if f.typ = .rdata then (s1.emit (.hostWrite r.mod (c.cHost + f.reply) f.data (s.relaxed r.mod r.tile))).copyPump r.mod r.tile r.dseq 1 else s1

/-- The RDATA that a link engine sends for a remote READ (R358). -/
def State.linkRdata (s : State) (j : Nat) (f : Flit) (r : Remote) : LFlit :=
  { vc := 2, kind := 3, poison := f.poison, tenancy := f.tenancy, dtile := r.tile, ch := f.ch, stile := r.tile, dmod := r.mod
    relay := s.get (Reg.LNK_STATUS_PEERMOD j) != r.mod
    smod := s.modNum, tag := f.tag, dseq := r.dseq, addr := f.reply, mapgen := (s.peerMap r.mod f.tenancy).gen, data := f.data }

/-- A link engine's request `w` is the one that flit `f` answers. -/
def Flit.answers (f w : Flit) : Bool :=
  w.typ == (if f.typ == .rdata then .read else .write) && w.dest == f.src && w.remote == f.remote && w.ch == f.ch && w.tag == f.tag &&
    w.addr == f.addr

/-- The request that a flit answers is served. -/
def Link.answered (f : Flit) (l : Link) : Link :=
  match l.served.find? f.answers with
  | some w => { l with served := l.served.erase w }
  | none => l

/-- RDATA of a remote READ that this module served goes back over the link (R358). -/
def State.rdataToLink (f : Flit) (s : State) : State :=
  let j := f.dest - 0x80
  match f.remote with
  | none => s
  | some r => s.modLink j (fun l => { l.answered f with q2 := l.q2 ++ [s.linkRdata j f r] })

/-- JS_RDATA (R318): read data reaches its requester. That of a link carries the epoch that the link engine stamped, and is discarded where
its tile has another since (R372, R492). -/
def execJsRdata (k : Nat) (s : State) : Res :=
  match s.arrived k .rdata with
  | none => .next s
  | some f =>
    let s1 := s.dropFlit k
    if 0x80 ≤ f.src ∧ f.dest < 0x80 ∧ s.ownEpoch f.dest ≠ f.epoch then .next s1.stale
    else if 0x80 ≤ f.dest then .next (s1.rdataToLink f)
    else if f.dest = 0x01 then .next (s1.takeCopy f)
    else .next ((s1.hearers (f.dest - 0x40)).foldl (fun s g => s.takeRdata f g) s1)

/-- A WACK reaches one tile: the write is visible; one that failed raises the DMA exception (R339, R341). -/
def State.takeWack (f : Flit) (g : Nat) (s : State) : State :=
  if !s.awaits g f false then s.absorb g f
  else
    let a := s.descAddr g f.ch
    let s1 := (s.modTile g (fun t => t.modChan f.ch (fun c => { c with writes := c.writes.erase f.src }))).set
      (Reg.TILE_DMA_BYTES_BYTES g) (s.get (Reg.TILE_DMA_BYTES_BYTES g) + if f.status = stOK then f.len else 0)
    if f.status = stOK then s1 else s1.raiseExc g 0x20 f.status 0xF a

/-- The epoch that a link engine stamps on a token packet when it accepts it: its target's (R296). -/
def State.tokenStamp (s : State) (t : Nat) (w : List Byte) : Nat :=
  let n := leNat w
  s.heldEpoch (if bitAt n 3 then 0xC0 + t else 0x40 + s.facing (bits n 16 6))

/-- The bytes of a token packet (R283) as the entries of an Isobar packet of a link's share (R294), with the epoch that was stamped. -/
def State.linkToken (j : Nat) (d : RxDesc) (tok : List Byte × Nat) (s : State) : State :=
  let n := leNat tok.1
  let pool := bitAt n 3
  let q := bits n 4 12
  let g := bits n 16 6
  let t := d.tenancy
  let owned := if pool then (s.pq q).owner.toNat == t else s.tileTen g == t && q < 32
  if !owned then
    (s.bump (Reg.LNK_LATE_DISCARD j) 1).logEvent
      { kind := 0x0D, status := stNotOwner, unit := 0x80 + j, tenancy := t
        body := [BitVec.ofNat 8 d.smod, BitVec.ofNat 8 d.stile, BitVec.ofNat 8 j] ++ leBytes 3 q }
  else
    let p : Iso :=
      { kind := .signal, pool := pool, queue := q, tile := s.facing g, src := .link j (bits n 22 6) (bits n 28 6) true, tenancy := t
        count := bits n 40 24, epoch := tok.2 }
    s.sendIso p

/-- A received descriptor whose flits have all come and are all visible: its tokens are applied and a DACK goes back (R385); one
that met an epoch change keeps both (R498). Earlier descriptors of the channel come first, and so do its scheduled flits that are held to their
release. -/
def State.settleRx (j : Nat) : Nat → State → State
  | 0, s => s
  | n + 1, s =>
    let rx := (s.link j).rx
    match rx.find? (fun d => d.last && d.owed == 0 &&
        (rx.find? (fun e => e.smod == d.smod && e.stile == d.stile && e.ch == d.ch)) == some d &&
        !(s.link j).held.any (fun h => h.2.smod == d.smod && h.2.stile == d.stile && h.2.ch == d.ch)) with
    | none => s
    | some d =>
      let s1 := s.modLink j (fun l => { l with rx := l.rx.erase d })
      if d.aborted then State.settleRx j n (s1.modLink j (fun l => { l with ret3 := l.ret3 + d.tokens.length }))
      else
        let s2 := d.tokens.foldl (fun s w => s.linkToken j d w) s1
        let ack : LFlit :=
          { vc := 2, kind := 4, tenancy := d.tenancy, ch := d.ch, stile := d.stile, dmod := d.smod, smod := s.modNum
            mapgen := (s.peerMap d.smod d.tenancy).gen
            relay := s.get (Reg.LNK_STATUS_PEERMOD j) != d.smod, dseq := d.dseq }
        State.settleRx j n (s2.modLink j (fun l => { l with ret3 := l.ret3 + d.tokens.length, q2 := l.q2 ++ [ack] }))

/-- JS_WACK (R318): the write's sender learns that it is visible. -/
def execJsWack (k : Nat) (s : State) : Res :=
  match s.arrived k .wack with
  | none => .next s
  | some f =>
    let s1 := s.dropFlit k
    if 0x80 ≤ f.dest then
      let j := f.dest - 0x80
      match f.remote with
      | none => .next s1
      | some r =>
        let s2 := s1.modLink j (fun l => { l.answered f with rx := l.rx.map (fun d =>
          if d.smod = r.mod ∧ d.stile = r.tile ∧ d.ch = f.ch ∧ d.dseq = r.dseq then { d with owed := d.owed - 1 } else d) })
        .next (s2.settleRx j ((s2.link j).rx.length))
    else if f.dest = 0x01 then .next (s1.takeCopy f)
    else .next ((s1.hearers (f.dest - 0x40)).foldl (fun s g => s.takeWack f g) s1)

/-- A bundle of a tile's instruction store is written whole. It may be one of the four that are fetched ahead, on whatever way issue takes:
while the next four bundles issue, the old one may still be what issues (R176). -/
def Tile.isWrite (a : Nat) (bs : List Byte) (t : Tile) : Tile :=
  let b := a / 64
  { t with
    istore := memWrite ramByte t.istore (64 * b) (bs.take 64)
    stale := t.stale ++ [(b, 4, t.bundle b)] }

/-- JS_ISWRITE (R176): an instruction-store write flit writes a whole bundle and is acknowledged. -/
def execJsIswrite (k : Nat) (s : State) : Res :=
  match s.arrived k .iswrite with
  | none => .next s
  | some f =>
    if !s.serves f.dest f.epoch then .next (s.dropFlit k).stale
    else .next (s.atTarget k f (fun s =>
      ((s.hearers (f.dest - 0x40)).foldl (fun s g => s.modTile g (Tile.isWrite f.addr f.data)) s).wack f stOK))

end Sys2Proof.Machine
end

