-- ==== Sys2Proof/Machine/Dma.lean ====
section
/-! DEFINITION. The DMA channels: the checks of a descriptor when it becomes active (R347), its start (R343 to R348), its end and its
token (R292 to R295). -/

namespace Sys2Proof.Machine

/-! ### The descriptor's checks (R347) -/

/-- The integer is a multiple of `m`. -/
def mult (m : Nat) (x : Int) : Bool := x % (m : Int) == 0

/-- A dimension is stepped: its count is above 1. -/
def steps (d : List Byte) (i : Nat) : Bool := dN d i > 1

/-- An unknown operation, space or conversion, a reserved field that is not 0, two peers, or an address or stride that its element
size, its bundles or its words do not divide. -/
def badDescriptor (d : List Byte) : Bool :=
  let op := dOp d
  let tok := dToken d
  let es := dEsize d
  let ms := max (convSizes (dConv d)).1 es
  let md := max (convSizes (dConv d)).2 es
  let dims := [1, 2, 3, 4]
  (op == 0 || op > 3) || dSrcSpace d > 4 || dDstSpace d > 5 || dConv d > 4 || (dConv d != 0 && op != 1) || dEsizeCode d == 3 ||
    bits (leAt d 63 1) 3 1 != 0 || bits (leAt d 63 1) 7 1 != 0 || dPeerTile d ≥ 64 || dPeerMod d ≥ 64 || tok ≥ 2 ^ 27 ||
    (2 ≤ dSrcSpace d && 2 ≤ dDstSpace d && dDstSpace d ≤ 4) ||
    (tokEnable tok && !tokPool tok && tokQueue tok > 31) ||
    (op == 3 && leAt d 48 8 != 0) ||
    (op != 3 && (dSrc d % ms != 0 || dDst d % md != 0 || dN0 d % ms != 0 ||
      dims.any (fun i => (steps d i && !mult ms (dS d i)) || ((steps d i || (op == 2 && i == 1)) && !mult md (dD d i))))) ||
    (dDstSpace d == 5 && (dDst d % 64 != 0 || dN0 d % 64 != 0 || dRowOut d % 64 != 0 ||
      (op != 3 && dims.any (fun i => (steps d i || (op == 2 && i == 1)) && !mult 64 (dD d i))))) ||
    (op == 2 && ((dN0 d / es != 64 && dN0 d / es != 128) || dDst d % 64 != 0 || !mult 64 (dD d 1))) ||
    (op == 3 && (dN d 4 != 1 || gOW d == 0 || gIH d == 0 || gIW d == 0 || gSY d == 0 || gSX d == 0 || gDY d == 0 || gDX d == 0 ||
      gOX0 d ≥ gOW d || dN0 d % 64 != 0 || dSrc d % 64 != 0 || dDst d % 64 != 0 || gPstride d % 64 != 0 || gDrow d % 64 != 0))

/-- An extent lies in its space: scratchpad, instruction store, granules of the tenancy, or granules of the peer's published map
(R347, R452). -/
def State.extentOk (s : State) (t space mod' : Nat) (e : Int × Int) : Bool :=
  if space = 1 then 0 ≤ e.1 && e.2 ≤ s.hbmTop && (extentGranules e).all (fun G => s.granOwner G == t)
  else if space = 4 then 0 ≤ e.1 && e.2 ≤ 0x4000000000 && (extentGranules e).all (fun G => bitAt (s.peerMap mod' t).grans G)
  else if space = 5 then 0 ≤ e.1 && e.2 ≤ 0x20000
  else 0 ≤ e.1 && e.2 ≤ 0x800000

/-- The token target is local and not the tenancy's (R295). -/
def State.tokenForeign (s : State) (t tok : Nat) : Bool :=
  tokEnable tok && !tokRemote tok &&
    (if tokPool tok then (s.pq (tokQueue tok)).owner.toNat != t else s.tileTen (tokTile tok) != t)

/-- A descriptor names a peer module: in a space or by its token; the module. -/
def dRemote (d : List Byte) : Option Nat :=
  if dSrcSpace d = 3 ∨ dSrcSpace d = 4 ∨ dDstSpace d = 3 ∨ dDstSpace d = 4 then some (dPeerMod d)
  else if tokEnable (dToken d) ∧ tokRemote (dToken d) then some (tokMod (dToken d)) else none

/-- The bond member of a dynamic descriptor, or the member on whose slot table the channel's slots lie (R366). -/
def State.memberFor (s : State) (g c m : Nat) (sched : Bool) : Nat :=
  let b := bondSize s.domP s.domN
  if sched then
    ((List.range b).find? (fun i =>
      let j := bondLink s.domN s.modNum m i
      (List.range 150).any (fun k =>
        let e := (spGet 0 s.slotsL (150 * j + k)).toNat
        bitAt e 0 && bits e 6 6 == g && bits e 12 2 == c))).getD ((4 * g + c) % max b 1)
  else (4 * g + c) % max b 1

/-- The status of the first check that a descriptor fails, in the order of R347. -/
def State.dmaCheck (s : State) (g c : Nat) (d : List Byte) : Option Nat :=
  let t := s.tileTen g
  if badDescriptor d then some stBadDescriptor
  else if dN0 d ≠ 0 ∧ (!s.extentOk t (dSrcSpace d) (dPeerMod d) (srcExtent d) ||
      !s.extentOk t (dDstSpace d) (dPeerMod d) (dstExtent d)) then some stBounds
  else if (dSrcSpace d = 2 ∨ dDstSpace d = 2) ∧ s.tileTen (dPeerTile d) ≠ t then some stNotOwner
  else if (dSrcSpace d = 3 ∨ dDstSpace d = 3) ∧ !bitAt (s.peerMap (dPeerMod d) t).tiles (dPeerTile d) then some stNotOwner
  else if s.tokenForeign t (dToken d) then some stNotOwner
  else match dRemote d with
  | none => none
  | some m =>
    match s.reach m (s.memberFor g c m (dSched d)) (dSched d) with
    | .inl _ => none
    | .inr st => some st

/-! ### Bytes written twice (R343, R348) -/

/-- The addresses of a transfer's bytes on a side. -/
def dmaDstBytes (d : List Byte) : List Nat :=
  (List.range (dmaRows d)).flatMap (fun r => (List.range (dmaRow d r).len).map (fun i => ((dmaRow d r).dst + i) % 2 ^ 48))
def dmaSrcBytes (d : List Byte) : List Nat :=
  (List.range (dmaRows d)).flatMap (fun r =>
    let row := dmaRow d r
    let n := if dOp d = 1 then dN0 d else row.len
    match row.src with
    | none => []
    | some a => (List.range n).map (fun i => (a + i) % 2 ^ 48))

/-- Two extents meet. -/
def meet (a b : Int × Int) : Bool := a.1 < b.2 && b.1 < a.2

/-- Source and destination lie in one memory of this module. -/
def sameMemory (g : Nat) (d : List Byte) : Bool :=
  (dSrcSpace d == 0 && (dDstSpace d == 0 || (dDstSpace d == 2 && dPeerTile d == g))) ||
    (dSrcSpace d == 2 && dPeerTile d == g && dDstSpace d == 0) || (dSrcSpace d == 1 && dDstSpace d == 1)

/-- The destination bytes that are also source bytes of the same copy. -/
def ownOverlap (g : Nat) (d : List Byte) : List Nat :=
  if sameMemory g d && dN0 d != 0 && meet (srcExtent d) (dstExtent d) then
    let src := dmaSrcBytes d
    (dmaDstBytes d).filter (fun a => src.contains a)
  else []

/-- The bytes of a tile's scratchpad that both transfers write. -/
def bothWrite (d e : List Byte) : List Nat :=
  if dDstSpace d == dDstSpace e && dDstSpace d ≤ 1 && dN0 d != 0 && dN0 e != 0 && meet (dstExtent d) (dstExtent e) then
    let w := dmaDstBytes e
    (dmaDstBytes d).filter (fun a => w.contains a)
  else []

/-! ### Start -/

/-- A channel can start its head descriptor: it is not active, and where the path to a peer changes every descriptor sent on the old
path has its DACK (R348, R386). -/
def State.chanReady (s : State) (g c : Nat) (path : Option Nat) : Bool :=
  let ch := (s.tile g).chan c
  !ch.active && !ch.descs.isEmpty &&
    (match path with
     | none => true
     | some j => (List.range 64).all (fun i => i == j || !(s.link i).owed.any (fun o => o.1 == g && o.2.1 == c)))

/-- DMA_DESCRIPTOR_START (R347, R348): the head descriptor of a channel becomes active, is checked before any byte moves, and its
first flit stands at the channel's lane. A failed check raises the DMA exception with the descriptor's address. An
uncorrectable word of the descriptor is an error that an engine access found. -/
def execDmaDescriptorStart (tile : Fin 64) (chan : Fin 4) (ecc : Secded) (s : State) : Res :=
  let g := tile.val
  let c := chan.val
  let ch := (s.tile g).chan c
  match ch.descs with
  | [] => .next s
  | (a, d) :: _ =>
    let m := dRemote d
    let way : Option (Nat × Option Nat) := m.bind (fun m =>
      match s.reach m (s.memberFor g c m (dSched d)) (dSched d) with
      | .inl w => some w
      | .inr _ => none)
    if !s.chanReady g c (way.map (·.1)) ∨ !s.tileBusy g ∨ ((s.tile g).owedStarts.contains c ∧ ch.descs.length = 1) then .next s
    else if ecc = .uncorrectable then .next ((s.spUncorrected g a).raiseExc g 0x22 stUncorrected 0xF a)
    else
      let s0 := if ecc = .corrected then s.spCorrected g a else s
      match s0.dmaCheck g c d with
      | some st => .next (s0.raiseExc g 0x20 st 0xF a)
      | none =>
        let dup := ownOverlap g d
        let snap := dup.map (fun x => (x, if dSrcSpace d = 1 then (s0.hbmRead x 1).headD 0 else ((s0.tile g).spRead x 1).headD 0))
        let others := (List.range 4).filter (fun k => k != c && ((s0.tile g).chan k).active)
        let s1 := others.foldl (fun s k =>
          match ((s.tile g).chan k).descs with
          | (_, e) :: _ =>
            let both := bothWrite d e
            (s.modTile g (fun t => t.modChan k (fun x => { x with clash := x.clash ++ both }))).modTile g
              (fun t => t.modChan c (fun x => { x with clash := x.clash ++ both }))
          | [] => s) s0
        let s2 := s1.modTile g (fun t => t.modChan c (fun x =>
          { x with
            active := true, row := 0, off := 0, reads := [], writes := [], seq := (x.seq + 1) % 65536
            link := way.map (·.1), relay := way.bind (·.2), snap := snap }))
        .next (s2.inject g c)

/-! ### End -/

/-- Free bytes written at addresses of a memory: `hbm` or the tile's scratchpad. -/
def State.blur (g : Nat) (hbm : Bool) (as : List Nat) (s : State) : State :=
  as.foldl (fun s a =>
    let b := Config.freeByte s.free
    let s1 := s.draw
    if hbm then s1.hbmWrite a [b] else s1.modTile g (fun t => t.spWrite a [b])) s

/-- The number of a kind of packet. -/
def IsoKind.num : IsoKind → Nat
  | .signal => 0 | .wait => 1 | .take => 2 | .release => 3 | .cancel => 4 | .sweep => 5 | .peek => 6 | .reply => 7

/-- The source tile that a packet names: none for a source that is no tile. -/
def Source.tile : Source → Nat
  | .slot g => g
  | .dma g _ => g
  | .rime d => d
  | .link _ g _ _ => g
  | _ => 0

/-- The 128 bits of a packet of module `m` (R283), with its CRC. -/
def Iso.bytes (p : Iso) (m : Nat) : List Byte :=
  let w0 := p.kind.num + 8 * b2n p.pool + 16 * p.queue + 2 ^ 16 * (p.tile % 64) + 2 ^ 22 * p.src.tile + 2 ^ 28 * m + 2 ^ 34 * p.tenancy +
    2 ^ 39 * b2n p.drift + 2 ^ 40 * p.count
  let body := leBytes 8 w0 ++ leBytes 6 (p.epoch % 65536 + 2 ^ 16 * p.seq)
  body ++ leBytes 2 (crc16 body)

/-- The token of a descriptor departs (R292, R294, R296). One for another module goes in a TOKENS flit behind the descriptor's data, of the same
virtual channel where the descriptor is scheduled (R359), and it is the last flit of the descriptor, whose DACK the channel awaits (R386). -/
def State.sendToken (g c : Nat) (d : List Byte) (s : State) : State :=
  let tok := dToken d
  let t := s.tileTen g
  let ch := (s.tile g).chan c
  if !tokEnable tok then s
  else if tokRemote tok then
    if s.isShadow g then s
    else
      let j := ch.link.getD 0
      let p : Iso := { kind := .signal, pool := tokPool tok, queue := tokQueue tok, tile := tokTile tok, src := .dma g c, tenancy := t
                       count := dTcount d, epoch := 0, seq := ch.seq }
      let f : LFlit :=
        { vc := if dSched d then 0 else 3, kind := 5, tenancy := t, ch := c, stile := g, dmod := tokMod tok, smod := s.modNum, dseq := ch.seq
          lastrec := true, mapgen := (s.peerMap (tokMod tok) t).gen, relay := s.get (Reg.LNK_STATUS_PEERMOD j) != tokMod tok
          tokens := [p.bytes s.modNum] }
      s.modLink j (fun l =>
        { l with
          q0 := if dSched d then l.q0 ++ [f] else l.q0
          q3 := if dSched d then l.q3 else l.q3 ++ [f]
          owed := l.owed ++ [(g, c, ch.seq)] })
  else
    let u := if tokPool tok then 0xC0 + t else 0x40 + s.facing (tokTile tok)
    s.departToken g
      { kind := .signal, pool := tokPool tok, queue := tokQueue tok, tile := s.facing (tokTile tok), src := .dma g c, tenancy := t
        count := dTcount d, epoch := s.heldEpoch u }

/-- DMA_DESCRIPTOR_DONE (R292, R348): every read and write of the active descriptor is answered, so its token departs, the channel
lets it go and holds what is queued. A copy inside the scratchpad moves its bytes here. -/
def execDmaDescriptorDone (tile : Fin 64) (chan : Fin 4) (s : State) : Res :=
  let g := tile.val
  let c := chan.val
  let ch := (s.tile g).chan c
  match ch.descs with
  | [] => .next s
  | (_, d) :: rest =>
    if !ch.active then .next s
    else if dmaLocal d then
      let n := s.free
      let data := (List.range (dmaRows d)).flatMap (fun r => (rowPieces d (dmaRow d r)).map (fun p =>
        (((dmaRow d r).dst + p.1) % 2 ^ 48,
         match pieceSrc (dConv d) (dmaRow d r) p.1 p.2 with
         | none => zeros p.2
         | some (a, k) => convBytes (dConv d) ((s.tile g).looseRead (n + a) (s.get (Reg.TILE_MX_CFG_ACC g)) a k))))
      let s1 : State := { s with free := n + 0x1000000 }
      let s2 := s1.modTile g (fun t => data.foldl (fun t w => t.spWrite w.1 w.2) t)
      let s3 := (s2.blur g false (ch.snap.map (·.1))).blur g false ch.clash
      let s4 := s3.set (Reg.TILE_DMA_BYTES_BYTES g) (s3.get (Reg.TILE_DMA_BYTES_BYTES g) + dmaByteCount d)
      let s5 := s4.sendToken g c d
      .next ((s5.modTile g (fun t => t.modChan c (fun x => { descs := rest, seq := x.seq, gone := x.gone }))).syncDma g)
    else if !ch.atEnd || !ch.reads.isEmpty || !ch.writes.isEmpty then .next s
    else
      let hbm := dDstSpace d == 1
      let s1 := (s.blur g hbm (ch.snap.map (·.1))).blur g hbm ch.clash
      let s2 := s1.sendToken g c d
      .next ((s2.modTile g (fun t => t.modChan c (fun x => { descs := rest, seq := x.seq, gone := x.gone }))).syncDma g)

end Sys2Proof.Machine
end

