-- ==== Sys2Proof/Machine/Rings.lean ====
section
/-! DEFINITION. The rings: polling (R406, R407), doorbell and descriptor reads (R408), the checks of a command (R409), ABORT (R424),
dispatch (R410, R423), interrupts (R425, R426, R400), ring set-up (R429, R430), IDE (R399), resets (R432, R433). -/

namespace Sys2Proof.Machine

/-! ### The checks of a command (R409, R412, R473) -/

/-- Bytes `i` to `j` − 1 of a descriptor are 0. -/
def zeroBytes (d : List Byte) (i j : Nat) : Bool := (slice d i (j - i)).all (fun b => b == 0)

/-- Check 1. -/
def badFormat (d : List Byte) : Bool := leAt d 2 1 != 1 || leAt d 3 1 != 0 || leAt d 1 1 ≥ 4

/-- The opcodes of R412 and R473. -/
def knownOp (op : Nat) : Bool :=
  [0x01, 0x02, 0x03, 0x10, 0x11, 0x12, 0x13, 0x20, 0x21, 0x30, 0x31, 0x32, 0x50, 0x51, 0x52].contains op

/-- A token address of a host command: reserved bits 0, REMOTE 0, an LQ number below 32. -/
def badHostToken (t : Nat) : Bool := t ≥ 2 ^ 27 || tokRemote t || (tokEnable t && !tokPool t && tokQueue t > 31)

/-- Check 3: an operand out of range or misaligned, or a reserved byte that is not 0. -/
def badOperands (d : List Byte) : Bool :=
  match leAt d 0 1 with
  | 0x02 => leAt d 16 8 % 4096 != 0 || !zeroBytes d 24 64
  | 0x03 => leAt d 12 1 > 15 || !zeroBytes d 13 64
  | 0x10 => leAt d 8 4 == 0 || leAt d 8 4 > 256 || leAt d 12 1 > 2 || leAt d 13 1 > 3 || (leAt d 13 1 != 0 && leAt d 12 1 != 2) ||
      !zeroBytes d 14 64
  | 0x11 => !zeroBytes d 16 64
  | 0x12 => leAt d 32 4 == 0 || badHostToken (leAt d 36 4) || !zeroBytes d 43 64
  | 0x13 => leAt d 32 4 == 0 || !zeroBytes d 36 64
  | 0x20 => leAt d 8 2 > 4095 || !zeroBytes d 10 12 || !zeroBytes d 15 64
  | 0x21 => leAt d 8 2 > 4095 || !zeroBytes d 10 12 || !zeroBytes d 15 64
  | 0x30 => leAt d 8 1 > 63 || leAt d 9 1 > 4 || !zeroBytes d 10 64
  | 0x31 => leAt d 8 1 > 63 || leAt d 9 1 > 3 || !zeroBytes d 10 12 || leAt d 12 4 % 8 != 0 || leAt d 16 4 % 8 != 0 ||
      leAt d 16 4 > 0x100000 || !zeroBytes d 20 24 || !zeroBytes d 32 64
  | 0x32 => leAt d 8 1 > 63 || leAt d 9 1 > 3 || !zeroBytes d 10 12 || leAt d 12 4 % 8 != 0 || leAt d 16 4 % 8 != 0 ||
      leAt d 16 4 > 0x100000 || !zeroBytes d 20 24 || !zeroBytes d 32 64
  | 0x01 => !zeroBytes d 8 64
  | op =>
    leAt d 8 1 > 3 || leAt d 9 1 > 1 || leAt d 10 2 > 4096 || (if op = 0x50 then leAt d 10 2 != 0 else leAt d 10 2 == 0) ||
      leAt d 12 2 > 4095 || !zeroBytes d 14 16 || leAt d 19 1 != 0 || badHostToken (leAt d 20 4) || !zeroBytes d 27 32 ||
      leAt d 32 8 % 64 != 0 || leAt d 40 8 % 64 != 0 || (op == 0x50 && leAt d 40 8 != 0) || !zeroBytes d 48 64

/-- The generation of a handle slot (R449). -/
def State.handleGen (s : State) (i : Nat) : Nat := (s.startCount % 4096 * 2 ^ 20 + (s.handle i).allocs) % 2 ^ 32

/-- The checks of a handle for a tenancy, in their order (R450). -/
def State.handleCheck (s : State) (t h : Nat) (free : Bool) : Option Nat :=
  let slot := s.handle (h % 4096)
  if bits h 48 5 ≠ t ∨ bits h 12 4 ≠ 0 ∨ h / 2 ^ 53 ≠ 0 then some stNotOwner
  else if bits h 16 32 ≠ s.handleGen (h % 4096) then some stStaleHandle
  else if slot.owner ≠ t then some stNotOwner
  else if !slot.live then some (if free then stDoubleFree else stStaleHandle)
  else none

/-- The handle that a command names. -/
def cmdHandle (d : List Byte) : Option Nat :=
  match leAt d 0 1 with
  | 0x02 | 0x11 => some (leAt d 8 8)
  | 0x12 | 0x13 => some (leAt d 16 8)
  | _ => none

/-- A pooled queue lies in a tenancy's range. -/
def State.ownsQueue (s : State) (t q : Nat) : Bool :=
  s.get (Reg.PQ_TNCFG_BASE t) ≤ q && q < s.get (Reg.PQ_TNCFG_BASE t) + s.get (Reg.PQ_TNCFG_COUNT t)

/-- Check 5: a tile, queue, engine, token target or debug target is not the tenancy's, or it has no debug permission. -/
def State.notOwned (s : State) (t : Nat) (d : List Byte) : Bool :=
  match leAt d 0 1 with
  | 0x12 => s.tokenForeign t (leAt d 36 4)
  | 0x20 | 0x21 => !s.ownsQueue t (leAt d 8 2)
  | 0x30 | 0x31 | 0x32 => s.tileTen (leAt d 8 1) != t || s.get (Reg.TN_STATE_DEBUG t) == 0
  | 0x50 | 0x51 | 0x52 =>
    s.rimeTen (leAt d 8 1) != t || (leAt d 9 1 == 1 && !s.ownsQueue t (leAt d 12 2)) || s.tokenForeign t (leAt d 20 4)
  | _ => false

/-- Check 6: an extent leaves its buffer or space. -/
def State.outOfBounds (s : State) (t : Nat) (d : List Byte) : Bool :=
  let inHbm := fun (a n : Nat) => a + n ≤ s.hbmTop && (extentGranules ((a : Int), (a + n : Nat))).all (fun G => s.granOwner G == t)
  match leAt d 0 1 with
  | 0x12 | 0x13 => leAt d 24 8 + leAt d 32 4 > (s.handleGrans (leAt d 16 8)).length * 2 ^ 30
  | 0x31 | 0x32 => leAt d 12 4 + leAt d 16 4 > debugSpace (leAt d 9 1)
  | 0x50 => !inHbm (leAt d 32 8) 64
  | 0x51 | 0x52 => !inHbm (leAt d 32 8) 64 || !inHbm (leAt d 40 8) (128 * leAt d 10 2)
  | _ => false

/-- Checks 1 to 6 of a command of function `f` (R409): the status of the first that fails. -/
def State.checkCmd (s : State) (f : Nat) (d : List Byte) : Option Nat :=
  if badFormat d then some stBadDescriptor
  else if !knownOp (leAt d 0 1) then some stBadOpcode
  else if badOperands d then some stBadDescriptor
  else match (cmdHandle d).bind (fun h => s.handleCheck f h (leAt d 0 1 == 0x11)) with
  | some st => some st
  | none =>
    if s.notOwned f d then some stNotOwner
    else if s.outOfBounds f d then some stBounds else none

/-- A handle failure is logged with the handle and the command (R450). -/
def State.logHandle (f r : Nat) (c : RingCmd) (st : Nat) (s : State) : State :=
  match cmdHandle c.desc with
  | some h =>
    if (s.handleCheck f h (c.op == 0x11)) = some st ∧ !badFormat c.desc ∧ !badOperands c.desc then
      s.logCmd f r c { kind := 0x0C, status := st, body := leBytes 8 h ++ [BitVec.ofNat 8 c.op] }
    else s
  | none => s

/-- A command ends at once with the status of a failed check (R409). -/
def State.rejectCmd (f r : Nat) (c : RingCmd) (st : Nat) (s : State) : State :=
  let s1 := s.logHandle f r c st
  let c' := (s1.cmd f r c.idx).getD c
  s1.endCmd f r { c' with fail := some { status := st } } st 0

/-! ### ABORT (R424, R435) -/

/-- Count `a` comes before count `b`. -/
def before (a b : Nat) : Bool := let d := (b + 2 ^ 32 - a) % 2 ^ 32; 0 < d && d ≤ 2 ^ 31

/-- ABORT command `a` of ring `r` completes with RESULT 0, or with a failed check. -/
def State.endAbort (f r a st : Nat) (s : State) : State :=
  match s.cmd f r a with
  | some c => s.endCmd f r { c with fail := if st = stOK then none else some { status := st } } st 0
  | none => s

/-- ABORT `a` of ring `r` acts on command `idx` of ring `tr`, which is fetched. -/
def State.abortCmd (f r a tr idx : Nat) (s : State) : State :=
  match s.cmd f tr idx with
  | none => s.endAbort f r a stOK
  | some c =>
    let c' := { c with abortedBy := [(r, a)] }
    if !c.abortedBy.isEmpty then s.endAbort f r a stOK
    else if c.st = .fetched then
      (s.modCmd f tr idx (fun _ => c')).endCmd f tr { c' with fail := some { status := stAbortedHost } } stAbortedHost 0
    else if c.op = 0x02 ∨ c.op = 0x12 ∨ c.op = 0x13 ∨ c.op = 0x21 then
      (s.modCmd f tr idx (fun _ => c')).cutCmd f tr 0x24 stAbortedHost c'
    else s.endAbort f r a stOK

/-- An ABORT acts; from then on it waits for its target's completion, or ends. -/
def State.actAbort (f r : Nat) (c : RingCmd) (s : State) : State :=
  let s := s.modCmd f r c.idx (fun c => { c with st := .running })
  let target := leAt c.desc 8 4
  let tr := leAt c.desc 12 1
  if badFormat c.desc ∨ badOperands c.desc ∨ !before target (s.ring f tr).ctail ∨ (s.ring f tr).aborts.contains target then
    s.endAbort f r c.idx stBadDescriptor
  else if !before target (s.get (Reg.RING_STATE_CHEAD f tr)) then
    s.modRing f tr (fun x => { x with early := x.early ++ [(target, r, c.idx)] })
  else s.abortCmd f r c.idx tr target

/-- A fetched descriptor joins its ring's commands: ABORTs that came before their target act, and a command that fails a check ends. -/
def State.takeDescriptor (f r idx : Nat) (d : List Byte) (s : State) : State :=
  let c : RingCmd := { idx := idx, desc := d, epoch := s.epoch (0xC0 + f) }
  let early := (s.ring f r).early.filter (fun e => e.1 == idx)
  let isAbort := c.op == 0x03
  let s1 := s.modRing f r (fun x =>
    { x with
      cmds := x.cmds ++ [c], aborts := if isAbort then x.aborts ++ [idx] else x.aborts
      early := x.early.filter (fun e => e.1 != idx) })
  if isAbort then
    early.foldl (fun s e => s.endAbort f e.2.1 e.2.2 stBadDescriptor) s1
  else
    match early with
    | e :: es =>
      let s2 := s1.abortCmd f e.2.1 e.2.2 r idx
      es.foldl (fun s e => s.endAbort f e.2.1 e.2.2 stOK) s2
    | [] =>
      match s1.checkCmd f d with
      | some st => s1.rejectCmd f r c st
      | none => s1

/-- ABORT (R424): a fetched ABORT is acted on, ahead of any command that waits to dispatch. -/
def execAbort (func : Fin 17) (ring : Fin 16) (index : BitVec 32) (s : State) : Res :=
  match s.cmd func.val ring.val index.toNat with
  | some c =>
    if c.op = 0x03 ∧ c.st = .fetched ∧ s.phase = .ready then .next (s.actAbort func.val ring.val c) else .next s
  | none => .next s

/-- A fetched ABORT of the function has not acted yet. -/
def State.abortWaits (s : State) (f : Nat) : Bool :=
  (List.range 16).any (fun r => (s.ring f r).cmds.any (fun c => c.op == 3 && c.st == .fetched))

/-! ### Polling -/

/-- The ring is served: running, on a Secure stream where it asks for one, after Ready. -/
def State.ringServed (s : State) (f r : Nat) : Bool :=
  s.phase == .ready && s.ringState f r == ringRunning && !s.ideBlocked f r

/-- A poll that is late and comes earlier in the order of due times (R407). -/
def State.polledFirst (s : State) (f r : Nat) : Bool :=
  ringNumbers.any (fun p =>
    let x := s.ring p.1 p.2
    let y := s.ring f r
    s.ringServed p.1 p.2 && !x.reading && x.due.toNat < s.tick.toNat &&
      (x.due.toNat < y.due.toNat || (x.due == y.due && (p.1 < f || (p.1 == f && p.2 < r)))))

/-- DOORBELL_POLL (R406, R407): a ring's interval is over and its doorbell record is read, unless 128 reads have started in this
microsecond or one that waits is due earlier. A read that starts after its due time is counted. -/
def execDoorbellPoll (func : Fin 17) (ring : Fin 16) (s : State) : Res :=
  let f := func.val
  let r := ring.val
  let x := s.ring f r
  let us := s.tick.toNat / 1000
  let n := if s.polls.1.toNat = us then s.polls.2 else 0
  if !s.ringServed f r || x.reading || s.tick.toNat < x.due.toNat || n ≥ 128 || s.polledFirst f r then .next s
  else
    let s1 := if x.due.toNat < s.tick.toNat then s.bump (Reg.RING_POLLSTAT_LATE f r) 1 else s
    let s2 := s1.modRing f r (fun x => { x with reading := true, due := s.tick })
    .next (({ s2 with polls := (BitVec.ofNat 64 us, n + 1) } : State).emit
      (.hostRead f (64 * s.get (Reg.RING_DBADDR_ADDR f r)) 8))

/-- A ring goes to ERROR with a status (R408): its status record says so and the event is logged. -/
def State.ringFail (f r st : Nat) (s : State) : State :=
  let s1 := (s.set (Reg.RING_STATE_ERRSTATUS f r) st).modRing f r (fun x => { x with reading := false, fetching := 0 })
  (s1.setRingState f r ringError).logEvent
    { kind := 0x11, func := f, ring := r, tenancy := f, body := [BitVec.ofNat 8 f, BitVec.ofNat 8 r, 3] }

/-- Commands that may be fetched now (R408): up to CTAIL, at most 64 a read, never more than 64 ahead of the oldest command not yet
dispatched, and not past the end of the ring in host memory. -/
def State.fetchable (s : State) (f r : Nat) : Nat :=
  let x := s.ring f r
  let head := s.get (Reg.RING_STATE_CHEAD f r)
  let size := 2 ^ s.get (Reg.RING_SIZE_CMDLOG2 f r)
  let posted := (x.ctail + 2 ^ 32 - head) % 2 ^ 32
  let oldest := match x.cmds.find? (fun c => c.st == .fetched && c.op != 3) with
    | some c => c.idx
    | none => head
  let ahead := (head + 2 ^ 32 - oldest) % 2 ^ 32
  min (min posted (64 - ahead)) (size - head % size)

/-- Descriptors are asked for where some may be fetched and no read is under way. -/
def State.askFetch (f r : Nat) (s : State) : State :=
  let n := s.fetchable f r
  if !s.ringServed f r || (s.ring f r).fetching != 0 || n == 0 then s
  else
    let size := 2 ^ s.get (Reg.RING_SIZE_CMDLOG2 f r)
    (s.modRing f r (fun x => { x with fetching := n })).emit
      (.hostRead f (64 * s.get (Reg.RING_CMDBASE_ADDR f r) + 64 * (s.get (Reg.RING_STATE_CHEAD f r) % size)) (64 * n))

/-- The ring waits for space in its completion ring (R423). -/
def State.wantsSpace (s : State) (f r : Nat) : Bool :=
  s.get (Reg.RING_COUNT_INFLIGHT f r) + s.unread f r ≥ 2 ^ s.get (Reg.RING_SIZE_CPLLOG2 f r)

/-- The interval of a ring's polls, in units of 250 ns: 50 µs in Deep Frost (R407). -/
def State.pollUnits (s : State) (f r : Nat) : Nat :=
  if s.frost = .awake then s.get (Reg.RING_POLLSTAT_CURRENT f r) else 200

/-- DOORBELL_READ_DONE (R406, R408): the doorbell record arrives. Its counts are checked, the interval follows from whether CTAIL
advanced, completions that waited for space are written, and descriptors are asked for. A new command starts the exit from Deep Frost
(R122). -/
def execDoorbellReadDone (func : Fin 17) (ring : Fin 16) (res : HostRead) (s : State) : Res :=
  let f := func.val
  let r := ring.val
  let x := s.ring f r
  if !x.reading then .next s
  else if !s.ringServed f r then .next (s.modRing f r (fun x => { x with reading := false }))
  else match res with
  | .failed => .next (s.ringFail f r stAbortedHost)
  | .data bs =>
    let ctail := leAt bs 0 4
    let rhead := leAt bs 4 4
    if (ctail + 2 ^ 32 - s.get (Reg.RING_STATE_CHEAD f r)) % 2 ^ 32 > 2 ^ s.get (Reg.RING_SIZE_CMDLOG2 f r) ∨
        (s.get (Reg.RING_COUNT_CWRITTEN f r) + 2 ^ 32 - rhead) % 2 ^ 32 > 2 ^ s.get (Reg.RING_SIZE_CPLLOG2 f r) then
      .next (s.ringFail f r stBadDescriptor)
    else
      let cur := s.get (Reg.RING_POLLSTAT_CURRENT f r)
      let advanced := ctail != x.ctail
      let s1 := (s.modRing f r (fun x => { x with ctail := ctail, rhead := rhead, reading := false })).flushFunc f
      let next := if advanced || s1.wantsSpace f r then s1.get (Reg.RING_POLL_MIN f r)
        else min (2 * cur) (s1.get (Reg.RING_POLL_MAX f r))
      let s2 := s1.set (Reg.RING_POLLSTAT_CURRENT f r) next
      let s3 := s2.modRing f r (fun y => { y with due := x.due + BitVec.ofNat 64 (250 * s2.pollUnits f r) })
      .next ((if advanced then s3.wakeFrost else s3).askFetch f r)

/-- The descriptors of a read join the ring in order. -/
def State.takeAll (f r : Nat) : Nat → List Byte → State → State
  | 0, _, s => s
  | n + 1, bs, s =>
    let idx := s.get (Reg.RING_STATE_CHEAD f r)
    let s1 := s.set (Reg.RING_STATE_CHEAD f r) (idx + 1)
    State.takeAll f r n (bs.drop 64) (s1.takeDescriptor f r idx (bs.take 64))

/-- DESCRIPTOR_FETCH_DONE (R408, R409, R403): descriptors arrive, the status record is written, each is checked. -/
def execDescriptorFetchDone (func : Fin 17) (ring : Fin 16) (res : HostRead) (s : State) : Res :=
  let f := func.val
  let r := ring.val
  let n := (s.ring f r).fetching
  if n = 0 then .next s
  else
    let s0 := s.modRing f r (fun x => { x with fetching := 0 })
    if !s.ringServed f r then .next s0
    else match res with
    | .failed => .next (s0.ringFail f r stAbortedHost)
    | .data bs =>
      let head := s0.get (Reg.RING_STATE_CHEAD f r)
      let s1 := ((s0.set (Reg.RING_STATE_CHEAD f r) (head + n)).writeStatus f r).set (Reg.RING_STATE_CHEAD f r) head
      .next ((s1.takeAll f r n bs).askFetch f r)

/-! ### Dispatch -/

/-- The tiles that a LAUNCH's image names, as it stands in the buffer. -/
def State.namedTiles (s : State) (c : RingCmd) : Nat :=
  if c.op = 0x02 then leNat (s.bufRead (leAt c.desc 8 8) (leAt c.desc 16 8 + 12) 8)
  else if c.op = 0x31 ∨ c.op = 0x32 then 2 ^ (leAt c.desc 8 1 % 64) else 0

/-- The tiles that dispatched LAUNCHes of a function hold: those whose halt is not complete (R410). -/
def State.launchTiles (s : State) (f : Nat) : Nat :=
  (List.range 16).foldl (fun m r => ((s.ring f r).cmds.filter (fun c => c.op == 2 && c.st != .fetched)).foldl
    (fun m c => m ||| (if c.st = .running then maskOf ((bitList 64 c.place).filter s.tileBusy) else s.namedTiles c)) m) 0

/-- A LAUNCH waits for tiles of an earlier LAUNCH of its tenancy; DBGREAD and DBGWRITE wait while their tile issues (R410). DBGCTL
acts on a running tile. -/
def State.waitsForTile (s : State) (f : Nat) (c : RingCmd) : Bool :=
  let shared := s.namedTiles c &&& s.launchTiles f
  if c.op = 0x02 then shared != 0
  else (bitList 64 shared).any (fun g => s.run g == runRunning || s.run g == runWait)

/-- Commands that a Rime engine holds, the one it runs included, or that are on their way to it (R464, R485). -/
def State.rimeLoad (s : State) (d : Nat) : Nat :=
  ringNumbers.foldl (fun n p => n + ((s.ring p.1 p.2).cmds.filter (fun c => c.st != .fetched && 0x50 ≤ c.op && leAt c.desc 8 1 == d)).length) 0

/-- The command must wait (R410, R423, R475): its fence, its tile, its engine's queue, a slot of the completion ring. -/
def State.mustWait (s : State) (f r : Nat) (c : RingCmd) : Bool :=
  let x := s.ring f r
  (bitAt (leAt c.desc 1 1) 0 && (x.cmds.any (fun e => before e.idx c.idx) || x.cpls.any (fun e => before e.idx c.idx))) ||
    s.waitsForTile f c || (0x50 ≤ c.op && s.rimeLoad (leAt c.desc 8 1) ≥ 4) || s.wantsSpace f r

/-- The units that a command is for (R411): a LAUNCH's tiles, a Rime command's engine. -/
def State.targetUnits (s : State) (c : RingCmd) : List Nat :=
  if c.op = 0x02 then (bitList 64 (s.namedTiles c)).map (0x40 + ·) else if 0x50 ≤ c.op then [0x10 + leAt c.desc 8 1 % 4] else []

/-- The epoch of a unit with which a command was stamped at its dispatch (R411). -/
def State.stampOf (s : State) (c : RingCmd) (u : Nat) : Nat :=
  ((c.stamp.find? (fun e => e.1 == u)).map (·.2)).getD (s.heldEpoch u)

/-- COMMAND_DISPATCH (R410, R411, R423, R435): the oldest checked command of a ring is dispatched, stamped with the tenancy's and its target units' epochs, once nothing
holds it back; in Deep Frost and its exit none is (R122). One whose tenancy's epoch changed since its check ends with ABORTED_EPOCH. -/
def execCommandDispatch (func : Fin 17) (ring : Fin 16) (s : State) : Res :=
  let f := func.val
  let r := ring.val
  match (s.ring f r).cmds.find? (fun c => c.st == .fetched && c.op != 3) with
  | none => .next s
  | some c =>
    let st := s.ringState f r
    if s.phase ≠ .ready ∨ s.frost ≠ .awake ∨ (st ≠ ringRunning ∧ st ≠ ringError) ∨ s.abortWaits f ∨ s.ideBlocked f r ∨ s.mustWait f r c then .next s
    else if c.epoch ≠ s.epoch (0xC0 + f) then
      .next ((s.endCmd f r { c with fail := some { status := stAbortedEpoch } } stAbortedEpoch 0).askFetch f r)
    else
      let s1 := s.modCmd f r c.idx (fun c =>
        { c with st := .dispatched, start := s.tick, stamp := (s.targetUnits c).map (fun u => (u, s.heldEpoch u)) })
      .next ((s1.set (Reg.RING_COUNT_INFLIGHT f r) (s1.get (Reg.RING_COUNT_INFLIGHT f r) + 1)).askFetch f r)

/-! ### Interrupts -/

/-- IRQ_TIMER (R426): RING_IRQ.TIME has passed since the first counting completion that is not announced. -/
def execIrqTimer (func : Fin 17) (ring : Fin 16) (s : State) : Res :=
  let f := func.val
  let r := ring.val
  match (s.ring f r).irqStart with
  | none => .next s
  | some t0 =>
    let n := s.get (Reg.RING_IRQ_TIME f r)
    if n = 0 ∨ s.since t0 < 1000 * n ∨ !s.on (Reg.RING_CTL_IRQEN f r) ∨ s.ideBlocked f r then .next s
    else .next (s.ringMsix f r)

/-- A vector is unmasked, and a message that waited in its pending bit is sent (R400). -/
def State.unmaskMsix (f v : Nat) (s : State) : State :=
  let b : Word := BitVec.ofNat 64 (2 ^ v)
  let was := (s.func f).msix.pending.getLsbD v
  let s1 := s.modFunc f (fun h => { h with msix := { h.msix with masked := h.msix.masked &&& ~~~b, pending := h.msix.pending &&& ~~~b } })
  if was then s1.sendMsix f v else s1

/-- MSIX_UNMASK (R400): a write of the MSI-X table, which is ignored and counted before Ready (R150). -/
def execMsixUnmask (func : Fin 17) (vector : Fin 64) (s : State) : Res :=
  .next (s.whenReady (State.unmaskMsix func.val vector.val))

/-! ### Ring set-up -/

/-- Every field that a started ring holds is legal (R429). -/
def State.ringLegal (s : State) (f r vector : Nat) : Bool :=
  let inLog := fun (n : Nat) => 4 ≤ n && n ≤ 16
  1 ≤ vector && inLog (s.get (Reg.RING_SIZE_CMDLOG2 f r)) && inLog (s.get (Reg.RING_SIZE_CPLLOG2 f r)) &&
    1 ≤ s.get (Reg.RING_POLL_MIN f r) && s.get (Reg.RING_POLL_MIN f r) ≤ s.get (Reg.RING_POLL_MAX f r) &&
    s.get (Reg.RING_POLL_MAX f r) ≤ 200

/-- EN 1 takes effect: the counts are 0 and the first poll is due (R406, R429). -/
def State.startRing (f r : Nat) (s : State) : State :=
  let s1 := (s.modRing f r (fun _ => { due := s.tick + BitVec.ofNat 64 (250 * s.get (Reg.RING_POLL_MIN f r)) })).unset
    [Reg.RING_STATE_CHEAD f r, Reg.RING_COUNT_CWRITTEN f r, Reg.RING_COUNT_INFLIGHT f r, Reg.RING_STATE_ERRSTATUS f r]
  let s2 := (s1.set (Reg.RING_POLLSTAT_CURRENT f r) (s1.get (Reg.RING_POLL_MIN f r))).set (Reg.RING_CTL_EN f r) 1
  s2.setRingState f r (if s2.ideBlocked f r then ringHeld else ringRunning)

/-- EN 0 (R430): fetching stops, commands not dispatched end with ABORTED_HOST, the rest run to their ends. -/
def State.stopRing (f r : Nat) (s : State) : State :=
  let s1 := (s.set (Reg.RING_CTL_EN f r) 0).modRing f r (fun x => { x with reading := false, fetching := 0 })
  let s2 := s1.setRingState f r ringStopping
  let early := (s2.ring f r).early
  let s3 := ((s2.ring f r).cmds.filter (fun c => c.st == .fetched)).foldl (fun s c =>
    s.endCmd f r { c with fail := some { status := stAbortedHost } } stAbortedHost 0) s2
  let s4 := early.foldl (fun s e => s.endAbort f e.2.1 e.2.2 stAbortedHost) (s3.modRing f r (fun x => { x with early := [] }))
  s4.flushFunc f

/-- A write of RING_CTL of ring `r` of function `f`, by function `who` (R397, R429, R430, R455). -/
def State.writeRingCtl (who f r : Nat) (part : Part) (v : Word) (s : State) : State :=
  let fs := Reg.row_RING_CTL.fields f r
  let new := partOf (s.wordOf fs) part v
  let en := bitAt new 0
  let was := s.on (Reg.RING_CTL_EN f r)
  let off := (Reg.RING_CTL_EN f r).off
  let st := s.ringState f r
  if (who = 0 ∧ f ≠ 0) ∨ (st ≠ ringOff ∧ s.changesRwl fs part v) then s.logRefused off who v.toNat
  else if en && !was then
    if st ≠ ringOff ∨ !s.ringLegal f r (bits new 8 6) then s.logRefused off who v.toNat
    else if s.on Reg.TN_ISO_CLAIMED ∧ s.tnStarted f ∧ !bitAt new 2 then
      (s.logRefused off who v.toNat).bump Reg.TN_ISO_REFUSED 1
    else (s.putWord fs part v).startRing f r
  else
    let s1 := s.putWord fs part v
    if !en && st ≠ ringOff && st ≠ ringStopping then s1.stopRing f r else s1

/-- RING_ENABLE (R429): a write of RING_CTL with EN 1 by the ring's own function. -/
def execRingEnable (func : Fin 17) (ring : Fin 16) (part : Part) (v : Word) (s : State) : Res :=
  .next (s.whenReady (fun s => s.writeRingCtl func.val func.val ring.val part v))

/-- RING_DISABLE (R430): a write of RING_CTL with EN 0 by the ring's own function. -/
def execRingDisable (func : Fin 17) (ring : Fin 16) (part : Part) (v : Word) (s : State) : Res :=
  .next (s.whenReady (fun s => s.writeRingCtl func.val func.val ring.val part v))

/-! ### IDE and resets -/

/-- A ring with IDEREQ follows its stream: held, or served again with what it held written first (R399). -/
def State.ringFollowsIde (f r : Nat) (s : State) : State :=
  if !s.on (Reg.RING_CTL_IDEREQ f r) then s
  else if s.ideBlocked f r then
    if s.ringState f r = ringRunning then
      (s.modRing f r (fun x => { x with reading := false, fetching := 0 })).setRingState f r ringHeld
    else s
  else if s.ringState f r = ringHeld then
    let min' := s.get (Reg.RING_POLL_MIN f r)
    let s1 := (s.set (Reg.RING_POLLSTAT_CURRENT f r) min').modRing f r (fun x => { x with due := s.tick + BitVec.ofNat 64 (250 * min') })
    (s1.setRingState f r ringRunning).flushFunc f
  else s.flushFunc f

/-- A function's stream leaves or enters the Secure state (R399). -/
def State.setSecure (f : Nat) (secure : Bool) (s : State) : State :=
  let old := s.get Reg.RING_IDE_SECURE
  if bitAt old f = secure then s
  else
    let s1 := s.set Reg.RING_IDE_SECURE (if secure then old ||| 2 ^ f else old - 2 ^ f)
    let s2 := s1.logEvent { kind := 0x11, func := f, tenancy := f, body := [BitVec.ofNat 8 f, 0xFF, 2] }
    (List.range 16).foldl (fun s r => s.ringFollowsIde f r) s2

/-- IDE_STATE_CHANGE (R399). -/
def execIdeStateChange (func : Fin 17) (secure : Bool) (s : State) : Res := .next (s.setSecure func.val secure)

/-- The host port is up: from the end of stage 2 on (R150). -/
def State.hostUp (s : State) : Bool :=
  s.phase == .ready || ((s.phase == .bringUp || s.phase == .recovery || s.phase == .halted) && s.domState 84 != 5)

/-- A function-level reset is logged (R432). -/
def State.flr (f : Nat) (s : State) : State :=
  ((s.resetFunc f).modFunc f (fun _ => {})).logEvent
    { kind := 0x11, func := f, tenancy := f, body := [BitVec.ofNat 8 f, 0xFF, 0] }

/-- FLR_VF (R432): a function-level reset of a VF. -/
def execFlrVf (func : Fin 17) (s : State) : Res :=
  if func.val = 0 ∨ !s.hostUp then .next s else .next ((s.bump Reg.RING_HOST_FLRS 1).flr func.val)

/-- FLR_PF0 (R433): a function-level reset of PF0 resets every function and clears VF Enable. -/
def execFlrPf0 (s : State) : Res :=
  if !s.hostUp then .next s
  else
    let s1 := (List.range 17).foldl (fun s f => s.flr f) (s.bump Reg.RING_HOST_FLRS 1)
    .next { s1 with vfEnable := false }

/-- A conventional reset (R433): what a reset of PF0 does, with configuration space at its reset values and no stream Secure. The rest
of the module runs on. The link is down until it trains again. -/
def State.conventionalReset (s : State) : State :=
  let s1 := (List.range 17).foldl (fun s f => (s.resetFunc f).modFunc f (fun _ => {})) (s.bump Reg.RING_HOST_RESETS 1)
  let s2 : State := { s1 with vfEnable := false }
  let s3 := (s2.set Reg.RING_IDE_SECURE 0).unset [Reg.RING_HOST_SPEED, Reg.RING_HOST_FLIT, Reg.RING_HOST_WIDTH]
  s3.logEvent { kind := 0x11, func := 0, body := [0, 0xFF, 1] }

/-- HOT_RESET (R433). -/
def execHotReset (s : State) : Res := if s.hostUp then .next s.conventionalReset else .next s

/-- UNCOMMANDED_LINK_DOWN (R433): a link down that the host did not command, or removal of the host. -/
def execUncommandedLinkDown (s : State) : Res := if s.hostUp then .next s.conventionalReset else .next s

/-- PCIE_LINK_UP (R149, R431): the host port's link trains to a rate (1 to 3), a width of 8 or 16 and a mode. -/
def execPcieLinkUp (speed : Fin 4) (width : Fin 32) (flit : Bool) (s : State) : Res :=
  if !s.hostUp || speed.val == 0 || (width.val != 8 && width.val != 16) || s.pins.perst then .next s
  else .next (((s.set Reg.RING_HOST_SPEED speed.val).set Reg.RING_HOST_WIDTH width.val).set Reg.RING_HOST_FLIT
    (b2n (flit || speed.val == 3)))

end Sys2Proof.Machine
end

