-- ==== Sys2Proof/Machine/Commands.lean ====
section
/-! DEFINITION. The commands of the rings other than LAUNCH (R412): NOP, ALLOC and FREE (R447 to R451), copies (R414), SIGNALQ, WAITQ
(R416), the debug commands (R415), the Rime commands (R473, R475), and what the host answers to the module's reads (R414). -/

namespace Sys2Proof.Machine

/-! ### The row of a command -/

/-- A dispatched command of the opcode, or nothing happens. -/
def State.withCmd (f r idx op : Nat) (k : RingCmd → State → State) (s : State) : State :=
  match s.cmd f r idx with
  | some c => if c.op = op ∧ c.st = .dispatched ∧ s.phase = .ready then k c s else s
  | none => s

/-- A command under way of the opcode. -/
def State.withRunning (f r idx op : Nat) (k : RingCmd → State → State) (s : State) : State :=
  match s.cmd f r idx with
  | some c => if c.op = op ∧ c.st = .running ∧ s.phase = .ready then k c s else s
  | none => s

/-- A command that uses units ends with ABORTED_EPOCH where its tenancy's epoch has changed since its dispatch (R34, R435). -/
def State.fresh (f r : Nat) (k : RingCmd → State → State) (c : RingCmd) (s : State) : State :=
  if c.epoch ≠ s.epoch (0xC0 + f) then s.endCmd f r { c with fail := some { status := stAbortedEpoch } } stAbortedEpoch 0 else k c s

/-- A command ends with check 7 (R409). -/
def State.noResource (f r : Nat) (c : RingCmd) (s : State) : State :=
  s.endCmd f r { c with fail := some { status := stNoResource } } stNoResource 0

/-- NOP (R412): completes. -/
def execNop (func : Fin 17) (ring : Fin 16) (index : BitVec 32) (s : State) : Res :=
  .next (s.withCmd func.val ring.val index.toNat 0x01 (fun c s => s.endCmd func.val ring.val c stOK 0))

/-! ### ALLOC and FREE -/

/-- A LAUNCH, copy, WAITQ or Rime command of the function is dispatched and unfinished (R451). -/
def State.buffersBusy (s : State) (f : Nat) : Bool :=
  (List.range 16).any (fun r => (s.ring f r).cmds.any (fun c => c.st != .fetched &&
    (c.op == 0x02 || c.op == 0x12 || c.op == 0x13 || c.op == 0x21 || 0x50 ≤ c.op)))

/-- The home die of a granule in local mode: its stack's (R28). -/
def State.granDie (s : State) (G : Nat) : Nat :=
  let ns := if s.hbmStacks = 6 then 6 else 8
  s.stackList.getD (G % ns) 0 / 2

/-- A granule is in local mode. -/
def State.granLocal (s : State) (G : Nat) : Bool := bitAt (s.get Reg.MEM_GROUPMODE_LOCAL) (G / (if s.hbmStacks = 6 then 6 else 8))

/-- A granule that ALLOC may take (R447): in the HBM range, no owner, not withheld (R539), its stacks in service, and as PLACE says. -/
def State.granFree (s : State) (place die G : Nat) : Bool :=
  G * 2 ^ 30 < s.hbmTop && s.granOwner G == 31 && !bitAt (s.get (Reg.MC_GRANWH_WITHHELD (G / 64))) (G % 64) &&
    (s.granStacks G).all (fun k => s.stackMapped k && !s.unitHeld (8 + k)) &&
    (match place with
     | 1 => !s.granLocal G
     | 2 => s.granLocal G && s.granDie G == die
     | _ => true)

/-- Granules that a tenancy owns. -/
def State.granCount (s : State) (t : Nat) : Nat := ((List.range 256).filter (fun G => s.granOwner G == t)).length

/-- A tenancy's live handles. -/
def State.liveHandles (s : State) (t : Nat) : Nat := (s.handles.filter (fun e => e.2.live && e.2.owner == t)).length

/-- TN_STATE.BUFS follows the live handles. -/
def State.syncBufs (t : Nat) (s : State) : State := s.set (Reg.TN_STATE_BUFS t) (s.liveHandles t)

/-- The lowest handle slot that is free and has generations left (R449). -/
def State.freeSlot (s : State) : Option Nat :=
  (List.range 4096).find? (fun i => !(s.handle i).live && (s.handle i).allocs < 0xFFFFF)

/-- Granules take an owner. -/
def State.ownGranules (gs : List Nat) (owner : Nat) (s : State) : State :=
  { s with granules := gs.foldl (fun v G => v.setIfInBounds G (BitVec.ofNat 5 owner)) s.granules }

/-- Every byte of a granule is 0 and holds no poison (R447). -/
def State.clearGranule (G : Nat) (s : State) : State :=
  { s with hbm := memClear s.hbm (G * 2 ^ 30) (2 ^ 30)
           moved := s.moved.filter (· != G)
           poison := spClear (fun w => w / 2 ^ 24 == G) s.poison
           rewrites := s.rewrites.filter (fun w => w / 2 ^ 24 != G) }

/-- The quiesce of a buffer change (R502): with the completion of its command the tenancy's epoch is committed and sent, unless the last change
is less than 20 µs ago or another quiesce holds the unit, for which it waits (R494, R518). -/
def State.quiesceBuffer (t : Nat) (s : State) : State :=
  let u := 0xC0 + t
  let q : Quiesce := { units := [u], reason := 4, tenancy := t }
  if s.epochFree u ∧ !s.quiesces.any (fun q => q.units.contains u) then
    (((s.commitEpoch u 4).sendEpoch u 0 4 t).set (Reg.MC_EPOCH_QSTATE u) 1).askQuiesce { q with phase := .fenced, start := s.tick }
  else s.askQuiesce q

/-- A buffer change advances the map generation, and the epoch by a quiesce with reason BUFFER (R451). -/
def State.bufferChanged (t : Nat) (s : State) : State := ((s.newMap t).syncBufs t).quiesceBuffer t

/-- The handle of a slot (R449). -/
def State.handleOf (s : State) (t i : Nat) : Nat := i + 2 ^ 16 * s.handleGen i + 2 ^ 48 * t

/-- ALLOC (R412, R447): takes the lowest granules that fit, clears them and gives a handle. A clearing write that fails twice poisons its
word, is recorded, and the ALLOC assigns nothing. -/
def State.alloc (f r : Nat) (failed : Option Nat) (c : RingCmd) (s : State) : State :=
  let n := leAt c.desc 8 4
  let gs := ((List.range 256).filter (s.granFree (leAt c.desc 12 1) (leAt c.desc 13 1))).take n
  match s.freeSlot with
  | none => s.noResource f r c
  | some i =>
    if s.buffersBusy f ∨ gs.length < n ∨ s.granCount f + n > s.get (Reg.TN_CFG_GRANQ f) ∨
        s.liveHandles f + 1 > s.get (Reg.TN_CFG_BUFQ f) then s.noResource f r c
    else
      let s1 := gs.foldl (fun s G => s.clearGranule G) s
      match failed with
      | some k =>
        let w := gs.getD (k / 2 ^ 24 % max n 1) 0 * 2 ^ 24 + k % 2 ^ 24
        let s2 : State := { s1 with poison := spSet false s1.poison w true }
        let s3 := (s2.logCmd f r c { kind := 0x05, cls := 2, status := stUncorrected, unit := 8 + (s2.hbmPlace (64 * w)).1
                                     body := leBytes 6 (64 * w) ++ [BitVec.ofNat 8 (s2.hbmPlace (64 * w)).1,
                                       BitVec.ofNat 8 (s2.hbmPlace (64 * w)).2, 6] }).countPoison w
        let c' := (s3.cmd f r c.idx).getD c
        s3.endCmd f r { c' with fail := some { status := stUncorrected } } stUncorrected 0
      | none =>
        let s2 := s1.ownGranules gs f
        let h := s2.handle i
        let s3 : State := { s2 with
          handles := spSet {} s2.handles i { allocs := h.allocs + 1, live := true, owner := f, grans := gs } }
        (s3.bufferChanged f).endCmd f r c stOK (s3.handleOf f i)

/-- ALLOC. `failed` is the 64-byte word, counted over the granules taken, whose clearing write failed. -/
def execAlloc (func : Fin 17) (ring : Fin 16) (index : BitVec 32) (failed : Option Nat) (s : State) : Res :=
  .next (s.withCmd func.val ring.val index.toNat 0x10 (fun c s => s.alloc func.val ring.val failed c))

/-- FREE (R450, R451): the buffer's granules have no owner; their contents stay, unreadable. -/
def State.freeBuf (f r : Nat) (c : RingCmd) (s : State) : State :=
  let h := leAt c.desc 8 8
  match s.handleCheck f h true with
  | some st => s.rejectCmd f r c st
  | none =>
    if s.buffersBusy f ∨ (s.get (Reg.TN_SAVE_HANDLE f) = h ∧ h ≠ 0) then s.noResource f r c
    else
      let i := h % 4096
      let s1 := s.ownGranules (s.handle i).grans 31
      let s2 : State := { s1 with handles := spSet {} s1.handles i { s1.handle i with live := false, grans := [] } }
      (s2.bufferChanged f).endCmd f r c stOK 0

/-- FREE. -/
def execFree (func : Fin 17) (ring : Fin 16) (index : BitVec 32) (s : State) : Res :=
  .next (s.withCmd func.val ring.val index.toNat 0x11 (fun c s => s.freeBuf func.val ring.val c))

/-! ### Copies -/

/-- The stacks of a command's buffer are in service (R508). -/
def State.copyHeld (s : State) (c : RingCmd) : Bool :=
  (List.range 8).any (fun k => s.unitHeld (8 + k) && s.cmdUses c (8 + k))

/-- COPYIN starts: the module asks for its first bytes. -/
def State.copyIn (f r : Nat) (c : RingCmd) (s : State) : State :=
  if s.copyHeld c then s.noResource f r c
  else (s.modCmd f r c.idx (fun c => { c with st := .running })).emit (.hostRead f c.cHost c.hostChunk)

/-- COPYIN (R412, R414). -/
def execCopyin (func : Fin 17) (ring : Fin 16) (index : BitVec 32) (s : State) : Res :=
  .next (s.withCmd func.val ring.val index.toNat 0x12 (State.fresh func.val ring.val (State.copyIn func.val ring.val)))

/-- COPYOUT starts: the first READ flits leave. -/
def State.copyOut (f r : Nat) (c : RingCmd) (s : State) : State :=
  if s.copyHeld c then s.noResource f r c
  else (s.modCmd f r c.idx (fun c => { c with st := .running })).copyPump f r c.idx copyWindow

/-- COPYOUT (R412, R414). -/
def execCopyout (func : Fin 17) (ring : Fin 16) (index : BitVec 32) (s : State) : Res :=
  .next (s.withCmd func.val ring.val index.toNat 0x13 (State.fresh func.val ring.val (State.copyOut func.val ring.val)))

/-- The token that a command's descriptor names departs from the ring engine (R292, R412). -/
def State.hostToken (f tok count : Nat) (s : State) : State :=
  if !tokEnable tok then s
  else
    let g := s.facing (tokTile tok)
    s.sendIso { kind := .signal, pool := tokPool tok, queue := tokQueue tok, tile := g, src := .ring f true, tenancy := f
                count := count, epoch := s.heldEpoch (if tokPool tok then 0xC0 + f else 0x40 + g) }

/-- A copy has moved its last byte: it ends, a COPYIN after its token. -/
def State.copyDone (f r : Nat) (c : RingCmd) (s : State) : State :=
  if c.cursor < c.cLen ∨ c.owed ≠ 0 then s
  else if c.op = 0x12 then (s.hostToken f (leAt c.desc 36 4) (leAt c.desc 40 3)).endCmd f r c stOK c.moved
  else s.endCmd f r c stOK c.moved

/-- COPY_DONE (R414): every byte of a COPYIN is visible, every write of a COPYOUT has been sent. -/
def execCopyDone (func : Fin 17) (ring : Fin 16) (index : BitVec 32) (s : State) : Res :=
  let f := func.val
  let r := ring.val
  .next ((s.withRunning f r index.toNat 0x12 (State.copyDone f r)).withRunning f r index.toNat 0x13 (State.copyDone f r))

/-! ### Debug commands -/

/-- The tile that a debug command reaches: the primary for a shadow (R525). -/
def State.dbgTile (s : State) (c : RingCmd) : Nat := s.facing (leAt c.desc 8 1 % 64)

/-- A debug command reaches its tile: in service (R508) and awake, woken first where it sleeps (R109). -/
def State.atTile (f r : Nat) (k : RingCmd → State → State) (c : RingCmd) (s : State) : State :=
  let g := s.dbgTile c
  if !s.tileUsable g then s.noResource f r c
  else if s.domState g = 0 then k c s
  else s.wakeDomain g

/-- The word of TILE_STATE. -/
def State.tileStateWord (s : State) (g : Nat) : Nat := s.wordOf (Reg.row_TILE_STATE.fields g 0)

/-- A DBGCTL command acts and completes with TILE_STATE (R412, R415). -/
def State.dbgCtl (f r : Nat) (pinnable : Bool) (act : Nat → State → State) (c : RingCmd) (s : State) : State :=
  if !pinnable ∧ s.tnPinned f then s.noResource f r c
  else
    let s1 := act (s.dbgTile c) s
    s1.endCmd f r c stOK (s1.tileStateWord (s.dbgTile c))

/-- The row of a DBGCTL action. -/
def State.dbgRow (f r idx action : Nat) (pinnable : Bool) (act : Nat → State → State) (s : State) : State :=
  s.withCmd f r idx 0x30 (fun c s =>
    if leAt c.desc 9 1 ≠ action then s
    else s.fresh f r (State.atTile f r (State.dbgCtl f r pinnable act)) c)

/-- DBGCTL_HALT (R191, R415). -/
def execDbgctlHalt (func : Fin 17) (ring : Fin 16) (index : BitVec 32) (s : State) : Res :=
  .next (s.dbgRow func.val ring.val index.toNat 0 false State.debugHalt)

/-- DBGCTL_RESUME. -/
def execDbgctlResume (func : Fin 17) (ring : Fin 16) (index : BitVec 32) (s : State) : Res :=
  .next (s.dbgRow func.val ring.val index.toNat 1 true (fun g s => s.debugGo g false))

/-- DBGCTL_STEP. -/
def execDbgctlStep (func : Fin 17) (ring : Fin 16) (index : BitVec 32) (s : State) : Res :=
  .next (s.dbgRow func.val ring.val index.toNat 2 false (fun g s => s.debugGo g true))

/-- DBGCTL_ARM. -/
def execDbgctlArm (func : Fin 17) (ring : Fin 16) (index : BitVec 32) (s : State) : Res :=
  .next (s.dbgRow func.val ring.val index.toNat 3 true (fun g s => s.set (Reg.TILE_DBG_CTL_ARM g) 1))

/-- DBGCTL_DISARM. -/
def execDbgctlDisarm (func : Fin 17) (ring : Fin 16) (index : BitVec 32) (s : State) : Res :=
  .next (s.dbgRow func.val ring.val index.toNat 4 true (fun g s => s.set (Reg.TILE_DBG_CTL_ARM g) 0))

/-- DBGREAD copies words of a tile to host memory. -/
def State.dbgRead (f r : Nat) (c : RingCmd) (s : State) : State :=
  if !s.debugReadable (s.dbgTile c) then s.noResource f r c
  else
    let n := leAt c.desc 16 4
    let bs := s.debugBytes (s.dbgTile c) (leAt c.desc 9 1) (leAt c.desc 12 4) n
    (if n = 0 then s else s.emit (.hostWrite f (leAt c.desc 24 8) bs (s.relaxed f r))).endCmd f r c stOK n

/-- DBGREAD (R193, R412, R415). -/
def execDbgread (func : Fin 17) (ring : Fin 16) (index : BitVec 32) (s : State) : Res :=
  let f := func.val
  let r := ring.val
  .next (s.withCmd f r index.toNat 0x31 (State.fresh f r (State.atTile f r (State.dbgRead f r))))

/-- DBGWRITE asks the host for the bytes. -/
def State.dbgWrite (f r : Nat) (c : RingCmd) (s : State) : State :=
  let n := leAt c.desc 16 4
  if !s.debugReadable (s.dbgTile c) then s.noResource f r c
  else if n = 0 then s.endCmd f r c stOK 0
  else (s.modCmd f r c.idx (fun c => { c with st := .running })).emit (.hostRead f (leAt c.desc 24 8) n)

/-- DBGWRITE (R193, R412, R415). -/
def execDbgwrite (func : Fin 17) (ring : Fin 16) (index : BitVec 32) (s : State) : Res :=
  let f := func.val
  let r := ring.val
  .next (s.withCmd f r index.toNat 0x32 (State.fresh f r (State.atTile f r (State.dbgWrite f r))))

/-! ### What the host answers -/

/-- Bytes for a COPYIN: they leave as WRITE flits, and the next bytes are asked for. -/
def State.copyBytes (f r : Nat) (bs : List Byte) (c : RingCmd) (s : State) : State :=
  let n := c.hostChunk
  if bs.length ≠ n ∨ n = 0 then s
  else
    let s1 := s.copyWrites f r c n c.cursor bs
    let c' := { c with cursor := c.cursor + n }
    let s2 := s1.modCmd f r c.idx (fun c => { c with cursor := c.cursor + n })
    if c'.cursor < c'.cLen then s2.emit (.hostRead f (c'.cHost + c'.cursor) c'.hostChunk) else s2

/-- Bytes for a DBGWRITE: whole words are written, and it ends. -/
def State.dbgBytes (f r : Nat) (bs : List Byte) (c : RingCmd) (s : State) : State :=
  if bs.length ≠ leAt c.desc 16 4 then s
  else if !s.debugReadable (s.dbgTile c) then s.noResource f r c
  else (s.writeDebugBytes (s.dbgTile c) (leAt c.desc 9 1) (leAt c.desc 12 4) bs).endCmd f r c stOK bs.length

/-- A command whose host read failed ends with ABORTED_HOST and the bytes it moved (R394). -/
def State.hostFailed (f r : Nat) (c : RingCmd) (s : State) : State :=
  if c.op = 0x12 ∧ c.cursor ≥ c.cLen then s else s.cutCmd f r 0 stAbortedHost c

/-- HOST_READ_COMPLETION (R394, R414): the answer to a read that the module made for COPYIN or DBGWRITE. -/
def execHostReadCompletion (func : Fin 17) (ring : Fin 16) (index : BitVec 32) (res : HostRead) (s : State) : Res :=
  let f := func.val
  let r := ring.val
  let i := index.toNat
  match res with
  | .data bs => .next ((s.withRunning f r i 0x12 (State.copyBytes f r bs)).withRunning f r i 0x32 (State.dbgBytes f r bs))
  | .failed => .next ((s.withRunning f r i 0x12 (State.hostFailed f r)).withRunning f r i 0x32 (State.hostFailed f r))

/-- HOST_COMPLETION_TIMEOUT (R394): a read of host memory has no completion: a copy or DBGWRITE ends with ABORTED_HOST; where no such
command has the index, a doorbell or descriptor read under way puts the ring in ERROR. -/
def execHostCompletionTimeout (func : Fin 17) (ring : Fin 16) (index : BitVec 32) (s : State) : Res :=
  let f := func.val
  let r := ring.val
  match s.cmd f r index.toNat with
  | some c =>
    if c.st = .running ∧ (c.op = 0x12 ∨ c.op = 0x32) then .next (s.hostFailed f r c)
    else if (s.ring f r).reading ∨ (s.ring f r).fetching ≠ 0 then .next (s.ringFail f r stAbortedHost) else .next s
  | none => if (s.ring f r).reading ∨ (s.ring f r).fetching ≠ 0 then .next (s.ringFail f r stAbortedHost) else .next s

/-! ### Queues -/

/-- SIGNALQ sends its count to the queue, as a SIGNAL does, and is complete when the token has departed (R285). DEDUCED: its result is 0, and the
spec has no completion wait for a token. -/
def State.signalQ (f r : Nat) (c : RingCmd) (s : State) : State :=
  if s.tnState f ≠ 2 ∨ s.unitHeld 0x19 then s.noResource f r c
  else
    let p : Iso := { kind := .signal, pool := true, queue := leAt c.desc 8 2, tile := 0, src := .ring f false, tenancy := f
                     count := leAt c.desc 12 3, epoch := s.heldEpoch (0xC0 + f) }
    (s.sendIso p).endCmd f r c stOK 0

/-- SIGNALQ (R285, R412, R442). -/
def execSignalq (func : Fin 17) (ring : Fin 16) (index : BitVec 32) (s : State) : Res :=
  .next (s.withCmd func.val ring.val index.toNat 0x20 (State.fresh func.val ring.val (State.signalQ func.val ring.val)))

/-- WAITQ starts to read its queue. -/
def State.waitQ (f r : Nat) (c : RingCmd) (s : State) : State :=
  if s.unitHeld 0x19 then s.noResource f r c else s.modCmd f r c.idx (fun c => { c with st := .running })

/-- WAITQ (R412, R416). -/
def execWaitq (func : Fin 17) (ring : Fin 16) (index : BitVec 32) (s : State) : Res :=
  .next (s.withCmd func.val ring.val index.toNat 0x21 (State.fresh func.val ring.val (State.waitQ func.val ring.val)))

/-- A WAITQ's queue is read, on whole microseconds from its dispatch. -/
def State.pollQ (f r : Nat) (c : RingCmd) (s : State) : State :=
  let v := (s.pq (leAt c.desc 8 2)).value.toNat
  if s.since c.start % 1000 ≠ 0 then s
  else if leAt c.desc 12 3 ≤ v then s.endCmd f r c stOK v
  else if s.since c.start ≥ 10000 * s.get (Reg.PQ_TNCFG_TIMEOUT f) then
    s.endCmd f r { c with fail := some { status := stWaitTimeout } } stWaitTimeout v
  else s

/-- WAITQ_POLL (R416). -/
def execWaitqPoll (func : Fin 17) (ring : Fin 16) (index : BitVec 32) (s : State) : Res :=
  .next (s.withRunning func.val ring.val index.toNat 0x21 (State.pollQ func.val ring.val))

/-! ### Rime commands -/

/-- A Rime command passes check 7 and leaves for its engine over Breeze (R411, R475). -/
def State.rimeSend (f r : Nat) (c : RingCmd) (s : State) : State :=
  let d := leAt c.desc 8 1 % 4
  let engines := popCount 4 (s.get (Reg.TN_CFG_RIME f))
  if s.get (Reg.PWR_TNCAP_CAP f) < 23 * engines ∨ (s.on Reg.TN_ISO_CLAIMED ∧ s.on (Reg.TN_CFG_MODE f)) ∨ s.rimeOut d then
    s.noResource f r c
  else
    let s1 := s.modCmd f r c.idx (fun c => { c with st := .running })
    { s1 with breeze := s1.breeze ++
        [{ kind := .cmd, dest := 0x10 + d, src := 0x01, func := f, epoch := s.stampOf c (0x10 + d)
           beat1 := c.op + 256 * r + 2 ^ 16 * c.idx }] }

/-- RKEYLOAD (R473). -/
def execRkeyload (func : Fin 17) (ring : Fin 16) (index : BitVec 32) (s : State) : Res :=
  .next (s.withCmd func.val ring.val index.toNat 0x50 (State.fresh func.val ring.val (State.rimeSend func.val ring.val)))

/-- RREFRESH (R473). -/
def execRrefresh (func : Fin 17) (ring : Fin 16) (index : BitVec 32) (s : State) : Res :=
  .next (s.withCmd func.val ring.val index.toNat 0x51 (State.fresh func.val ring.val (State.rimeSend func.val ring.val)))

/-- RLINEAR (R473). -/
def execRlinear (func : Fin 17) (ring : Fin 16) (index : BitVec 32) (s : State) : Res :=
  .next (s.withCmd func.val ring.val index.toNat 0x52 (State.fresh func.val ring.val (State.rimeSend func.val ring.val)))

end Sys2Proof.Machine
end

