-- ==== Sys2Proof/Machine/Crypto.lean ====
section
/-! DEFINITION. The signature that images and owner keys carry (R555, R556, R558): ECDSA P-384 with SHA-384 (FIPS 186). Its constants are
those of the standard (PRESUMED). -/

namespace Sys2Proof.Machine

/-- The number that a byte string holds, byte 0 highest. -/
def beNat (bs : List Byte) : Nat := leNat bs.reverse

/-- The `n` bytes of a number, byte 0 highest. -/
def beBytes (n x : Nat) : List Byte := (leBytes n x).reverse

/-! ### ECDSA P-384 -/

/-- The prime of the field, the order of the group, the curve's b and its base point. -/
def p384P : Nat := 2 ^ 384 - 2 ^ 128 - 2 ^ 96 + 2 ^ 32 - 1
def p384N : Nat := 0xFFFFFFFFFFFFFFFFFFFFFFFFFFFFFFFFFFFFFFFFFFFFFFFFC7634D81F4372DDF581A0DB248B0A77AECEC196ACCC52973
def p384B : Nat := 0xB3312FA7E23EE7E4988E056BE3F82D19181D9C6EFE8141120314088F5013875AC656398D8A2ED19D2A85C8EDD3EC2AEF
def p384G : Nat × Nat :=
  (0xAA87CA22BE8B05378EB1C71EF320AD746E1D3B628BA79B9859F741E082542A385502F25DBF55296C3A545E3872760AB7,
   0x3617DE4A96262C6F5D9E98BF9292DC29F8F41DBD289A147CE9DA3113B5F0B8C00A60B1CE1D7E819D7A431D7C90EA0E5F)

/-- `b` to the power of the low `n` bits of `e`, modulo `m`. -/
def powMod (m : Nat) : Nat → Nat → Nat → Nat
  | 0, _, _ => 1
  | n + 1, b, e =>
    let r := powMod m n (b * b % m) (e / 2)
    if e % 2 = 1 then b * r % m else r

/-- The inverse modulo a prime of at most 384 bits. -/
def invMod (m x : Nat) : Nat := powMod m 384 (x % m) (m - 2)

/-- The sum of two points of the curve; none is the point at infinity. -/
def p384Add : Option (Nat × Nat) → Option (Nat × Nat) → Option (Nat × Nat)
  | none, q => q
  | p, none => p
  | some (x1, y1), some (x2, y2) =>
    let m := p384P
    if x1 = x2 ∧ (y1 + y2) % m = 0 then none
    else
      let l := if x1 = x2 then (3 * x1 * x1 + (m - 3)) * invMod m (2 * y1) % m
        else (y2 + m - y1) * invMod m (x2 + m - x1) % m
      let x := (l * l + (2 * m - x1 - x2)) % m
      some (x, (l * (x1 + m - x) + (m - y1)) % m)

/-- A multiple of a point, by the low `n` bits of the factor. -/
def p384Mul : Nat → Nat → Option (Nat × Nat) → Option (Nat × Nat)
  | 0, _, _ => none
  | n + 1, k, p =>
    let r := p384Mul n (k / 2) (p384Add p p)
    if k % 2 = 1 then p384Add p r else r

/-- A key of 97 bytes, 0x04, X, Y, as a point of the curve; none where it is not one. -/
def p384Key (key : List Byte) : Option (Nat × Nat) :=
  let x := beNat (slice key 1 48)
  let y := beNat (slice key 49 48)
  let m := p384P
  if key.length = 97 ∧ key.headD 0 = 4 ∧ x < m ∧ y < m ∧ y * y % m = (x * x * x + (m - 3) * x + p384B) % m then some (x, y) else none

/-- A signature of 96 bytes, r and s, is valid for a digest under a key. -/
def ecdsaValid (key digest sig : List Byte) : Bool :=
  let r := beNat (slice sig 0 48)
  let q := beNat (slice sig 48 48)
  match p384Key key with
  | none => false
  | some k =>
    let n := p384N
    if r = 0 ∨ r ≥ n ∨ q = 0 ∨ q ≥ n then false
    else
      let w := invMod n q
      match p384Add (p384Mul 384 (beNat digest * w % n) (some p384G)) (p384Mul 384 (r * w % n) (some k)) with
      | none => false
      | some (x, _) => x % n == r

end Sys2Proof.Machine
end

