-- ==== Sys2Proof/Machine/ImageOps.lean ====
section
/-! DEFINITION. Images and their manifests (R555), the checks of R556, the anti-rollback counters (R557), the changes of the boot record
(R559, R560). -/

namespace Sys2Proof.Machine

/-- Bytes of a slot: 0 slot A, 1 slot B (R546). -/
def State.slotRead (s : State) (slot off n : Nat) : List Byte := s.store.read (0x1800000 * slot + off) n

/-- The manifest header of a slot, its component entries and its signature block. -/
def State.manifest (s : State) (slot : Nat) : List Byte := s.slotRead slot 0 128
def manNcomp (m : List Byte) : Nat := leAt m 22 1
def State.components (s : State) (slot : Nat) : List (List Byte) :=
  (List.range (min 32 (manNcomp (s.manifest slot)))).map (fun i => s.slotRead slot (128 + 64 * i) 64)
def State.sigBlock (s : State) (slot : Nat) : List Byte := s.slotRead slot (128 + 64 * manNcomp (s.manifest slot)) 384

/-- Fields of a manifest header (R555). -/
def manVer (m : List Byte) : Nat := leAt m 6 2
def manImg (m : List Byte) : Nat := leAt m 8 4
def manLo (m : List Byte) : Nat := leAt m 12 4
def manHi (m : List Byte) : Nat := leAt m 16 4
def manSvn (m : List Byte) : Nat := leAt m 20 1
def manOsvn (m : List Byte) : Nat := leAt m 21 1
def manAuto (m : List Byte) : Bool := bitAt (leAt m 23 1) 0
def manTotal (m : List Byte) : Nat := leAt m 40 4

/-- The version of a slot's training firmware: FWVER (R143). -/
def State.trainFw (s : State) (slot : Nat) : Nat :=
  match (s.components slot).find? (fun c => leAt c 0 1 == 2) with
  | some c => leAt c 12 4
  | none => 0

/-- Every byte is zero. -/
def allZero (bs : List Byte) : Bool := bs.all (· == 0)

/-- Check 1 of R556: form, counts and places. -/
def State.check1 (s : State) (slot : Nat) : Bool :=
  let m := s.manifest slot
  let cs := s.components slot
  let sig := s.sigBlock slot
  let n := manNcomp m
  let start := 128 + 64 * n + 384
  let span := fun c => (leAt c 4 4, leAt c 4 4 + leAt c 8 4)
  let count := fun t => (cs.filter (fun c => leAt c 0 1 == t)).length
  leAt m 0 4 == 0x31584D41 && leAt m 4 2 == 1 && 1 ≤ n && n ≤ 32 && manSvn m ≤ 128 && manOsvn m ≤ 128 &&
    leAt m 23 1 < 2 && leAt m 27 1 < 8 && leAt m 30 2 == 0 && allZero (slice m 44 84) && manTotal m ≤ 0x1000000 &&
    [1, 2, 3, 4, 5, 6].all (fun t => count t == 1) && manLo m ≤ manImg m && manImg m ≤ manHi m &&
    cs.all (fun c => 1 ≤ leAt c 0 1 && leAt c 0 1 ≤ 7 && allZero (slice c 1 3) && 1 ≤ leAt c 8 4 && leAt c 4 4 % 4096 == 0 &&
      start ≤ (span c).1 && (span c).2 ≤ manTotal m && (leAt c 0 1 != 1 || leAt c 8 4 ≤ 0x180000)) &&
    (cs.zip (List.range n)).all (fun c => (cs.zip (List.range n)).all (fun d =>
      c.2 == d.2 || (span c.1).2 ≤ (span d.1).1 || (span d.1).2 ≤ (span c.1).1)) &&
    cs.any (fun c => (span c).2 == manTotal m) && allZero (slice sig 97 7) && allZero (slice sig 296 88)

/-- Check 2 of R556: the image is for this module. -/
def State.check2 (s : State) (slot : Nat) : Bool :=
  let m := s.manifest slot
  let code := s.get Reg.ID_VARIANT_CODE
  let bit := if code = 0x40 then 0 else if code = 0x38 then 1 else 2
  leAt m 24 2 == 0xA36C && leAt m 26 1 == 0xB0 && bitAt (leAt m 27 1) bit &&
    leAt m 28 2 &&& s.get Reg.ID_COMPAT_LEVELS == leAt m 28 2 && (leAt m 32 8 == 0 || leAt m 32 8 == s.get Reg.ID_UNIT_SERIAL)

/-- The manifest digest H. -/
def State.manDigest (s : State) (slot : Nat) : List Byte := sha384 (s.manifest slot ++ (s.components slot).flatMap id)

/-- Check 3 of R556: the maker's key and signature. -/
def State.check3 (s : State) (slot : Nat) : Bool :=
  let key := slice (s.sigBlock slot) 0 97
  sha384 key == (List.range 6).flatMap (fun i => leBytes 8 (s.fuse (6 + i))) &&
    ecdsaValid key (s.manDigest slot) (slice (s.sigBlock slot) 104 96)

/-- The owner's signature of a slot is valid under a key. -/
def State.ownerSigned (s : State) (slot : Nat) (key : List Byte) : Bool :=
  ecdsaValid key (s.manDigest slot) (slice (s.sigBlock slot) 200 96)

/-- Check 5 of R556. -/
def State.check5 (s : State) (slot : Nat) : Bool :=
  let m := s.manifest slot
  s.rollback 0 ≤ manSvn m && (s.store.ownerKey.isEmpty || s.rollback 1 ≤ manOsvn m)

/-- Check 6 of R556: the first component whose digest differs. -/
def State.badComponent (s : State) (slot : Nat) : Option Nat :=
  let cs := s.components slot
  (cs.zip (List.range cs.length)).findSome? (fun c =>
    if sha384 (s.slotRead slot (leAt c.1 4 4) (leAt c.1 8 4)) == slice c.1 16 48 then none else some c.2)

/-- The first check of R556 that fails (0 for none), the component for check 6 (0xFF otherwise), the status. -/
def State.imageVerdict (s : State) (slot : Nat) : Nat × Nat × Nat :=
  if !s.check1 slot then (1, 0xFF, stImageRejected)
  else if !s.check2 slot then (2, 0xFF, stImageRejected)
  else if !s.check3 slot then (3, 0xFF, stImageRejected)
  else if !s.store.ownerKey.isEmpty && !s.ownerSigned slot s.store.ownerKey then (4, 0xFF, stImageRejected)
  else if !s.check5 slot then (5, 0xFF, stRollback)
  else match s.badComponent slot with
    | some i => (6, i, stImageRejected)
    | none => (0, 0xFF, stOK)

/-- The VERIFIED bit of a slot (R554). -/
def verFld (slot : Nat) : Fld := if slot = 0 then Reg.CS_BOOT_VERA else Reg.CS_BOOT_VERB

/-- The boot record reverts (R560, R561). -/
def State.revertBoot (cause : Nat) (s : State) : State :=
  let p := s.get Reg.CS_BOOT_PREV
  let s1 := (((s.set Reg.CS_BOOT_ACTIVE p).set Reg.CS_BOOT_TRIAL 0).set Reg.CS_BOOT_TRIES 0).set Reg.CS_BOOT_REVCAUSE cause
  s1.modStore (fun t => { t with aver := t.pver, reverted := true })

/-- The image of a slot is loaded and runs (R560): the registers that name it, and the domain digest, which is computed again at this activation
(R371). -/
def State.loadImage (slot : Nat) (s : State) : State :=
  let m := s.manifest slot
  let s1 := (((s.set Reg.CS_ACTIVE_IMGVER (manImg m)).set Reg.CS_ACTIVE_MANVER (manVer m)).set Reg.CS_ACTIVE_SVN (manSvn m)).set
    Reg.CS_ACTIVE_OSVN (manOsvn m)
  ((s1.set Reg.CS_WINDOW_WINLO (manLo m)).set Reg.CS_WINDOW_WINHI (manHi m)).set (verFld slot) 1 |>.computeDigest

/-- A slot may be written (R553): the inactive one outside a trial, either in recovery hold. -/
def State.slotWritable (s : State) (slot : Nat) : Bool :=
  slot < 2 && (s.phase == .recovery || (!s.on Reg.CS_BOOT_TRIAL && s.get Reg.CS_BOOT_ACTIVE != slot))

/-- The image is DOMAINSAFE (R564): its protocol version and window are those of the active image. -/
def State.domainSafe (s : State) (slot : Nat) : Bool :=
  let m := s.manifest slot
  manVer m == s.get Reg.CS_ACTIVE_MANVER && manLo m == s.get Reg.CS_WINDOW_WINLO && manHi m == s.get Reg.CS_WINDOW_WINHI

/-- Slots touched by a write of a range lose their VERIFIED bit (R554). -/
def State.unverify (a n : Nat) (s : State) : State :=
  let s1 := if a < 0x1800000 ∧ n > 0 then s.set Reg.CS_BOOT_VERA 0 else s
  if n > 0 ∧ a < 0x3000000 ∧ a + n > 0x1800000 then s1.set Reg.CS_BOOT_VERB 0 else s1

/-! ### Measurements (R516) -/

/-- The bytes of a slot's component. -/
def State.componentBytes (s : State) (slot : Nat) (c : List Byte) : List Byte := s.slotRead slot (leAt c 4 4) (leAt c 8 4)

/-- Measurement blocks 1 to 6, as they stand at a start: boot ROM, controller firmware, manifest, the other components, fuse words 0 to 5 with
the counters, the compatibility register with the slot and version. -/
def State.measure6 (s : State) : List (List Byte) :=
  let slot := s.get Reg.CS_BOOT_ACTIVE
  let cs := s.components slot
  let of := fun (p : List Byte → Bool) => (cs.filter p).flatMap (s.componentBytes slot)
  let fuses := ([0, 1, 2, 3, 4, 5, 12, 13, 14, 15] : List Nat).flatMap (fun i => leBytes 8 (s.fuse i))
  let compat := leBytes 8 (s.wordOf (Reg.row_ID_COMPAT.fields 0 0)) ++ [BitVec.ofNat 8 slot] ++ leBytes 4 (s.get Reg.CS_ACTIVE_IMGVER)
  [Config.bootRomDigest.toList, sha384 (of (fun c => leAt c 0 1 == 1)), sha384 (s.slotRead slot 0 (128 + 64 * manNcomp (s.manifest slot) + 384)),
   sha384 (of (fun c => leAt c 0 1 != 1)), sha384 fuses, sha384 compat]

/-- Measurement block 7: the debug state of every tenancy that is not in NONE. -/
def State.measure7 (s : State) : List Byte :=
  sha384 (((List.range 17).filter (fun t => s.tnState t != 0)).flatMap (fun t => [BitVec.ofNat 8 t, BitVec.ofNat 8 (s.get (Reg.TN_STATE_DEBUG t))]))

/-! ### Training records (R143) -/

/-- Where the training record of an item stands: stack k is item k, link j item 8 + j (R546). -/
def trainBase (item : Nat) : Nat := if item < 8 then 0x3000000 + 0x10000 * item else 0x3080000 + 0x10000 * (item - 8)

/-- The header and body of an item's training record. -/
def State.trainHeader (s : State) (item : Nat) : List Byte := s.store.read (trainBase item) 32
def State.trainBody (s : State) (item : Nat) : List Byte := s.store.read (trainBase item + 0x100) (min (leAt (s.trainHeader item) 24 4) 0xFF00)

/-- An item's record is valid (R143, R144), but for its PARTNER and LANES, which the item itself tells. -/
def State.trainValid (s : State) (item : Nat) : Bool :=
  let h := s.trainHeader item
  let tin := leAt h 18 1
  leAt h 0 1 == (if item < 8 then 1 else 2) && leAt h 1 1 == (if item < 8 then item else item - 8) &&
    leAt h 28 4 == crc32 (slice h 0 28 ++ s.trainBody item) && leAt h 4 4 == s.trainFw (s.get Reg.CS_BOOT_ACTIVE) && leAt h 16 2 < 64 &&
    tin ≤ s.boot.inlet + 15 && s.boot.inlet ≤ tin + 15

/-- The PARTNER of an item's record. -/
def State.trainPartner (s : State) (item : Nat) : Nat := leAt (s.trainHeader item) 8 8

/-- A training record is written (R145): the body first and the header last. -/
def State.writeTraining (item fw partner starts tin lanes : Nat) (body : List Byte) (s : State) : State :=
  let b := trainBase item
  let h := [if item < 8 then 1 else 2, BitVec.ofNat 8 (if item < 8 then item else item - 8), 0, 0] ++ leBytes 4 fw ++ leBytes 8 partner ++
    leBytes 2 starts ++ [BitVec.ofNat 8 tin, BitVec.ofNat 8 lanes] ++ zeros 4 ++ leBytes 4 body.length
  s.modStore (fun t => ((t.eraseSector (b / 65536)).program (b + 0x100) body).program b (h ++ leBytes 4 (crc32 (h ++ body))))

end Sys2Proof.Machine
end

