-- ==== Sys2Proof/Machine/LinkWire.lean ====
section
/-! DEFINITION. Flits on a link: their bytes (R357, R358), what a slot carries (R356, R359 to R362, R375), receipt, replay (R360, R361),
delivery under the share maps (R374, R385), release of scheduled flits (R375), relay (R384). -/

namespace Sys2Proof.Machine

/-! ### Bytes of a flit (R357) -/

/-- What the header of a flit says beside the flit. -/
structure LHead where
  valid : Bool
  replay : Bool := false
  fseq : Nat := 0
  ack : Nat
  nak : Bool
  c1 : Nat
  c2 : Nat
  c3 : Nat
  deriving DecidableEq, Repr

/-- The payload of a flit: data or a READ's reply place first, token packets last (R358). -/
def LFlit.payload (f : LFlit) : List Byte :=
  let head := if f.kind = 2 then leBytes 6 f.rdAddr ++ leBytes 2 f.rdLen else f.data
  let toks := f.tokens.flatten
  head.take 224 ++ zeros (224 - head.length - toks.length) ++ toks

/-- The 256 bytes of a flit. -/
def LFlit.bytes (h : LHead) (f : LFlit) : List Byte :=
  let b0 := f.vc + 4 * b2n h.valid + 8 * b2n h.replay + 16 * b2n f.lastrec + 32 * b2n f.poison + 64 * b2n f.relay
  let b1 := f.kind + 8 * b2n f.hbm + 16 * f.tokens.length
  let head := leBytes 1 b0 ++ leBytes 1 b1 ++ leBytes 2 h.fseq ++ leBytes 2 (h.ack + 4096 * b2n h.nak) ++ leBytes 1 f.tenancy ++
    leBytes 1 f.data.length ++ leBytes 1 (f.dtile + 64 * f.ch) ++ leBytes 1 f.stile ++ leBytes 1 f.dmod ++ leBytes 1 f.smod ++
    leBytes 1 f.tag ++ leBytes 2 f.dseq ++ leBytes 6 f.addr ++ leBytes 2 f.mapgen ++ leBytes 1 (h.c1 + 16 * h.c2) ++ leBytes 1 h.c3 ++ zeros 3
  let pay := f.payload
  head ++ leBytes 4 (crc32 (head ++ pay)) ++ pay

/-- The header of received bytes. -/
def LHead.parse (b : List Byte) : LHead :=
  let b0 := leAt b 0 1
  { valid := bitAt b0 2, replay := bitAt b0 3, fseq := leAt b 2 2 % 4096, ack := leAt b 4 2 % 4096, nak := bitAt (leAt b 4 2) 12
    c1 := bits (leAt b 23 1) 0 4, c2 := bits (leAt b 23 1) 4 4, c3 := leAt b 24 1 }

/-- The flit of received bytes. -/
def LFlit.parse (b : List Byte) : LFlit :=
  let b0 := leAt b 0 1
  let b1 := leAt b 1 1
  let pay := b.drop 32
  let n := min (bits b1 4 4) 14
  { vc := bits b0 0 2, lastrec := bitAt b0 4, poison := bitAt b0 5, relay := bitAt b0 6, kind := bits b1 0 3, hbm := bitAt b1 3
    tenancy := bits (leAt b 6 1) 0 5, data := pay.take (min (leAt b 7 1) 224), dtile := bits (leAt b 8 1) 0 6, ch := bits (leAt b 8 1) 6 2
    stile := bits (leAt b 9 1) 0 6, dmod := bits (leAt b 10 1) 0 6, smod := bits (leAt b 11 1) 0 6, tag := leAt b 12 1
    dseq := leAt b 13 2, addr := leAt b 15 6, mapgen := leAt b 21 2
    tokens := (List.range n).map (fun i => slice pay (224 - 16 * n + 16 * i) 16)
    rdAddr := leAt pay 0 6, rdLen := leAt pay 6 2 }

/-- The CRC of received bytes is right. -/
def flitCrcOk (b : List Byte) : Bool :=
  b.length == 256 && leAt b 28 4 == crc32 (b.take 28 ++ b.drop 32)

/-! ### Sending (R356, R359, R360, R362) -/

/-- The slot that runs now, counted from tick 0: 150 in each frame of 1,020 ns. -/
def State.slotNow (s : State) : Nat := s.tick.toNat / 1020 * 150 + s.tick.toNat % 1020 * 10 / 68

/-- Slots 0, 38, 75 and 113 of a frame are reserved (R356). -/
def reservedSlot (n : Nat) : Bool := [0, 38, 75, 113].contains n

/-- UPMAP's body (R362). -/
def State.upmapBody (s : State) : Nat :=
  maskOf ((List.range 64).filter s.activeTo) + 2 ^ 64 * s.get Reg.LNK_DOM_TIME_MASTER + 2 ^ 70 * s.get Reg.LNK_DOM_TIME_SYNCED +
    2 ^ 71 * s.get Reg.LNK_DOM_TIME_ISMASTER

/-- The control word of a block that begins (R362): TIME, UPMAP, or the first message that waits, in the order of the rule. -/
def State.sendBlockWord (j n : Nat) (s : State) : State :=
  let l := s.link j
  let block := n % 150 / 15
  if block = 0 then s.emit (.linkWord j (controlWord 4 0 (s.tick.toNat / 102 * 102 % 2 ^ 64 + 2 ^ 64 * (l.rxStamp % 2 ^ 48))))
  else if block = 1 then s.emit (.linkWord j (controlWord 5 0 s.upmapBody))
  else match [7, 6, 2, 3, 8, 1].findSome? (fun k => l.words.find? (fun w => w.1 == k)) with
    | some w => (s.modLink j (fun l => { l with words := l.words.erase w })).emit (.linkWord j (controlWord w.1 w.2.1 w.2.2))
    | none => s.emit (.linkWord j 0)

/-- A flit waits in virtual channel `vc` of a link (R359). -/
def Link.waiting (l : Link) (vc : Nat) : List LFlit :=
  match vc with
  | 0 => l.q0
  | 1 => l.q1
  | 2 => l.q2
  | _ => l.q3

/-- Credits allow the flit (R359). -/
def Link.credits (l : Link) (f : LFlit) : Bool :=
  (match f.vc with
   | 1 => l.cred1 > 0
   | 2 => l.cred2 > 0
   | _ => true) && f.tokens.length ≤ l.cred3

/-- The flit at `i` of a list may leave: credits allow it and none of its channel stands before it. -/
def Link.mayGo (l : Link) (fs : List LFlit) (i : Nat) : Bool :=
  match fs[i]? with
  | none => false
  | some f => l.credits f && !(fs.take i).any (fun h => h.vc == f.vc && h.smod == f.smod && h.stile == f.stile && h.ch == f.ch)

/-- The first flit of a list that may leave and that `p` admits. -/
def Link.firstOut (l : Link) (p : LFlit → Bool) (fs : List LFlit) : Option LFlit :=
  ((List.range fs.length).find? (fun i => l.mayGo fs i && (match fs[i]? with | some f => p f | none => false))).bind (fun i => fs[i]?)

/-- The first flit that waits for relay in each virtual channel goes in arrival order (R384). -/
def Link.relayOut (l : Link) : Option LFlit :=
  ((List.range l.qr.length).find? (fun i => match l.qr[i]? with
    | some f => l.credits f && !(l.qr.take i).any (fun h => h.vc == f.vc)
    | none => false)).bind (fun i => l.qr[i]?)

/-- The flits of a tenancy that its share of the frame still allows (R459). -/
def State.shareLeft (s : State) (l : Link) (t : Nat) : Bool :=
  decide (spGet 0 l.used t < s.get (Reg.TN_SLOTQ_LSHARE t))

/-- A tokens flit waits behind the data of its channel (R385). -/
def Link.behindData (l : Link) (f : LFlit) : Bool :=
  f.vc == 3 && (l.q0 ++ l.q1).any (fun d => d.smod == f.smod && d.stile == f.stile && d.ch == f.ch)

/-- The flit that a slot takes, none for an idle flit: replays first, in their order, in slots that R360 gives them; then relay in the
reserved slots, a scheduled descriptor's flit in its slot, a dynamic one in a free slot. Which virtual channel goes first is open. -/
def State.pickFlit (s : State) (j n : Nat) : Option (LFlit × Option Nat) :=
  let l := s.link j
  let e := (spGet 0 s.slotsL (150 * j + n)).toNat
  match l.resend with
  | r :: _ =>
    match l.kept.find? (fun k => k.1 == r) with
    | none => none
    | some (_, f) => if reservedSlot n || !bitAt e 0 || bits e 1 5 == f.tenancy then some (f, some r) else none
  | [] =>
    if l.kept.length ≥ 128 then none
    else if reservedSlot n then l.relayOut.map (fun f => (f, none))
    else if bitAt e 0 then
      (l.firstOut (fun f => f.tenancy == bits e 1 5 && f.stile == bits e 6 6 && f.ch == bits e 12 2) l.q0).map (fun f => (f, none))
    else
      let k := Config.freeNat s.free % 3
      let order := [1 + k % 3, 1 + (k + 1) % 3, 1 + (k + 2) % 3]
      (order.findSome? (fun vc => l.firstOut (fun f => s.shareLeft l f.tenancy && !l.behindData f) (l.waiting vc))).map
        (fun f => (f, none))

/-- A flit leaves in slot `n`; an idle one carries the acknowledgement and the credits only. -/
def State.sendFlit (j n : Nat) (x : Option (LFlit × Option Nat)) (s : State) : State :=
  let l := s.link j
  let c1 := min l.ret1 15
  let c2 := min l.ret2 15
  let c3 := min l.ret3 255
  let h : LHead := { valid := x.isSome, ack := l.rxSeq, nak := l.nak, c1 := c1, c2 := c2, c3 := c3 }
  let idle : LFlit := { vc := 0, kind := 0, tenancy := 0 }
  let s1 := s.draw.modLink j (fun l => { l with nak := false, ret1 := l.ret1 - c1, ret2 := l.ret2 - c2, ret3 := l.ret3 - c3 })
  match x with
  | none => s1.emit (.linkFlit j n (idle.bytes h))
  | some (f, some r) =>
    (s1.modLink j (fun l => { l with resend := l.resend.drop 1 })).emit (.linkFlit j n (f.bytes { h with replay := true, fseq := r }))
  | some (f, none) =>
    let free := !reservedSlot n && !bitAt (spGet 0 s.slotsL (150 * j + n)).toNat 0
    (s1.modLink j (fun l =>
      { l with
        txSeq := (l.txSeq + 1) % 4096, kept := l.kept ++ [(l.txSeq, f)]
        q0 := l.q0.erase f
        q1 := if reservedSlot n then l.q1 else l.q1.erase f
        q2 := if reservedSlot n then l.q2 else l.q2.erase f
        q3 := if reservedSlot n then l.q3 else l.q3.erase f
        qr := if reservedSlot n then l.qr.erase f else l.qr
        cred1 := if f.vc = 1 then l.cred1 - 1 else l.cred1
        cred2 := if f.vc = 2 then l.cred2 - 1 else l.cred2
        cred3 := l.cred3 - f.tokens.length
        used := if free then spMod 0 l.used f.tenancy (· + 1) else l.used })).emit
      (.linkFlit j n (f.bytes { h with fseq := l.txSeq }))

/-- Traffic stands in the links of a bank. -/
def State.bankTraffic (s : State) (b : Nat) : Bool :=
  (List.range 16).any (fun i =>
    let l := s.link (16 * b + i)
    !(l.kept.isEmpty && l.q0.isEmpty && l.q1.isEmpty && l.q2.isEmpty && l.q3.isEmpty && l.qr.isEmpty && l.held.isEmpty))

/-- A link bank in L1 carries idle flits only; traffic wakes it (R100, R102, R106). -/
def State.bankWake (b : Nat) (s : State) : State :=
  if s.domState (80 + b) = 0 then (if s.bankTraffic b then s.touchDom (80 + b) else s)
  else if s.bankTraffic b then s.wakeDomain (80 + b) else s

/-- LINK_SLOT (R355, R356, R362): link `link` sends in the slot that runs now, and a control word where a block begins. A slot is used
once. -/
def execLinkSlot (link : Fin 64) (s : State) : Res :=
  let j := link.val
  let n := s.slotNow
  let st := s.linkState j
  if !s.inService ∨ st < lnkQualify ∨ st > lnkFenced ∨ (s.link j).lastSlot = n + 1 then .next s
  else
    let last := (s.link j).lastSlot
    let newBlock := last = 0 ∨ (last - 1) / 15 ≠ n / 15
    let newFrame := last = 0 ∨ (last - 1) / 150 ≠ n / 150
    let s1 := s.modLink j (fun l => { l with lastSlot := n + 1, used := if newFrame then [] else l.used })
    let s2 := if newBlock then s1.sendBlockWord j n else s1
    let s3 := s2.bankWake (j / 16)
    .next (s3.sendFlit j (n % 150) (if st = lnkActive ∧ s3.domState (80 + j / 16) = 0 then s3.pickFlit j (n % 150) else none))

/-! ### Receiving (R360, R361, R374, R384, R385) -/

/-- A flit or token that the share does not allow is discarded whole, counted and logged (R374). -/
def State.linkDiscard (j : Nat) (f : LFlit) (s : State) : State :=
  (s.bump (Reg.LNK_LATE_DISCARD j) 1).logEvent
    { kind := 0x0D, status := stNotOwner, unit := 0x80 + j, tenancy := f.tenancy
      body := [BitVec.ofNat 8 f.smod, BitVec.ofNat 8 f.stile, BitVec.ofNat 8 j] ++
        leBytes 3 (if f.hbm then f.addr / 2 ^ 30 else f.dtile) }

/-- A flit's map is not older than the tenancy's, and what it names belongs to the tenancy under the current map (R374). The queues of token
packets are checked one by one (R295). Generations count modulo 2¹⁶. -/
def State.linkAllowed (s : State) (f : LFlit) : Bool :=
  let t := f.tenancy
  t ≤ 16 && decide ((f.mapgen + 65536 - s.get (Reg.TN_STATE_MAPGEN t)) % 65536 < 32768) &&
    (if f.kind = 5 then true
     else if f.kind = 3 then s.tileTen f.dtile == t
     else if f.hbm then s.granOwner (f.addr / 2 ^ 30) == t else s.tileTen f.dtile == t && s.tileUsable f.dtile)

/-- The unit that a WRITE or READ from a link names. -/
def State.linkTarget (s : State) (f : LFlit) : Nat := if f.hbm then 8 + (s.hbmPlace f.addr).1 else 0x40 + s.facing f.dtile

/-- A received descriptor takes a flit: its tokens with their epochs, one write owed, its end. -/
def Link.rxTake (f : LFlit) (tokens : List (List Byte × Nat)) (write : Bool) (l : Link) : Link :=
  let mine := fun (d : RxDesc) => d.smod == f.smod && d.stile == f.stile && d.ch == f.ch && d.dseq == f.dseq
  let old := (l.rx.find? mine).getD { smod := f.smod, stile := f.stile, ch := f.ch, dseq := f.dseq, tenancy := f.tenancy }
  let new := { old with owed := old.owed + b2n write, last := old.last || f.lastrec, tokens := old.tokens ++ tokens }
  { l with rx := if l.rx.any mine then l.rx.map (fun d => if mine d then new else d) else l.rx ++ [new] }

/-- A flit of the network that a link engine makes of a received one. Its epoch is stamped here (R372). -/
def State.fromLink (s : State) (j : Nat) (f : LFlit) : Flit :=
  let u := if f.kind = 3 then 0x40 + s.facing f.dtile else s.linkTarget f
  let w : Flit :=
    { typ := if f.kind = 1 then .write else if f.kind = 2 then .read else .rdata, sched := f.vc == 0, tenancy := f.tenancy
      epoch := s.heldEpoch u, dest := u, src := 0x80 + j, tag := f.tag, ch := f.ch
      addr := if f.kind = 3 then 0 else f.addr, data := if f.kind = 2 then [] else f.data
      len := if f.kind = 2 then f.rdLen else f.data.length, reply := if f.kind = 2 then f.rdAddr else if f.kind = 3 then f.addr else 0
      poison := f.poison
      remote := some { mod := f.smod, tile := f.stile, dseq := f.dseq, hbm := f.hbm, last := f.lastrec }, loc := .target }
  { w with loc := s.entryPort w }

/-- A relay module passes a flit on toward DMOD (R384). -/
def State.relayFlit (j : Nat) (f : LFlit) (s : State) : State :=
  match (List.range 64).find? (fun i => s.linkState i == lnkActive && s.get (Reg.LNK_STATUS_PEERMOD i) == f.dmod) with
  | some i => (s.modLink i (fun l => { l with qr := l.qr ++ [f] })).bump (Reg.LNK_LATE_RELAYED i) 1
  | none => s.bump (Reg.LNK_LATE_DISCARD j) 1

/-- A flit that the share does not allow: the credits of its tokens go back, and a descriptor that it ends still gets its DACK, since the
sender's descriptor completes normally (R374). -/
def State.discardFlit (j : Nat) (f : LFlit) (s : State) : State :=
  let s1 := (s.modLink j (fun l => { l with ret3 := l.ret3 + f.tokens.length })).linkDiscard j f
  if f.kind = 1 ∨ f.kind = 5 then
    let s2 := s1.modLink j (Link.rxTake f [] false)
    s2.settleRx j (s2.link j).rx.length
  else s1

/-- A flit that the share allows: a WRITE or READ goes to its target, RDATA to its tile, tokens wait for the data of their descriptor. -/
def State.acceptAllowed (j : Nat) (f : LFlit) (s : State) : State :=
  let toks := f.tokens.map (fun w => (w, s.tokenStamp f.tenancy w))
  match f.kind with
  | 1 | 2 =>
    let s2 := if f.kind = 1 then s.modLink j (Link.rxTake f toks true) else s
    { s2 with flits := s2.flits ++ [s2.fromLink j f] }.modLink j (fun l => { l with served := l.served ++ [s2.fromLink j f] })
  | 3 => { s with flits := s.flits ++ [s.fromLink j f] }
  | _ =>
    let s2 := s.modLink j (Link.rxTake f toks false)
    s2.settleRx j (s2.link j).rx.length

/-- A flit is delivered into the module (R374, R385). -/
def State.deliver (j : Nat) (f : LFlit) (s : State) : State :=
  let s1 := s.modLink j (fun l =>
    { l with ret1 := l.ret1 + b2n (f.vc == 1), ret2 := l.ret2 + b2n (f.vc == 2) })
  if f.dmod ≠ s.modNum then s1.relayFlit j f
  else match f.kind with
    | 4 => s1.modLink j (fun l => { l with owed := l.owed.erase (f.stile, f.ch, f.dseq) })
    | 1 | 2 | 3 | 5 => if s.linkAllowed f then s1.acceptAllowed j f else s1.discardFlit j f
    | _ => s1

/-- An acknowledgement: flits up to it are no longer kept. -/
def Link.acked (ack : Nat) (l : Link) : Link :=
  let done := fun (n : Nat) => (ack + 4096 - n) % 4096 < 2048
  { l with
    kept := l.kept.filter (fun k => !done k.1), resend := l.resend.filter (fun n => !done n)
    replays := l.replays.filter (fun k => !done k.1) }

/-- The LAUNCHes whose flits are replayed complete with OK_CORRECTED (R361). -/
def State.markReplayed (j : Nat) (s : State) : State :=
  (((s.link j).kept.filterMap (fun k => if k.2.smod = s.modNum ∧ k.2.kind ≠ 3 ∧ k.2.kind ≠ 4 ∧ !k.2.relay then some k.2.stile else none)).eraseDups).foldl
    (fun s g => s.markCorrected g) s

/-- A link whose replay failed eight times goes to DOWN; the eighth such entry at this start asks for the loopback (R361, R538). -/
def State.replayFailed (j : Nat) (s : State) : State :=
  let s1 := (s.linkToDown j causeReplay).modLink j (fun l =>
    { l with replayDowns := l.replayDowns + 1, loopback := l.loopback || decide (l.replayDowns + 1 ≥ 8) })
  s1.syncDomMap

/-- A NAK: what is kept is replayed (R360, R361). -/
def State.takeNak (j : Nat) (s : State) : State :=
  let l := s.link j
  match l.kept with
  | [] => s
  | (n, _) :: _ =>
    let k := spGet 0 l.replays n
    if k ≥ 8 then s.replayFailed j
    else
      let s1 := s.modLink j (fun l => { l with resend := l.kept.map (·.1), replays := spSet 0 l.replays n (k + 1) })
      (s1.bump (Reg.LNK_ERR_REPLAYS j) 1).markReplayed j

/-- A bad flit, or one out of order: NAK with the last good FSEQ (R360). -/
def State.refuseFlit (j : Nat) (again : Bool) (s : State) : State :=
  s.modLink j (fun l => if l.naked && !again then l else { l with nak := true, naked := true })

/-- A valid flit is accepted in order: at once, or at its release time where it is scheduled (R375). `at'` is the start of its slot at the
sender in tenths of a nanosecond. -/
def State.acceptFlit (j at' : Nat) (f : LFlit) (s : State) : State :=
  if s.linkState j = lnkFenced then s.bump (Reg.LNK_LATE_DISCARD j) 1
  else if f.vc = 0 ∧ f.dmod = s.modNum then
    let due := at' + 10 * s.get Reg.LNK_DOM_CFG_HOLD
    if 10 * s.tick.toNat > due then (s.bump (Reg.LNK_LATE_LATE j) 1).deliver j f
    else s.modLink j (fun l => { l with held := l.held ++ [(due, f)] })
  else s.deliver j f

/-- LINK_FLIT_RECEIVE (R356, R360): a flit that the far end sent in slot `slot` of its frame that began at tick `frame` arrives;
`uncorr`: it lies in a codeword that cannot be corrected; `fecsym` symbols were corrected. -/
def execLinkFlitReceive (link : Fin 64) (flit : List Byte) (uncorr : Bool) (fecsym : Nat) (frame : Word) (slot : Fin 150) (s : State) : Res :=
  let j := link.val
  if !s.inService ∨ !s.linkUp j then .next s
  else
    let s := if (LHead.parse flit).valid ∧ s.domState (80 + j / 16) = 1 then s.wakeDomain (80 + j / 16) else s.touchDom (80 + j / 16)
    let s1 := s.bump (Reg.LNK_ERR_FECSYM j) fecsym
    let s2 := if uncorr then s1.bump (Reg.LNK_ERR_UNCORR j) 1 else s1
    if uncorr || !flitCrcOk flit then .next (s2.refuseFlit j true)
    else
      let h := LHead.parse flit
      let s3 := s2.modLink j (fun l =>
        { l.acked h.ack with
          cred1 := min 64 (l.cred1 + h.c1), cred2 := min 64 (l.cred2 + h.c2), cred3 := min 256 (l.cred3 + h.c3) })
      let s4 := if h.nak then s3.takeNak j else s3
      if !h.valid ∨ !s4.linkUp j then .next s4
      else
        let gap := (h.fseq + 8191 - (s4.link j).rxSeq) % 4096
        if gap = 0 then
          .next ((s4.modLink j (fun l => { l with rxSeq := h.fseq, naked := false })).acceptFlit j
            (10 * frame.toNat + 68 * slot.val) (LFlit.parse flit))
        else if gap < 2048 then .next (s4.refuseFlit j false)
        else .next s4

/-- LINK_FLIT_RELEASE (R375): the scheduled flit of the link whose release time comes first is released into the base switch. -/
def execLinkFlitRelease (link : Fin 64) (s : State) : Res :=
  let j := link.val
  match (s.link j).held with
  | [] => .next s
  | (due, f) :: l =>
    if 10 * s.tick.toNat < due then .next s
    else
      let s1 := s.modLink j (fun x => { x with held := l })
      .next (if s.linkState j = lnkFenced then s1.bump (Reg.LNK_LATE_DISCARD j) 1 else s1.deliver j f)

/-! ### Lock and retraining (R368) -/

/-- LINK_LOSS_OF_LOCK (R368): block lock was lost for two blocks in a row. -/
def execLinkLossOfLock (link : Fin 64) (s : State) : Res :=
  if s.linkUp link.val then .next ((s.linkToDown link.val causeLoss).syncDomMap) else .next s

/-- A port that fails the loopback of its retrain is excluded for the start (R538 row 4). -/
def State.excludePort (j : Nat) (s : State) : State :=
  let s1 := ((s.clearMap (0x80 + j)).linkDisable j causeFused).retireRec 2 j 0 4 (0x80 + j)
  { s1 with excluded := if s1.excluded.contains (0x80 + j) then s1.excluded else s1.excluded ++ [0x80 + j] }

/-- LINK_RETRY_TIMER (R368): 10 µs in DOWN are over and the link trains again; where a threshold asked for it the electrical loopback runs
first, and `loopOk` is its outcome (R538). -/
def execLinkRetryTimer (link : Fin 64) (loopOk : Bool) (s : State) : Res :=
  let j := link.val
  let l := s.link j
  if s.linkState j ≠ lnkDown ∨ s.since l.downAt < 10000 then .next s
  else if l.loopback && !loopOk then .next (s.excludePort j)
  else
    let s1 := s.modLink j (fun l => { l with loopback := false })
    match s1.linkCause j with
    | some c => .next (s1.linkDisable j c)
    | none => .next (s1.linkToTrain j)

end Sys2Proof.Machine
end

