-- ==== Sys2Proof/Machine/LinkWords.lean ====
section
/-! DEFINITION. Control words received (R362), the domain's tick, its master, fences and spares (R367 to R383), and the registers that
command a link or the domain (R389, R390). -/

namespace Sys2Proof.Machine

/-- The domain sensor (R512): 0 not joined, 1 joined, 2 master, 3 fenced. -/
def State.domSensor (s : State) : Nat :=
  if !s.on Reg.LNK_DOM_CFG_EN then 0 else if s.on Reg.LNK_DOM_TIME_FENCED then 3 else if s.on Reg.LNK_DOM_TIME_ISMASTER then 2 else 1

/-- A fence or lift of this module and a change of the domain sensor are management events (R513). -/
def State.tellDomain (was s : State) : State :=
  let v := BitVec.ofNat 8 s.domSensor
  let s1 := if was.on Reg.LNK_DOM_TIME_FENCED = s.on Reg.LNK_DOM_TIME_FENCED then s else s.pldmEvent 6 [v]
  if was.domSensor = s.domSensor then s1 else s1.pldmEvent 7 [v]

/-! ### Words received -/

/-- A link hears control words: from QUALIFY on. -/
def State.hears (s : State) (j : Nat) : Bool := lnkQualify ≤ s.linkState j && s.linkState j ≤ lnkFenced

/-- The checks of R369 run again on a link that is ACTIVE, FENCED, in IDENTIFY or QUARANTINE, and LNK_DOM_MAP follows. -/
def State.judge (j : Nat) (s : State) : State :=
  let st := s.linkState j
  if st = lnkActive ∨ st = lnkFenced then
    let s1 := (s.set (Reg.LNK_STATUS_STATE j) lnkIdentify).identify j
    (if s1.linkState j = st then s1 else if s1.linkState j = lnkIdentify then s1.set (Reg.LNK_STATUS_STATE j) st else s1).syncDomMap
  else (s.requarantine j).syncDomMap

/-- Both directions are qualified: stage 7's report says so (R155), and the link goes to IDENTIFY and sends its identity (R368). -/
def State.qualified (j : Nat) (s : State) : State :=
  if s.linkState j = lnkQualify ∧ s.on (Reg.LNK_QUAL_RXQUAL j) ∧ s.on (Reg.LNK_QUAL_TXQUAL j) then
    let s1 := s.set (Reg.BRU_REPORT6_DATA 7) (s.get (Reg.BRU_REPORT6_DATA 7) ||| 2 ^ j)
    ((s1.setLink j lnkIdentify 0).sendIdentity j).judge j
  else s

/-- The body of a QUAL word (R362). -/
def State.qualBody (s : State) (j : Nat) : Nat :=
  s.get (Reg.LNK_QUAL_RXQUAL j) + 2 * s.get (Reg.LNK_STATUS_LANEORDER j) + 4 * s.get (Reg.LNK_QUAL_FAILED j)

/-- QUAL (R362): the far end says whether its receive direction is qualified. -/
def execQual (link : Fin 64) (part : BitVec 4) (body : BitVec 112) (s : State) : Res :=
  let j := link.val
  let _ := part
  if !s.hears j then .next s
  else .next ((s.set (Reg.LNK_QUAL_TXQUAL j) (b2n (body.getLsbD 0))).qualified j)

/-- IDENT (R362, R369): who the far end is. -/
def execIdent (link : Fin 64) (part : BitVec 4) (body : BitVec 112) (s : State) : Res :=
  let j := link.val
  let _ := part
  let n := body.toNat
  if !s.hears j then .next s
  else
    let d : Ident :=
      { mod := bits n 0 6, link := bits n 6 6, n := bits n 12 7, p31 := bitAt n 19, spare := bitAt n 20, target := bits n 21 6
        serial := bits n 27 64, lambda := bits n 91 16 }
    if (s.link j).ident = some d then .next (s.identify j).syncDomMap
    else .next ((s.modLink j (fun l => { l with ident := some d })).judge j)

/-- DIGEST (R362, R369): 12 bytes of the far end's digest. Parts of a changed digest are gathered anew. -/
def execDigest (link : Fin 64) (part : BitVec 4) (body : BitVec 112) (s : State) : Res :=
  let j := link.val
  let p := part.toNat
  let v := body.toNat % 2 ^ 96
  if !s.hears j ∨ p > 3 then .next s
  else
    let old := (s.link j).digest
    let new := if old.contains (p, v) then old else if old.any (fun e => e.1 == p) then [(p, v)] else old ++ [(p, v)]
    let s1 := s.modLink j (fun l => { l with digest := new })
    if new.length < 4 then .next s1
    else if new = old then .next (s1.identify j).syncDomMap
    else .next (s1.judge j)

/-- TIME (R377): the far end's block 0 began at its tick TXTICK, and this module's last block 0 reached it at RXSTAMP; the word arrived at
`stamp` sixths of a nanosecond of this module's tick. -/
def execTime (link : Fin 64) (part : BitVec 4) (body : BitVec 112) (stamp : Nat) (s : State) : Res :=
  let j := link.val
  let _ := part
  let n := body.toNat
  let st := s.linkState j
  if !s.hears j then .next s
  else
    let s1 := s.modLink j (fun l => { l with rxStamp := stamp })
    if st ≠ lnkIdentify ∧ st ≠ lnkActive ∧ st ≠ lnkFenced then .next s1
    else
      let lambda := s.get (Reg.LNK_TIME_LAMBDA j)
      let t1 := (stamp / 6 - lambda / 5) / 1020 * 1020
      let there := signed 48 (unsigned 48 ((bits n 64 48 : Int) - 6 * t1))
      let back := signed 48 (unsigned 48 ((stamp : Int) - 6 * (bits n 0 64 : Int)))
      let theta := (there - back) / 2
      let tenths := max (-32768) (min 32767 (theta * 10 / 6))
      .next ((s1.modLink j (fun l => { l with thetas := (l.thetas ++ [theta]).drop ((l.thetas.length + 1) - 8) })).set
        (Reg.LNK_TIME_OFFSET j) (unsigned 16 tenths))

/-- UPMAP (R362): the modules that the far end reaches, its master, SYNCED and whether it is master. -/
def execUpmap (link : Fin 64) (part : BitVec 4) (body : BitVec 112) (s : State) : Res :=
  let j := link.val
  let _ := part
  let n := body.toNat
  if !s.hears j then .next s
  else
    let u : UpMap := { active := bits n 0 64, master := bits n 64 6, synced := bitAt n 70, isMaster := bitAt n 71 }
    .next (((s.modLink j (fun l => { l with up := some u })).identify j).syncDomMap)

/-! ### Fences (R380 to R382) -/

/-- A link goes to FENCED: its channels with unacknowledged flits fault with PEER_FENCED (R381, R387). -/
def State.fenceLink (j : Nat) (s : State) : State :=
  if s.linkState j = lnkActive then (s.failChannels j stFenced).setLinkFor (s.hitBy j) stFenced j lnkFenced 0 else s

/-- This module is fenced (R381). -/
def State.fenceSelf (s : State) : State :=
  let s1 := ((s.set Reg.LNK_DOM_TIME_FENCED 1).set Reg.LNK_DOM_TIME_SYNCED 0).set Reg.LNK_DOM_TIME_ISMASTER 0
  let s2 : State := { s1 with domain := { s1.domain with good := 0, bad := 0, rejoin := false } }
  ((List.range 64).foldl (fun s j => s.fenceLink j) s2).syncDomMap

/-- The descriptor under way on channel `c` of tile `g` names module `m`, and goes there through a relay. -/
def State.relaysTo (s : State) (m g c : Nat) : Bool :=
  let ch := (s.tile g).chan c
  ch.active && ch.relay.isSome && (match ch.descs with | (_, d) :: _ => dPeerMod d == m | [] => false)

/-- A descriptor that goes through a relay to a module that is fenced faults with PEER_FENCED (R381). -/
def State.fenceRelayed (m : Nat) (s : State) : State :=
  (List.range 64).foldl (fun s g => (List.range 4).foldl (fun s c =>
    if s.tileBusy g && s.relaysTo m g c then s.raiseExc g 0x20 stFenced 0xF (s.descAddr g c) else s) s) s

/-- Module `m` is fenced (R381). -/
def State.fencePeer (m : Nat) (s : State) : State :=
  let s1 := s.set (Reg.LNK_DOM_MAP_MAP 1) (s.get (Reg.LNK_DOM_MAP_MAP 1) ||| 2 ^ m)
  (((s.linksTo m).foldl (fun s j => s.fenceLink j) s1).fenceRelayed m).syncDomMap

/-- The links that no fence holds any more are ACTIVE (R368, R382). -/
def State.liftLinks (s : State) : State :=
  ((List.range 64).foldl (fun s j =>
    if s.linkState j = lnkFenced ∧ !s.on Reg.LNK_DOM_TIME_FENCED ∧
        !bitAt (s.get (Reg.LNK_DOM_MAP_MAP 1)) (s.get (Reg.LNK_STATUS_PEERMOD j))
    then s.admitLink j else s) s).syncDomMap

/-- The fence of module `m` is lifted. -/
def State.liftFence (m : Nat) (s : State) : State :=
  if m = s.modNum then
    State.liftLinks { s.set Reg.LNK_DOM_TIME_FENCED 0 with domain := { s.domain with rejoin := false } }
  else (s.set (Reg.LNK_DOM_MAP_MAP 1) (s.get (Reg.LNK_DOM_MAP_MAP 1) &&& (2 ^ 64 - 1 - 2 ^ m))).liftLinks

/-- FENCE_CONTROL_WORD (R362, R381): the master fences a module or lifts its fence. -/
def execFenceControlWord (link : Fin 64) (part : BitVec 4) (body : BitVec 112) (s : State) : Res :=
  let j := link.val
  let _ := part
  let m := bits body.toNat 0 6
  if !s.linkUp j ∨ !s.joined ∨ s.get (Reg.LNK_STATUS_PEERMOD j) ≠ s.get Reg.LNK_DOM_TIME_MASTER then .next s
  else if bitAt body.toNat 6 then .next (s.tellDomain (if m = s.modNum then s.fenceSelf else s.fencePeer m))
  else .next (s.tellDomain (s.liftFence m))

/-- DOWN (R370): the far end goes down. -/
def execDown (link : Fin 64) (part : BitVec 4) (body : BitVec 112) (s : State) : Res :=
  let _ := part
  let _ := body
  if s.linkUp link.val then .next ((s.linkToDown link.val causePeerDown).syncDomMap) else .next s

/-- MAP (R373): a part of a peer's share map; with the last part the map is known. -/
def execMap (link : Fin 64) (part : BitVec 4) (body : BitVec 112) (s : State) : Res :=
  let j := link.val
  let p := part.toNat
  let n := body.toNat
  if !s.linkUp j ∨ p > 3 then .next s
  else
    let parts := s.domain.parts.filter (fun e => !(e.1 == j && (p == 0 || e.2.1 == p))) ++ [(j, p, n)]
    let get := fun (i : Nat) => (parts.find? (fun e => e.1 == j && e.2.1 == i)).map (fun e => e.2.2)
    match get 0, get 1, get 2, get 3 with
    | some a, some b, some c, some d =>
      let m : ShareMap :=
        { gen := bits a 5 16, tiles := bits a 21 64, grans := b + 2 ^ 112 * c + 2 ^ 224 * bits d 0 32, base := bits d 32 12
          count := bits d 44 13 }
      let key := 32 * s.get (Reg.LNK_STATUS_PEERMOD j) + bits a 0 5
      .next { s with domain := { s.domain with
        parts := parts.filter (fun e => e.1 != j), maps := (key, m) :: s.domain.maps.filter (fun e => e.1 != key) } }
    | _, _, _, _ => .next { s with domain := { s.domain with parts := parts } }

/-! ### The frame boundary (R376 to R383) -/

/-- What a candidate for the mastership says of itself: its number, whether it is master or SYNCED. -/
def State.candidates (s : State) : List (Nat × Bool) :=
  let own := if s.on Reg.LNK_DOM_TIME_FENCED then []
    else [(s.modNum, s.on Reg.LNK_DOM_TIME_ISMASTER || s.on Reg.LNK_DOM_TIME_SYNCED)]
  own ++ (List.range 64).filterMap (fun j =>
    let st := s.linkState j
    match (s.link j).up, (s.link j).ident with
    | some u, some d =>
      if (st = lnkIdentify ∨ st = lnkActive ∨ st = lnkFenced) ∧ !(s.link j).thetas.isEmpty ∧ !bitAt (s.get (Reg.LNK_DOM_MAP_MAP 1)) d.mod
      then some (d.mod, u.isMaster || u.synced) else none
    | _, _ => none)

/-- The lowest number of a list. -/
def lowest : List Nat → Option Nat
  | [] => none
  | n :: l => some (l.foldl min n)

/-- The master is chosen (R376). -/
def State.chooseMaster (s : State) : State :=
  let c := s.candidates
  match lowest ((c.filter (·.2)).map (·.1)) with
  | some m => (s.set Reg.LNK_DOM_TIME_MASTER m).set Reg.LNK_DOM_TIME_ISMASTER (b2n (m == s.modNum))
  | none =>
    match lowest (c.map (·.1)) with
    | some m => (s.set Reg.LNK_DOM_TIME_MASTER m).set Reg.LNK_DOM_TIME_ISMASTER (b2n (m == s.modNum))
    | none => s.set Reg.LNK_DOM_TIME_ISMASTER 0

/-- The offsets to a module, in sixths of a nanosecond: those of its lowest link that measured some. -/
def State.thetasTo (s : State) (m : Nat) : List Int :=
  (((s.linksTo m).map (fun j => (s.link j).thetas)).find? (fun l => !l.isEmpty)).getD []

/-- The average over eight frames, where eight are measured (R377). -/
def average8 (l : List Int) : Option Int := if l.length < 8 then none else some (l.foldl (· + ·) 0 / 8)

/-- The magnitude of an offset is above `n` nanoseconds. -/
def beyond (n : Nat) (x : Int) : Bool := decide (x > 6 * n) || decide (x < -(6 * n : Int))

/-- A follower measures itself against its master (R377 to R380): it steers, steps while no tenancy is started, is SYNCED after eight
frames, fences itself after three. DEDUCED (R379, R380, R382): what was SYNCED stays so until it steps, is fenced or leaves the domain. -/
def State.follow (s : State) : State :=
  let l := s.thetasTo (s.get Reg.LNK_DOM_TIME_MASTER)
  match l.getLast? with
  | none => s
  | some now =>
    let avg := average8 l
    let off := match avg with | some a => max (-32768) (min 32767 (a * 10 / 6)) | none => 0
    let steer : Int := if off = 0 then 0 else (Config.freeNat s.free % 20001 : Nat) - 10000
    let s1 := (s.draw.set Reg.LNK_DOM_TIME_OFFSET (unsigned 16 off)).set Reg.LNK_DOM_TIME_STEER (unsigned 16 steer)
    let far := match avg with | some a => beyond 50 a | none => false
    let running := (List.range 17).any (fun t => s.tnStarted t)
    let good := if beyond 10 now then 0 else min 8 (s.domain.good + 1)
    let fenced := s.on Reg.LNK_DOM_TIME_FENCED
    let synced := decide (good ≥ 8) && (!fenced || s.domain.rejoin)
    if far && !running then
      let a := avg.getD 0
      let step := (a + 60) / 120 * 20
      let s2 : State := { s1 with
        tick := s1.tick + BitVec.ofInt 64 step, domain := { s1.domain with good := 0, bad := 0 }
        links := s1.links.map (fun k => { k with thetas := [] }) }
      s2.set Reg.LNK_DOM_TIME_SYNCED 0
    else
      let bad := if far && s.on Reg.LNK_DOM_TIME_SYNCED then s.domain.bad + 1 else 0
      let s2 : State := { s1 with domain := { s1.domain with good := good, bad := bad } }
      if bad ≥ 3 then s2.fenceSelf else s2.set Reg.LNK_DOM_TIME_SYNCED (b2n (synced || s.on Reg.LNK_DOM_TIME_SYNCED))

/-- A FENCE word of the master waits on every link that is up (R381, R382). -/
def State.sendFence (m : Nat) (on : Bool) (s : State) : State :=
  (List.range 64).foldl (fun s j => if s.linkUp j then s.queueWord j 6 0 (m + 64 * b2n on) else s) s

/-- The master measures one module: it is fenced after three frames beyond 50 ns, and its fence is lifted once it is SYNCED again for
eight frames (R380, R382). The count of a module that is not fenced is of bad frames, that of a fenced one of SYNCED frames. -/
def State.measure (m : Nat) (s : State) : State :=
  let count := spGet 0 s.domain.follower m
  let put := fun (n : Nat) (s : State) => ({ s with domain := { s.domain with follower := spSet 0 s.domain.follower m n } } : State)
  let synced := (s.linksTo m).any (fun j => match (s.link j).up with | some u => u.synced | none => false)
  if bitAt (s.get (Reg.LNK_DOM_MAP_MAP 1)) m then
    let n := if synced then count + 1 else 0
    if n ≥ 8 then ((put 0 s).liftFence m).sendFence m false else put n s
  else
    let far := match average8 (s.thetasTo m) with | some a => beyond 50 a | none => false
    let n := if far && synced then count + 1 else 0
    if n ≥ 3 then ((put 0 s).sendFence m true).fencePeer m else put n s

/-- Slot entries move from one link's table to another's (R383). -/
def State.moveSlots (from' to' : Nat) (s : State) : State :=
  { s with slotsL := (List.range 150).foldl (fun tab n =>
      spSet 0 (spSet 0 tab (150 * to' + n) (spGet 0 tab (150 * from' + n))) (150 * from' + n) 0) s.slotsL }

/-- An admitted spare takes its member's slot table, and gives it back once it is no longer enabled (R383). -/
def State.swapSpare (s : State) : State :=
  let b := s.get (Reg.LNK_STATUS_MEMBER 63)
  let m := s.get (Reg.LNK_STATUS_PEERMOD 63)
  let j := bondLink s.domN s.modNum m b
  if s.linkState 63 = lnkActive ∧ s.on (Reg.LNK_CTL_SPAREEN 63) ∧ !s.on (Reg.LNK_STATUS_SPARE 63) then
    (s.moveSlots j 63).set (Reg.LNK_STATUS_SPARE 63) 1
  else if s.on (Reg.LNK_STATUS_SPARE 63) ∧ !s.on (Reg.LNK_CTL_SPAREEN 63) ∧ s.linkState j = lnkActive then
    (s.moveSlots 63 j).set (Reg.LNK_STATUS_SPARE 63) 0
  else s

/-- FRAME_BOUNDARY (R376 to R383): a link frame begins. -/
def execFrameBoundary (s : State) : Res :=
  if !s.inService ∨ !s.joined ∨ s.tick.toNat % 1020 ≠ 0 then .next s
  else
    let s1 := s.chooseMaster
    let s2 := if s1.on Reg.LNK_DOM_TIME_ISMASTER then
        ((List.range 64).filter (fun m => m < s1.domN && m ≠ s1.modNum)).foldl (fun s m => s.measure m) s1
      else s1.follow
    let s3 := s2.swapSpare
    .next (s.tellDomain ((List.range 64).foldl (fun s j => if s.linkState j = lnkIdentify then s.identify j else s) s3).syncDomMap)

/-! ### Registers -/

/-- A write of LNK_CTL of link `j` (R367, R370, R389). -/
def State.writeLnkCtl (func j : Nat) (part : Part) (v : Word) (s : State) : State :=
  let fs := Reg.row_LNK_CTL.fields j 0
  let new := partOf (s.wordOf fs) part v
  let sp := bitAt new 14
  if j = 63 ∧ s.on (Reg.LNK_CTL_SPAREEN 63) ∧ sp then s.logRefused (Reg.LNK_CTL_EN j).off func v.toNat
  else
    let s1 := s.set (Reg.LNK_CTL_EN j) (bits new 0 1)
    let s2 := if j = 63 then ((s1.set (Reg.LNK_CTL_SPAREPEER 63) (bits new 8 6)).set (Reg.LNK_CTL_SPAREEN 63) (b2n sp)).set
        (Reg.LNK_CTL_SPAREMEMBER 63) (bits new 16 6) else s1
    let s3 := if s2.linkState j = lnkDown then s2 else s2.linkSettle j
    let retrain := bitAt (partOf 0 part v) 1 && s3.linkState j != lnkDisabled && s3.linkState j != lnkDown
    (if retrain then
      (if s3.linkUp j then (s3.sendDown j 4).linkToDown j 0 else s3.linkToTrain j) else s3).syncDomMap

/-- LINK_ENABLE_WRITE (R370): a write of LNK_CTL.EN. -/
def execLinkEnableWrite (link : Fin 64) (en : Bool) (s : State) : Res :=
  let j := link.val
  let old := s.wordOf (Reg.row_LNK_CTL.fields j 0)
  .next (s.whenReady (State.writeLnkCtl 0 j .whole (BitVec.ofNat 64 (old / 4 * 4 + b2n en))))

/-- LINK_RETRAIN (R370): a write of LNK_CTL.RETRAIN 1. -/
def execLinkRetrain (link : Fin 64) (s : State) : Res :=
  let j := link.val
  let old := s.wordOf (Reg.row_LNK_CTL.fields j 0)
  .next (s.whenReady (State.writeLnkCtl 0 j .whole (BitVec.ofNat 64 (old / 4 * 4 + bits old 0 1 + 2))))

/-- SPARE_CONFIG_WRITE (R367, R383): a write of LNK_CTL of L63. -/
def execSpareConfigWrite (v : Word) (s : State) : Res := .next (s.whenReady (State.writeLnkCtl 0 63 .whole v))

/-- The module joins the domain: it computes its digest, and its links identify (R371, R368). -/
def State.joinDomain (s : State) : State :=
  let s1 := s.set Reg.LNK_DOM_CFG_EN 1 |>.computeDigest
  let s2 := (List.range 64).foldl (fun s j =>
    if s.linkState j = lnkDown then s else s.linkSettle j) s1
  let s3 := (List.range 64).foldl (fun s j =>
    if s.linkState j = lnkIdentify then (s.sendIdentity j).identify j else if s.linkUp j then s.judge j else s) s2
  ((List.range 17).foldl (fun s t => s.publishMap t) s3).syncDomMap

/-- The module leaves the domain after DOWN words (R370, R391). -/
def State.leaveDomain (s : State) : State :=
  let s1 := (List.range 64).foldl (fun s j => if s.linkUp j then (s.sendDown j 3).linkToDown j 0 else s) s
  let s2 := (s1.set Reg.LNK_DOM_CFG_EN 0).unset [Reg.LNK_DOM_TIME_MASTER, Reg.LNK_DOM_TIME_ISMASTER, Reg.LNK_DOM_TIME_SYNCED,
    Reg.LNK_DOM_TIME_FENCED, Reg.LNK_DOM_TIME_OFFSET, Reg.LNK_DOM_TIME_STEER, Reg.LNK_DOM_MAP_MAP 0, Reg.LNK_DOM_MAP_MAP 1,
    Reg.LNK_DOM_MAP_MAP 2, Reg.LNK_DOM_MAP_MAP 3]
  { s2 with domain := {} }

/-- REJOIN is written on a fenced module (R382). -/
def State.rejoin (s : State) : State :=
  if s.on Reg.LNK_DOM_TIME_FENCED then { s with domain := { s.domain with rejoin := true } } else s

/-- A write of LNK_DOM_CFG is refused (R365, R390): it changes a field while EN is 1, or a field that it changes, or the EN that it sets, leaves a
value outside the limits. A field that stays as it is refuses nothing (R577). -/
def State.domCfgRefused (s : State) (new : Nat) : Bool :=
  let m := bits new 0 6
  let n := bits new 6 7
  let p31 := bitAt new 13
  let hold := bits new 16 9
  let newM := m != s.modNum
  let newN := n != s.domN
  let newP := p31 != s.on Reg.LNK_DOM_CFG_P31
  let newH := hold != s.get Reg.LNK_DOM_CFG_HOLD
  let join := bitAt new 32 && !s.joined
  (s.joined && (newM || newN || newP || newH)) ||
    ((newN || join) && (n < 2 || n > 64 || n > s.get Reg.ID_VARIANT_MAXDOMAIN)) ||
    ((newM || newN || join) && m ≥ n) ||
    ((newP || join) && s.get Reg.ID_VARIANT_LINKS == 32 && !p31) ||
    ((newP || newN || join) && p31 && n > 32) ||
    ((newH || join) && (hold < 100 || hold > 400))

/-- A write of LNK_DOM_CFG (R365, R371, R390). -/
def State.writeDomCfg (func : Nat) (part : Part) (v : Word) (s : State) : State :=
  let new := partOf (s.wordOf (Reg.row_LNK_DOM_CFG.fields 0 0)) part v
  let en := bitAt new 32
  if s.domCfgRefused new then s.logRefused Reg.LNK_DOM_CFG_EN.off func v.toNat
  else s.tellDomain <|
    let s1 := if s.joined then s else
      (((s.set Reg.LNK_DOM_CFG_MODNUM (bits new 0 6)).set Reg.LNK_DOM_CFG_N (bits new 6 7)).set Reg.LNK_DOM_CFG_P31 (bits new 13 1)).set
        Reg.LNK_DOM_CFG_HOLD (bits new 16 9)
    let s2 := if en && !s1.joined then s1.joinDomain
      else if !en && s1.joined then s1.leaveDomain
      else if !en then (List.range 64).foldl (fun s j => if s.linkState j = lnkDown then s else s.linkSettle j) s1
      else s1.computeDigest
    if bitAt (partOf 0 part v) 33 then s2.rejoin else s2

/-- DOMAIN_EN_WRITE (R371, R390): a write of LNK_DOM_CFG. -/
def execDomainEnWrite (part : Part) (v : Word) (s : State) : Res := .next (s.whenReady (State.writeDomCfg 0 part v))

/-- DOMAIN_REJOIN (R382): a write of LNK_DOM_CFG.REJOIN 1. -/
def execDomainRejoin (s : State) : Res := .next (s.whenReady State.rejoin)

end Sys2Proof.Machine
end

