-- ==== Sys2Proof/Machine/SleepOps.lean ====
section
/-! DEFINITION. A tile's way into a sleep state (R98, R108, R126): what its entry drains and drops, and the sleep of a WAITS. -/

namespace Sys2Proof.Machine

/-- A tile on its way into L3 or L4: its store buffer drains, its panels lose their stationary operands, its claim is released (R98, R229,
R277). -/
def State.drainForSleep (g : Nat) (s : State) : State :=
  (((s.modTile g (fun t => t.drainAll.unload)).headDrained g).releaseClaim g).syncTile g

/-- A tile begins the entry to a sleep state: to L1 and L2 at once, to L3 through its shadow copy, to L4 through its save (R98, R99). -/
def State.tileToSleep (g depth : Nat) (s : State) : State :=
  if depth = 0 then s
  else if depth ≤ 2 then s.enterSleep g depth
  else
    (((s.drainForSleep g).setDomState g 6).set (Reg.PWR_DOM_STATE_WAITLULL g) 0).modDom g
      (fun d => { d with exiting := none, granted := none, entering := some (depth, s.tick), wake := false })

/-- The depth at which a WAITS takes effect: the shallower of its own and MAXSTATE (R108); 0, a wait in L0, where HOLD keeps the tile there
(R123). -/
def State.sleepDepth (s : State) (g depth : Nat) : Nat :=
  if s.on (Reg.PWR_DOM_CTL_HOLD g) then 0 else min depth (s.get (Reg.PWR_DOM_CTL_MAXSTATE g))

/-- The state that an automatic rule takes a domain to: no deeper than MAXSTATE, L0 under HOLD (R106, R123). -/
def State.autoDepth (s : State) (n st : Nat) : Nat :=
  if s.on (Reg.PWR_DOM_CTL_HOLD n) then 0 else min st (s.get (Reg.PWR_DOM_CTL_MAXSTATE n))

/-- A waiting tile goes to sleep: a pinned tenancy's at once to the effective depth, any other's to L1 first (R108). At depth 0 it waits in
wait-Lull (R107). -/
def State.waitSleep (g depth : Nat) (s : State) : State :=
  if depth = 0 then s.set (Reg.PWR_DOM_STATE_WAITLULL g) 1
  else s.tileToSleep g (if s.tnPinned (s.tileTen g) && s.tileTen g ≤ 16 then depth else min depth 1)

end Sys2Proof.Machine
end

