-- ==== Sys2Proof/Machine/SaveOps.lean ====
section
/-! DEFINITION. A tile's context record in its tenancy's save area (R99, R194): where it lies, its bytes, its writing and its reading back. -/

namespace Sys2Proof.Machine

/-- Bytes of a slot of a save area. -/
def slotBytes : Nat := 0x900000

/-- The buffer handle of a tenancy's save area, 0 for none (R459). -/
def State.saveHandle (s : State) (t : Nat) : Nat := s.get (Reg.TN_SAVE_HANDLE t)

/-- The offset in the save area of tile `g`'s slot: the k-th 9 MiB, k counting the tenancy's tiles below it (R459). -/
def State.saveOffset (s : State) (t g : Nat) : Nat := slotBytes * popCount g (s.get (Reg.TN_TILES_MAP t))

/-- The physical address of a byte of tile `g`'s slot. -/
def State.saveAddr (s : State) (t g o : Nat) : Nat :=
  let x := s.saveOffset t g + o
  (s.handleGrans (s.saveHandle t)).getD (x / 2 ^ 30) 0 * 2 ^ 30 + x % 2 ^ 30

/-- The parts of a stretch of the slot that lie in one granule each: offset and length. -/
def State.saveParts (s : State) (t g n : Nat) : List (Nat × Nat) :=
  let k := 2 ^ 30 - s.saveOffset t g % 2 ^ 30
  if n ≤ k then [(0, n)] else [(0, k), (k, n - k)]

/-- The cells of a context record, by offset (R194): only those that are not 0. -/
def State.recordCells (s : State) (g : Nat) : List Host.Cell :=
  let t := s.tile g
  let put := fun (o : Nat) (bs : List Byte) => (bs.zipIdx o).filterMap (fun e => if e.1 = 0 then none else some (e.2, e.1))
  t.sp ++ t.istore.map (fun e => (0x800000 + e.1, e.2)) ++
  (List.range 4).flatMap (fun p => (t.panel p).banks.flatMap (fun e =>
    put (0x820000 + 0x10000 * p + 0x8000 * (e.1 / 4096) + 8 * (e.1 % 4096)) (leBytes 8 e.2))) ++
  (List.range 512).flatMap (fun i => put (0x860000 + 8 * i) (leBytes 8 (s.recordWord g (8 * i))))

/-- Bytes of a context record. -/
def recordBytes : Nat := 8785920

/-- The record is written to the slot (R99). -/
def State.saveTile (g : Nat) (s : State) : State :=
  let t := s.tileTen g
  let clean := (s.saveParts t g recordBytes).foldl (fun m p => memClear m (s.saveAddr t g p.1) p.2) s.hbm
  let hbm := (s.recordCells g).foldl (fun m e => spSet ramByte m (s.saveAddr t g e.1) e.2) clean
  let words := (s.saveParts t g recordBytes).map (fun p => (s.saveAddr t g p.1 / 64, p.2 / 64))
  { s with
    hbm := hbm
    poison := s.poison.filter (fun e => !words.any (fun w => w.1 ≤ e.1 && e.1 < w.1 + w.2))
    hbmLog := if s.inWave then s.hbmLog ++ (s.saveParts t g recordBytes).map (fun p => (s.saveAddr t g p.1, p.2)) else s.hbmLog }

/-- A word of the record is poisoned: the restore meets an uncorrectable error. -/
def State.recordPoisoned (s : State) (g : Nat) : Bool :=
  let t := s.tileTen g
  let words := (s.saveParts t g recordBytes).map (fun p => (s.saveAddr t g p.1 / 64, p.2 / 64))
  s.poison.any (fun e => words.any (fun w => w.1 ≤ e.1 && e.1 < w.1 + w.2))

/-- The cells of the slot as they stand in HBM, by offset in the record. -/
def State.slotCells (s : State) (g : Nat) : List Host.Cell :=
  let t := s.tileTen g
  (s.saveParts t g recordBytes).flatMap (fun p =>
    let a := s.saveAddr t g p.1
    s.hbm.filterMap (fun e => if a ≤ e.1 ∧ e.1 < a + p.2 then some (e.1 - a + p.1, e.2) else none))

/-- A tile is restored from its record (R99, R194): everything that the record holds. A stop or an epoch that the unit took while its record lay
in HBM stands (R187, R491). -/
def State.restoreTile (g : Nat) (s : State) : State :=
  let cells := s.slotCells g
  let word := fun (o : Nat) => memNat ramByte cells o 8
  let reg := fun (o : Nat) => word (0x860000 + o)
  let s1 := if s.recordWord g 0x288 = (s.tile g).savedWord then s.takeStateWord g (reg 0x288) else s
  let s2 := if bits (reg 0x2D8) 0 16 = s.get (Reg.TILE_STATE_EPOCH g) then s1.takeOwnerWord g (reg 0x2D8) else s1
  s2.modTile g (fun t =>
    { t with
      saved := false
      sp := cells.filter (fun e => e.1 < 0x800000)
      istore := (cells.filter (fun e => 0x800000 ≤ e.1 && e.1 < 0x820000)).map (fun e => (e.1 - 0x800000, e.2))
      panels := Vector.ofFn (fun (p : Fin 4) =>
        let base := 0x820000 + 0x10000 * p.val
        let keys := ((cells.filter (fun e => base ≤ e.1 && e.1 < base + 0x10000)).map (fun e => (e.1 - base) / 8)).eraseDups
        { banks := keys.foldl (fun m k => spSet 0 m k (word (base + 8 * k) % 2 ^ 35)) [] })
      g := Vector.ofFn (fun (i : Fin 64) => BitVec.ofNat 64 (reg (8 * i.val)))
      a := Vector.ofFn (fun (i : Fin 16) => BitVec.ofNat 48 (reg (0x200 + 8 * i.val)))
      p := BitVec.ofNat 16 (reg 0x280)
      m := Vector.ofFn (fun (i : Fin 8) => BitVec.ofNat 64 (reg (0x290 + 8 * i.val)))
      cycle := BitVec.ofNat 64 (reg 0x2D0)
      lq := Vector.ofFn (fun (i : Fin 32) =>
        Queue.restored (reg (0x300 + 4 * (i.val / 2 * 2)) / 2 ^ (32 * (i.val % 2)) % 2 ^ 32) (reg (0x380 + 8 * i.val))) })

end Sys2Proof.Machine
end

