-- ==== Sys2Proof/Machine/LadderRun.lean ====
section
/-! DEFINITION. Entries to sleep states and exits from them for every kind of domain (R97 to R106, R124), and Deep Frost (R121, R122). -/

namespace Sys2Proof.Machine

/-- Some granule that belongs to a tenancy touches stack `k` (R100). -/
def State.stackAssigned (s : State) (k : Nat) : Bool :=
  (List.range 256).any (fun G => s.granOwner G != 31 && (s.granStacks G).contains k)

/-- A stack comes back from L4 with zeros in every word and none poisoned (R101). -/
def State.refillStack (k : Nat) (s : State) : State :=
  { s with
    hbm := spClear (fun a => (s.hbmPlace a).1 == k) s.hbm
    poison := s.poison.filter (fun e => (s.hbmPlace (64 * e.1)).1 != k)
    scrubs := s.scrubs.setIfInBounds k {} }

/-- A domain begins its entry to a sleep state (R98 to R102). -/
def State.enterDomain (n st : Nat) (s : State) : State :=
  if n < 64 then
    if st < 4 then s.tileToSleep n st
    else if s.tileTen n ≤ 16 then s.tileToSleep n 4
    else (((s.drainForSleep n).modTile n (Tile.lost false)).syncTile n).enterSleep n 4
  else if 68 ≤ n ∧ n < 72 ∧ st = 4 then
    (s.emptyStore (n - 68)).enterSleep n 4
  else if 80 ≤ n ∧ n < 84 ∧ 3 ≤ st then ((s.bankDown (n - 80)).syncDomMap).enterSleep n st
  else s.enterSleep n st

/-- A request of the provider for a domain is outside its row (R105, R124): its owner is started, it is not present, the state is not
one of its kind or not reachable from where it stands, or something holds it. -/
def State.reqRefused (s : State) (n target : Nat) : Bool :=
  let st := s.domState n
  let entering := match (s.dom n).entering with | some e => e.1 | none => 0
  let owner := s.domOwner n
  (owner ≤ 16 && s.tnStarted owner) || !s.on (Reg.PWR_DOM_ID_PRESENT n) || target > 4 || !domSupports n target || st == 5 ||
    (target != 0 &&
      (s.on (Reg.PWR_DOM_CTL_HOLD n) || s.domScheduled n || (st == 6 && (entering == 0 || target ≤ entering)) || (st < 5 && target < st) ||
        (n < 64 && target == 4 && owner ≤ 16 && s.saveHandle owner == 0) || (72 ≤ n && n < 80 && target == 4 && s.stackAssigned (n - 72))))

/-- A write of PWR_DOM_REQ (R124). -/
def State.writeDomReq (func n : Nat) (v : Word) (s : State) : State :=
  let target := bits v.toNat 0 3
  if !bitAt v.toNat 3 then s
  else if s.reqRefused n target then s.logRefused (Reg.PWR_DOM_REQ_TARGET n).off func v.toNat
  else if target = 0 then s.wakeDomain n
  else if s.domState n = target then s
  else s.enterDomain n target

/-- PWR_DOM_REQ (R124). -/
def execPwrDomReq (dom : Fin 86) (v : Word) (s : State) : Res := .next (s.whenReady (State.writeDomReq 0 dom.val v))

/-- A stack whose saved settings are not valid was trained cold, and its record is to be written (R101, R145). -/
def State.trainedCold (k : Nat) (s : State) : State :=
  if s.trainValid k then s else { s with boot := { s.boot with rewrite := s.boot.rewrite ++ [(k, true)] } }

/-- The time after which an exit is too late: twice its time; the 30 ms of a stack become 400 ms where its saved settings are not valid and
it trains cold (R101, R104). -/
def State.exitBound (s : State) (n t : Nat) : Nat :=
  2 * (if t = 30000000 ∧ !s.trainValid (n - 72) then 400000000 else t)

/-- An exit ends: the domain is in L0 and what it lost is back (R98, R99, R101, R102). -/
def State.exitDone (n : Nat) (start : Word) (t : Nat) (s : State) : State :=
  let s1 := ((s.setDomState n 0).bump (Reg.PWR_DOM_WAKES_WAKES n) 1).set (Reg.PWR_DOM_WAKES_LASTEXIT n) (min (s.since start) (2 ^ 32 - 1))
  let s2 := s1.modDom n (fun d => { d with exiting := none, granted := none, idleAt := s.tick })
  if n < 64 then
    let s3 := s2.retarget (domDie n)
    if t = 78600 then
      if s3.recordPoisoned n then
        (s3.setRun n runStopped).cutAll (fun f _ => f == s3.tileTen n) 0x22 stUncorrected
      else
        let s4 := (s3.restoreTile n).syncTile n
        if (s4.tile n).debugPending then s4.debugHaltNow n else s4
    else if (s3.tile n).debugPending then s3.debugHaltNow n else s3
  else if n < 72 then (if 68 ≤ n then (s2.retarget (domDie n)).rimeRest (n - 68) else s2)
  else if n < 80 then (if t = 30000000 then (s2.refillStack (n - 72)).trainedCold (n - 72) else s2)
  else if n < 84 then (if t ≥ 40000 then (s2.bankUp (n - 80)).syncDomMap else s2)
  else s2

/-- DOMAIN_EXIT_DONE (R103): a domain's exit ends, its exact time after its grant. -/
def execDomainExitDone (dom : Fin 86) (s : State) : Res :=
  let n := dom.val
  match (s.dom n).exiting, (s.dom n).granted with
  | some (start, t), some g => if s.domState n = 6 ∧ s.since g ≥ t then .next (s.exitDone n start t) else .next s
  | _, _ => .next s

/-- EXIT_TIMEOUT (R104): an exit that is not over after twice its time opens the domain's switch, as a unit-class event. -/
def execExitTimeout (dom : Fin 86) (s : State) : Res :=
  let n := dom.val
  match (s.dom n).exiting, (s.dom n).granted with
  | some (_, t), some g =>
    if s.domState n = 6 ∧ s.since g ≥ s.exitBound n t then
      let u := (domUnits n).headD 0xFF
      let e : EvRec := { kind := 0x0E, unit := u, body := [BitVec.ofNat 8 u, 5] ++ leBytes 2 (s.epoch u) }
      .next (((s.switchOff n).syncDomMap).contain (domUnits n) e)
    else .next s
  | _, _ => .next s

/-- SHADOW_COPY_DONE (R98): a tile on its way into L3 has drained its channels and copied its registers, which takes 1 µs. -/
def execShadowCopyDone (tile : Fin 64) (s : State) : Res :=
  let g := tile.val
  match (s.dom g).entering with
  | some (3, at') =>
    if s.since at' ≥ 1000 ∧ (s.tile g).chans.all (fun c => c.descs.isEmpty) ∧ (s.tile g).mxOps.isEmpty ∧ (s.tile g).vq.isEmpty then
      .next (s.enterSleep g 3)
    else .next s
  | _ => .next s

/-- CONTEXT_SAVE_DONE (R99): a tile on its way into L4 has written its context record, which takes 58.6 µs; an uncorrectable HBM error
abandons the entry and the tile stays in L3. A wake that arrived during the save starts the restore at once (R126). -/
def execContextSaveDone (tile : Fin 64) (ok : Bool) (s : State) : Res :=
  let g := tile.val
  match (s.dom g).entering with
  | some (4, at') =>
    if s.since at' < 58600 ∨ !(s.tile g).chans.all (fun c => c.descs.isEmpty) ∨ !(s.tile g).mxOps.isEmpty ∨ !(s.tile g).vq.isEmpty then .next s
    else
      let wake := (s.dom g).wake
      let back := fun (s : State) => if wake then s.wakeDomain g else s
      if ok then .next (back ((((s.saveTile g).modTile g (fun t => { t.lost true with savedWord := s.recordWord g 0x288 })).syncTile g).enterSleep g 4))
      else
        let a := s.saveAddr (s.tileTen g) g 0
        let p := s.hbmPlace a
        let e : EvRec :=
          { kind := 0x05, tenancy := s.tileTen g, unit := 8 + p.1, status := stUncorrected
            body := leBytes 6 a ++ [BitVec.ofNat 8 p.1, BitVec.ofNat 8 p.2, 1] }
        .next (back ((s.enterSleep g 3).logEvent e))
  | _ => .next s

/-- RIME_IDLE_TIMEOUT (R106): a Rime domain idle in L1 for 100 µs enters L3; one of a pinned tenancy stays in L1 (R111). -/
def execRimeIdleTimeout (die : Fin 4) (s : State) : Res :=
  let n := 68 + die.val
  let x := s.rime die.val
  if s.domState n = 1 ∧ x.active.isNone ∧ x.queue.isEmpty ∧ s.since (s.dom n).idleAt ≥ 100000 ∧ s.autoMay n 3 ∧
      !(s.domOwner n ≤ 16 ∧ s.tnPinned (s.domOwner n)) then .next (s.enterSleep n 3)
  else .next s

/-- Traffic that stands in a shared domain or waits for it: Jetstream flits, Isobar and Breeze packets, requests at an HC, a link's queues. -/
def State.domTraffic (s : State) (n : Nat) : Bool :=
  s.flits.any (fun f => f.domAt f.loc == n) || s.isobar.any (fun p => p.doms.contains n) || s.breeze.any (fun p => p.doms.contains n) ||
    (if 72 ≤ n ∧ n < 80 then !((s.hcq[n - 72]?).getD []).isEmpty
     else if 80 ≤ n ∧ n < 84 then s.bankTraffic (n - 80) else false)

/-- FABRIC_IDLE_TIMEOUT (R106): a shared domain that carried no traffic for 64 NCLK enters L1. The base fabric of a module with a started
pinned tenancy stays in L0 (R310). -/
def execFabricIdleTimeout (dom : Fin 86) (s : State) : Res :=
  let n := dom.val
  let shared := (64 ≤ n ∧ n < 68) ∨ (72 ≤ n ∧ n < 84) ∨ n = 85
  if shared ∧ s.domState n = 0 ∧ !s.domTraffic n ∧ s.since (s.dom n).idleAt ≥ 32 ∧ s.autoMay n 1 ∧
      !(n = 85 ∧ (List.range 17).any (fun t => s.tnStarted t && s.tnPinned t)) then .next (s.enterSleep n 1)
  else .next s

/-- WAIT_DEEPEN (R108): the sleep wait of an unpinned tile goes on to L2 after 2 µs and to L3 after 20 µs, to its effective depth. -/
def execWaitDeepen (tile : Fin 64) (s : State) : Res :=
  let g := tile.val
  let d := s.get (Reg.TILE_Q_WAIT_DEPTH g)
  let w := s.since (BitVec.ofNat 64 (s.get (Reg.TILE_Q_WSTART_TICK g)))
  let st := s.domState g
  if s.run g ≠ runWait ∨ s.get (Reg.TILE_Q_WAIT_OP g) ≠ 3 ∨ s.tnPinned (s.tileTen g) ∨ st = 0 ∨ st > 2 then .next s
  else if d = 3 ∧ w ≥ 20000 then .next (s.tileToSleep g 3)
  else if d ≥ 2 ∧ st = 1 ∧ w ≥ 2000 then .next (s.tileToSleep g 2)
  else .next s

/-! ### Deep Frost (R121, R122) -/

/-- The state of each kind of domain in Deep Frost (R100); tiles keep theirs. -/
def frostState (n : Nat) : Nat :=
  match domKind n with
  | 1 | 2 => 4
  | 3 | 4 => 3
  | 5 => 1
  | _ => 2

/-- A domain that sleeps deeper than its Deep Frost state takes that state: a stack from L4 by way of its exit, with zeros in every word
(R100, R101, R121). DESIGN CHOICE: the spec gives the way no time. -/
def State.riseToFrost (n : Nat) (s : State) : State :=
  let s1 := if 72 ≤ n ∧ n < 80 ∧ s.domState n = 4 then s.refillStack (n - 72) else s
  (s1.setDomState n (frostState n)).modDom n (fun d => { d with exiting := none, granted := none, entering := none, wake := false })

/-- The module enters Deep Frost (R121): refused, with nothing changed, while a tenancy is started. ALERT# is released (R95). -/
def State.enterFrost (s : State) : State × Nat :=
  if (List.range 17).any (fun t => s.tnStarted t) ∨ s.frost ≠ .awake then (s, if s.frost = .awake then stNoResource else stOK)
  else
    let s1 := (List.range 64).foldl (fun s g =>
      if s.domState g = 5 ∨ s.domState g = 4 ∨ s.domState g = 3 then s else s.tileToSleep g 3) s
    let s2 := ((List.range 22).map (fun i => 64 + i)).foldl (fun s n =>
      if s.domState n = 5 ∨ s.domState n = frostState n then s
      else if frostState n < s.domState n ∧ s.domState n < 5 then s.riseToFrost n
      else s.enterDomain n (frostState n)) s1
    ({ s2 with frost := .asleep, pins := { s2.pins with alert := false } }, stOK)

/-- DEEP_FROST_WAKE (R122): a new command on a ring, a mailbox request or a PLDM request starts the exit. -/
def execDeepFrostWake (s : State) : Res := .next s.wakeFrost

/-- DEEP_FROST_EXIT_DONE (R122): 200 µs later the shared domains are in L0 and the links train again. A Rime domain wakes with its next
command. -/
def execDeepFrostExitDone (s : State) : Res :=
  match s.frost with
  | .exiting start =>
    if s.since start < 200000 then .next s
    else
      let ns := (List.range 22).map (fun i => 64 + i)
      let s1 := ns.foldl (fun s n =>
        if s.domState n = 5 ∨ domKind n = 2 then s
        else
          let s1 := (s.setDomState n 0).modDom n (fun d => { d with exiting := none, granted := none, entering := none, idleAt := s.tick })
          let s1 := if s.domState n = 0 then s1
            else (s1.bump (Reg.PWR_DOM_WAKES_WAKES n) 1).set (Reg.PWR_DOM_WAKES_LASTEXIT n) (min (s.since start) (2 ^ 32 - 1))
          if domKind n = 4 then s1.bankUp (n - 80) else s1) s
      .next ({ s1 with frost := .awake, pins := { s1.pins with alert := !s1.mgmt.events.isEmpty } } : State).syncDomMap
  | _ => .next s

end Sys2Proof.Machine
end

