-- ==== Sys2Proof/Machine/Memory.lean ====
section
/-! DEFINITION. The HBM controllers: places of words (R332 to R334), slots (R321, R323, R326), reads, writes and partial writes with
their errors and poison (R338, R339, R341), patrol scrub (R340), group modes (R336). -/

namespace Sys2Proof.Machine

/-! ### Places -/

/-- The row of an address within its pseudo-channel (R333, R334), with its group. -/
def State.hbmRowOf (s : State) (x : Nat) : Nat :=
  let ns := if s.hbmStacks = 6 then 6 else 8
  let G := x / 2 ^ 30
  let q := G / ns
  let y := x - q * ns * 2 ^ 30
  let row :=
    if bitAt (s.get Reg.MEM_GROUPMODE_LOCAL) q then y % 2 ^ 30 / 256 / 32
    else if ns = 8 then y / 256 / 256 else y / 256 / 192
  q * 2 ^ 17 + row

/-- The physical address of 64-byte word `n` of a stack, counted by pseudo-channel, group, row and column: the inverse of R333 and
R334. -/
def State.stackWord (s : State) (k n : Nat) : Nat :=
  let ns := if s.hbmStacks = 6 then 6 else 8
  let i := s.stackList.idxOf k
  let pcs := n / 2 ^ 24
  let q := bits n 19 5
  let row := bits n 2 17
  let base := q * ns * 2 ^ 30
  let line :=
    if bitAt (s.get Reg.MEM_GROUPMODE_LOCAL) q then
      i * 2 ^ 22 + row * 32 + (pcs ^^^ bits row 0 5 ^^^ bits row 5 5 ^^^ bits row 10 5 ^^^ bits row 15 2)
    else if ns = 8 then
      row * 256 + ((32 * i + pcs) ^^^ bits row 0 8 ^^^ bits row 8 8 ^^^ bits row 16 1)
    else row * 192 + (32 * i + pcs + 192 - row % 192) % 192
  base + 256 * line + 64 * (n % 4)

/-- The words of 64 bytes that a request touches. -/
def wordsOf (addr len : Nat) : List Nat :=
  (List.range ((addr + max len 1 - 1) / 64 + 1 - addr / 64)).map (fun i => addr / 64 + i)

/-! ### Errors -/

/-- The MEMORY record of a word (R537). -/
def State.memEvent (k word what cls status : Nat) (s : State) : State :=
  let a := 64 * word
  let e : EvRec :=
    { kind := 0x05, unit := 8 + k, tenancy := s.granOwner (a / 2 ^ 30), cls := cls, status := status
      body := leBytes 6 a ++ [BitVec.ofNat 8 k, BitVec.ofNat 8 (s.hbmPlace a).2, BitVec.ofNat 8 what] }
  if cls = 1 then s.logCorrected (0x0500 + what) e else s.logEvent e

/-- A corrected word (R338): counted, and rewritten in the next memory slot that is free. -/
def State.memCorrected (k word : Nat) (s : State) : State :=
  ({ s with rewrites := s.rewrites ++ [word] } : State).bump (Reg.MEM_ECC_CORR k) 1 |>.memEvent k word 0 1 stOkCorrected

/-- An uncorrectable word that is not yet poisoned (R339): it is poisoned, counted, its address kept, and recorded. -/
def State.memUncorrected (k word what cls : Nat) (s : State) : State :=
  let s1 : State := { s with poison := spSet false s.poison word true }
  let s2 := s1.bump (Reg.MEM_ECC_UNCORR k) 1
  let s3 := ((s2.set (Reg.MEM_ECC_ADDR_ADDR k) (64 * word)).set (Reg.MEM_ECC_ADDR_OWNER k)
    (s.granOwner (word / 2 ^ 24))).set (Reg.MEM_ECC_ADDR_VALID k) 1
  (s3.memEvent k word what cls stUncorrected).countPoison word

/-- The word holds poison. -/
def State.poisoned (s : State) (word : Nat) : Bool := spGet false s.poison word

/-- Bytes moved at a stack are counted in MiB, wrapping (MEM_TRAFFIC). -/
def State.countTraffic (k : Nat) (write : Bool) (n : Nat) (s : State) : State :=
  let key := 2 * k + b2n write
  let b := spGet 0 s.hbmBytes key + n
  let s1 : State := { s with hbmBytes := spSet 0 s.hbmBytes key b }
  s1.set (if write then Reg.MEM_TRAFFIC_WRMIB k else Reg.MEM_TRAFFIC_RDMIB k) (b / 2 ^ 20)

/-! ### Serving a request -/

/-- The flit's write covers whole words. -/
def wholeWords (f : Flit) : Bool := f.addr % 64 == 0 && f.data.length % 64 == 0

/-- A request is in the direction of a slot: a READ and the first half of a partial write read. -/
def HcReq.writes (r : HcReq) : Bool := r.flit.typ == .write && (wholeWords r.flit || r.half)

/-- Request `i` leaves the queue of an HC. -/
def State.popHc (k i : Nat) (s : State) : State :=
  { s with hcq := s.hcq.setIfInBounds k (((s.hcq[k]?).getD []).eraseIdx i) }

/-- A read at an HC (R337 to R339). -/
def State.serveRead (k : Nat) (f : Flit) (ecc : Secded) (s : State) : State :=
  let ws := wordsOf f.addr f.len
  let bad := ws.filter s.poisoned
  let s1 := (s.countTraffic k false f.len)
  match bad, ecc with
  | w :: _, _ =>
    ((s1.bump (Reg.MEM_ECC_POISON k) 1).memEvent k w 2 2 stUncorrected).rdata f (s1.hbmRead f.addr f.len) true
  | [], .uncorrectable => (s1.memUncorrected k (f.addr / 64) 1 2).rdata f (s1.hbmRead f.addr f.len) true
  | [], .corrected => ((s1.memCorrected k (f.addr / 64)).correctedFlit f).rdata f (s1.hbmRead f.addr f.len) false
  | [], .clean => s1.rdata f (s1.hbmRead f.addr f.len) false

/-- A write of whole words clears their poison (R339). -/
def State.serveWrite (k : Nat) (f : Flit) (s : State) : State :=
  let s1 := (s.countTraffic k true f.data.length).hbmWrite f.addr f.data
  let s2 : State := { s1 with
    poison := (wordsOf f.addr f.data.length).foldl (fun p w => spSet false p w false) s1.poison
    rewrites := s1.rewrites.filter (fun w => !(wordsOf f.addr f.data.length).contains w) }
  s2.wack f stOK

/-- The read half of a partial write (R341): a poisoned or uncorrectable word fails it and stays as it is; otherwise it waits for
its write half. -/
def State.servePartialRead (k i : Nat) (r : HcReq) (ecc : Secded) (s : State) : State :=
  let f := r.flit
  let w := f.addr / 64
  let on := fun (s : State) => { s with hcq := s.hcq.setIfInBounds k (((s.hcq[k]?).getD []).set i { r with half := true }) }
  if (wordsOf f.addr f.data.length).any s.poisoned then
    (((s.popHc k i).bump (Reg.MEM_ECC_POISON k) 1).memEvent k w 4 2 stUncorrected).wack f stUncorrected
  else match ecc with
  | .uncorrectable => ((s.popHc k i).memUncorrected k w 1 2).wack f stUncorrected
  | .corrected => on ((s.memCorrected k w).correctedFlit f)
  | .clean => on s

/-- The write half of a partial write. -/
def State.servePartialWrite (k : Nat) (f : Flit) (s : State) : State :=
  ((s.countTraffic k true f.data.length).hbmWrite f.addr f.data).wack f stOK

/-- Request `i` of an HC has its access. -/
def State.serveHc (k i : Nat) (r : HcReq) (ecc : Secded) (s : State) : State :=
  if r.flit.typ = .read then (s.popHc k i).serveRead k r.flit ecc
  else if wholeWords r.flit then (s.popHc k i).serveWrite k r.flit
  else if r.half then (s.popHc k i).servePartialWrite k r.flit
  else s.servePartialRead k i r ecc

/-- An earlier request in the queue touches a word of request `i`: accesses to one word are served in arrival order (R352). -/
def wordBefore (q : List HcReq) (i : Nat) (r : HcReq) : Bool :=
  let len := fun (f : Flit) => max f.len f.data.length
  (q.take i).any (fun e => (wordsOf e.flit.addr (len e.flit)).any (fun w => (wordsOf r.flit.addr (len r.flit)).contains w))

/-! ### Slots -/

/-- The memory slot of the present tick: 384 in 2,560 ns (R319). -/
def State.memSlotNow (s : State) : Nat := s.tick.toNat % 2560 * 3 / 20

/-- Entry of a memory table. -/
def State.memEntry (s : State) (k pcs slot : Nat) : Nat := (spGet 0 s.slotsM ((k * 32 + pcs) * 384 + slot)).toNat

def mWrite (e : Nat) : Bool := bitAt e 6
def mPort (e : Nat) : Nat := bits e 7 4
def mKind (e : Nat) : Nat := bits e 11 2

/-- A refresh entry refreshes: always at 85 °C and above, below it every second one (R323). -/
def State.refreshes (s : State) (k pcs slot : Nat) : Bool :=
  mKind (s.memEntry k pcs slot) == 1 &&
    (s.on (Reg.MEM_STATUS_HOT k) ||
      ((List.range slot).filter (fun i => mKind (s.memEntry k pcs i) == 1)).length % 2 == 0)

/-- The controller serves: its stack is present, its domain in L0, its unit not held. -/
def State.hcServes (s : State) (k : Nat) : Bool :=
  s.on (Reg.MEM_STATUS_PRESENT k) && s.domState (72 + k) == 0 && !s.unitHeld (8 + k)

/-- Requests that wait wake the controller's domain (R106). -/
def State.hcWake (k : Nat) (s : State) : State :=
  if ((s.hcq[k]?).getD []).isEmpty ∨ s.domState (72 + k) = 0 ∨ s.unitHeld (8 + k) then s else s.wakeDomain (72 + k)

/-- The first request of an HC's queue that `p` picks and that no earlier access to its word precedes. -/
def State.firstReq (s : State) (k : Nat) (p : HcReq → Bool) : Option (Nat × HcReq) :=
  let q := (s.hcq[k]?).getD []
  (List.range q.length).findSome? (fun i =>
    match q[i]? with
    | some r => if p r && !wordBefore q i r then some (i, r) else none
    | none => none)

/-- Some memory slot of the pseudo-channel serves the scheduled request at its port (R321). -/
def State.hasSlot (s : State) (k : Nat) (r : HcReq) : Bool :=
  (List.range 384).any (fun i =>
    let e := s.memEntry k r.pcs i
    eSched e && mKind e == 0 && eTen e == r.flit.tenancy && mPort e == r.port && mWrite e == r.writes)

/-- MEMORY_SLOT (R321, R323): the memory slot of this tick at a pseudo-channel. A scheduled entry serves the oldest scheduled request
of its tenancy at its port in its direction, late when the bank is still busy; with none, a dynamic request of the tenancy. A
refresh entry changes nothing that the module holds. -/
def execMemorySlot (hc : Fin 8) (pcs : Fin 32) (busy : Bool) (ecc : Secded) (s : State) : Res :=
  let k := hc.val
  let e := s.memEntry k pcs.val s.memSlotNow
  if !s.hcServes k then .next (s.hcWake k)
  else if mKind e ≠ 0 ∨ !eSched e then .next s
  else
    match s.firstReq k (fun r => r.pcs == pcs.val && r.flit.sched && r.flit.tenancy == eTen e && r.port == mPort e &&
      r.writes == mWrite e) with
    | some (i, r) =>
      let s1 := if busy then s.bump (Reg.MEM_SLOT_STAT_LATE k) 1 else s
      .next (s1.serveHc k i r ecc)
    | none =>
      match s.firstReq k (fun r => r.pcs == pcs.val && !r.flit.sched && r.flit.tenancy == eTen e) with
      | some (i, r) => .next (s.serveHc k i r ecc)
      | none => .next s

/-- No scheduled access and no refresh claims the present slot of a pseudo-channel. -/
def State.slotFree (s : State) (k pcs : Nat) : Bool :=
  let e := s.memEntry k pcs s.memSlotNow
  if mKind e = 1 then !s.refreshes k pcs s.memSlotNow else !eSched e

/-- An access served in a refresh entry that does not refresh is counted (MEM_SLOT_STAT.FREED). -/
def State.countFreed (k pcs : Nat) (s : State) : State :=
  if mKind (s.memEntry k pcs s.memSlotNow) = 1 then s.bump (Reg.MEM_SLOT_STAT_FREED k) 1 else s

/-- The request is dynamic, or a scheduled one that no slot of its port serves (R321). -/
def State.dynamicReq (s : State) (k : Nat) (r : HcReq) : Bool := !r.flit.sched || !s.hasSlot k r

/-- HBM_DYNAMIC_ACCESS (R326): request `j` of an HC's queue is served in a free memory slot: the oldest of its pseudo-channel, or one
to the row already open, at most four times in a row. -/
def execHbmDynamicAccess (hc : Fin 8) (pcs : Fin 32) (j : Nat) (ecc : Secded) (s : State) : Res :=
  let k := hc.val
  let q := (s.hcq[k]?).getD []
  let key := 32 * k + pcs.val
  match q[j]? with
  | none => .next s
  | some r =>
    if !s.hcServes k then .next (s.hcWake k)
    else if r.pcs ≠ pcs.val ∨ !s.slotFree k pcs.val ∨ !s.dynamicReq k r ∨ wordBefore q j r then .next s
    else
      let first := (q.take j).all (fun e => e.pcs != pcs.val || !s.dynamicReq k e)
      let row := s.hbmRowOf r.flit.addr + 1
      let ahead := spGet 0 s.hbmAhead key
      if !first ∧ (spGet 0 s.hbmRow key ≠ row ∨ ahead ≥ 4) then .next s
      else
        let s1 : State := { s with hbmRow := spSet 0 s.hbmRow key row
                                   hbmAhead := spSet 0 s.hbmAhead key (if first then 0 else ahead + 1) }
        let s2 := if r.flit.sched then s1.bump (Reg.MEM_SLOT_STAT_LATE k) 1 else s1
        .next ((s2.countFreed k pcs.val).serveHc k j r ecc)

/-- HBM_CORRECTED_REWRITE (R338): the first corrected word of a pseudo-channel that waits is rewritten, in a slot that no scheduled
access claims. The rewrite leaves the corrected bytes. -/
def execHbmCorrectedRewrite (hc : Fin 8) (pcs : Fin 32) (s : State) : Res :=
  let k := hc.val
  match s.rewrites.find? (fun w => s.hbmPlace (64 * w) == (k, pcs.val)) with
  | none => .next s
  | some w =>
    if !s.hcServes k ∨ !s.slotFree k pcs.val then .next s
    else .next ({ s with rewrites := s.rewrites.erase w } : State)

/-! ### Patrol scrub -/

/-- Words of a stack: 32 GiB in 64-byte words. -/
def stackWords : Nat := 2 ^ 29

/-- A scrub read of the next word is counted; the pass that it ends is judged against its period (R340). -/
def State.scrubOn (k : Nat) (s : State) : State :=
  let c := (s.scrubs[k]?).getD {}
  if c.words + 1 < stackWords then
    ({ s with scrubs := s.scrubs.setIfInBounds k { c with words := c.words + 1 } } : State).set (Reg.MEM_SCRUB_PROGRESS k)
      ((c.words + 1) / 2 ^ 13)
  else
    let late := b2n (c.ns > s.get (Reg.MEM_SCRUB_PERIOD k) * 3600000000000)
    let s1 : State := { s with scrubs := s.scrubs.setIfInBounds k {} }
    (((s1.set (Reg.MEM_SCRUB_PROGRESS k) 0).wrapAdd (Reg.MEM_SCRUB_PASSES k) 1).set (Reg.MEM_SCRUB_BEHIND k) late).set
      (Reg.MEM_STATUS_BEHIND k) late

/-- SCRUB_READ (R340): patrol scrub reads the next word of a stack in a slot that no scheduled access claims: it corrects and writes
back, or poisons an uncorrectable word. A word already poisoned stays so. Scrub pauses outside L0 to L1 of its domain. -/
def execScrubRead (hc : Fin 8) (ecc : Secded) (s : State) : Res :=
  let k := hc.val
  let w := s.stackWord k ((s.scrubs[k]?).getD {}).words / 64
  let pcs := (s.hbmPlace (64 * w)).2
  if !s.hcServes k ∨ !s.on (Reg.MEM_SCRUB_EN k) ∨ !s.slotFree k pcs then .next s
  else
    let s1 := s.countFreed k pcs
    let s2 :=
      if s1.poisoned w then s1
      else match ecc with
      | .clean => s1
      | .corrected => (s1.bump (Reg.MEM_ECC_CORR k) 1).memEvent k w 0 1 stOkCorrected
      | .uncorrectable => s1.memUncorrected k w 3 0
    .next (s2.scrubOn k)

/-! ### Group modes -/

/-- The groups, of those in a mask, that hold a granule of a tenancy. -/
def State.ownedGroups (s : State) (m : Nat) : Bool :=
  let ns := if s.hbmStacks = 6 then 6 else 8
  (bitList 32 m).any (fun q => (List.range ns).any (fun i => s.granOwner (q * ns + i) ≤ 16))

/-- The granules of the groups in a mask: no write has reached their bytes since their group's mode changed (R336). -/
def State.groupsMoved (m : Nat) (s : State) : State :=
  let ns := if s.hbmStacks = 6 then 6 else 8
  { s with moved := s.moved ++ ((bitList 32 m).flatMap (fun q => (List.range ns).map (fun i => q * ns + i))).filter (fun G => !s.moved.contains G) }

/-- A write of MEM_GROUPMODE by a function (R336): refused whole where it changes a group with an assigned granule; the bytes of a group that
it changes are unpredictable from then on. -/
def State.writeGroupMode (func v : Nat) (s : State) : State :=
  let new := v % 2 ^ 32
  if s.ownedGroups (new ^^^ s.get Reg.MEM_GROUPMODE_LOCAL) then s.logRefused Reg.MEM_GROUPMODE_LOCAL.off func v
  else (s.groupsMoved (new ^^^ s.get Reg.MEM_GROUPMODE_LOCAL)).set Reg.MEM_GROUPMODE_LOCAL new

/-- MEM_GROUPMODE_WRITE (R336). -/
def execMemGroupmodeWrite (part : Part) (v : Word) (s : State) : Res :=
  .next (s.whenReady (fun s => s.writeGroupMode 0 (partOf (s.get Reg.MEM_GROUPMODE_LOCAL) part v)))

end Sys2Proof.Machine
end

