-- ==== Sys2Proof/Machine/RimeEngine.lean ====
section
/-! DEFINITION. The Rime engines (chapter 15): the gate refresh bit for bit (R470 to R472), the start token, the pre-check, the key
load and the waves of a command (R476 to R481). -/

namespace Sys2Proof.Machine

/-! ### The gate refresh -/

/-- A word modulo 2³² of an integer. -/
def w32 (x : Int) : Nat := unsigned 32 x

/-- The digits of R470 from the last to the first. -/
def digitsOf (lb : Nat) : Nat → Nat → List Int → List Int
  | 0, _, acc => acc
  | l + 1, t, acc =>
    let d := t % 2 ^ lb
    if d ≥ 2 ^ (lb - 1) then digitsOf lb l (t / 2 ^ lb + 1) (((d : Int) - 2 ^ lb) :: acc)
    else digitsOf lb l (t / 2 ^ lb) ((d : Int) :: acc)

/-- decomp (R470): digit 0 is the most significant. -/
def decomp (x lb l : Nat) : List Int :=
  let w := lb * l
  digitsOf lb l ((x + 2 ^ (31 - w)) % 2 ^ 32 / 2 ^ (32 - w)) []

/-- A polynomial of Z/2³²[X]/(X^N + 1): its N coefficients. -/
abbrev Poly := List Int

/-- Coefficient `i` of P·X^e, with e taken modulo 2N. -/
def rot (size : Nat) (p : Poly) (e : Int) : Poly :=
  (List.range size).map (fun (c : Nat) =>
    let k := (((c : Int) - e) % (2 * size : Nat)).toNat
    if k < size then p.getD k 0 else - p.getD (k - size) 0)

/-- The exact negacyclic product modulo 2³². -/
def polyMul (size : Nat) (p q : Poly) : Poly :=
  (List.range size).map (fun (c : Nat) =>
    ((List.range size).foldl (fun (n : Int) (i : Nat) =>
      if i ≤ c then n + p.getD i 0 * q.getD (c - i) 0 else n - p.getD i 0 * q.getD (size + c - i) 0) 0) % 2 ^ 32)

def polyAdd (p q : Poly) : Poly := (p.zip q).map (fun e => (e.1 + e.2) % 2 ^ 32)
def polySub (p q : Poly) : Poly := (p.zip q).map (fun e => (e.1 - e.2) % 2 ^ 32)

/-- extprod (R471): `g r poly` is the polynomial bsk[i][r][poly]. -/
def extprod (x : RimeSet) (g : Nat → Nat → Poly) (a b : Poly) : Poly × Poly :=
  let digits := fun (p : Poly) => p.map (fun c => decomp (w32 c) x.lbB x.lB)
  let da := digits a
  let db := digits b
  let row := fun (r : Nat) => if r < x.lB then da.map (fun d => d.getD r 0) else db.map (fun d => d.getD (r - x.lB) 0)
  (List.range (2 * x.lB)).foldl (fun acc r =>
    (polyAdd acc.1 (polyMul x.size (row r) (g r 0)), polyAdd acc.2 (polyMul x.size (row r) (g r 1))))
    (List.replicate x.size 0, List.replicate x.size 0)

/-- The key switch (R471 step 1): the words a2[0..n−1] and b2. `ksk i j m` is word m of row ksk[i][j], b at m = n. -/
def keySwitch (x : RimeSet) (ksk : Nat → Nat → Nat → Nat) (c : List Nat) : List Nat :=
  let ds := (List.range x.size).map (fun i => decomp (c.getD i 0) x.lbK x.lK)
  (List.range (x.n + 1)).map (fun m =>
    w32 ((List.range x.size).foldl (fun (acc : Int) i =>
      (List.range x.lK).foldl (fun (acc : Int) j => acc - (ds.getD i []).getD j 0 * ksk i j m) acc)
      (if m = x.n then (c.getD x.size 0 : Int) else 0)))

/-- The modulus switch of a word (R471 step 2). -/
def modSwitch (x : RimeSet) (v : Nat) : Nat :=
  let nu := Nat.log2 (2 * x.size)
  (v + 2 ^ (31 - nu)) % 2 ^ 32 / 2 ^ (32 - nu) % 2 ^ nu

/-- refresh (R471) of the N + 1 words of a long ciphertext. -/
def refresh (x : RimeSet) (ksk : Nat → Nat → Nat → Nat) (bsk : Nat → Nat → Nat → Poly) (lut : Nat → Nat) (c : List Nat) : List Nat :=
  let short := (keySwitch x ksk c).map (modSwitch x)
  let beta := x.size / 2 ^ x.p
  let v : Poly := (List.range x.size).map (fun i => (lut (i / beta) : Int))
  let start : Poly × Poly := (List.replicate x.size 0, rot x.size v (-((short.getD x.n 0 + beta / 2 : Nat) : Int)))
  let acc := (List.range x.n).foldl (fun (acc : Poly × Poly) i =>
    let e : Int := (short.getD i 0 : Nat)
    let d := extprod x (bsk i) (polySub (rot x.size acc.1 e) acc.1) (polySub (rot x.size acc.2 e) acc.2)
    (polyAdd acc.1 d.1, polyAdd acc.2 d.2)) start
  (w32 (acc.1.getD 0 0) :: (List.range (x.size - 1)).map (fun c => w32 (- acc.1.getD (x.size - 1 - c) 0))) ++ [w32 (acc.2.getD 0 0)]

/-! ### Op entries (R474) -/

def opNin (e : List Byte) : Nat := leAt e 0 1
def opConst (e : List Byte) : Nat := leAt e 4 4
def opLut (e : List Byte) : Nat := leAt e 16 8
def opW (e : List Byte) (i : Nat) : Int := signed 16 (leAt e (24 + 2 * i) 2)
def opIn (e : List Byte) (i : Nat) : Nat := leAt e (40 + 8 * i) 8
def opIns (e : List Byte) : List Nat := (List.range (opNin e)).map (opIn e)

/-- A field of the entry is wrong for the command (R474, R476). -/
def badOp (refreshes : Bool) (e : List Byte) : Bool :=
  let unused := (List.range 8).filter (fun i => opNin e ≤ i)
  opNin e < 1 || opNin e > 8 || leAt e 1 3 != 0 || leAt e 104 24 != 0 ||
    unused.any (fun i => leAt e (24 + 2 * i) 2 != 0 || opIn e i != 0) ||
    (opOut e :: opLut e :: opIns e).any (fun a => a % 64 != 0) || (opLut e != 0) != refreshes

/-- Two ranges of bytes overlap. -/
def overlaps (x y : Nat × Nat) : Bool := x.1 < y.1 + y.2 && y.1 < x.1 + x.2

/-- A range of HBM lies in the tenancy's granules (R452). -/
def State.inGranules (s : State) (t : Nat) (x : Nat × Nat) : Bool :=
  x.1 + x.2 ≤ s.hbmTop && (extentGranules ((x.1 : Int), ((x.1 + x.2 : Nat) : Int))).all (fun G => s.granOwner G == t)

/-- A word of a range holds poison. -/
def State.poisonIn (s : State) (xs : List (Nat × Nat)) : Option Nat :=
  (s.poison.find? (fun e => e.2 && xs.any (fun x => overlaps x (64 * e.1, 64)))).map (·.1)

/-! ### The end of a command -/

/-- The last output of a command is visible: with a token the command completes once that is applied, else at once (R476 phase 5, R483). -/
def State.rimeFinish (d f : Nat) (c : RingCmd) (result : Nat) (s : State) : State :=
  let tok := leAt c.desc 20 4
  if !tokEnable tok then s.rimeEnd d stOK result
  else
    let g := s.facing (tokTile tok)
    (s.sendIso { kind := .signal, pool := tokPool tok, queue := tokQueue tok, tile := g, src := .rime d, tenancy := f
                 count := leAt c.desc 24 3, epoch := s.heldEpoch (if tokPool tok then 0xC0 + f else 0x40 + g) }).modRime d
      (fun x => { x with owes := some result })

/-- A word of HBM that a Rime engine reads cannot be corrected or holds poison (R339): recorded; the command stops after the
outputs it has written. -/
def State.rimePoison (d word : Nat) (s : State) : State :=
  let k := (s.hbmPlace (64 * word)).1
  let result := match (s.rime d).active with
    | some e => if ((s.cmd e.1 e.2.1 e.2.2).map (·.op)).getD 0 = 0x50 then 0 else s.rimeResult e
    | none => 0
  ((s.bump (Reg.MEM_ECC_POISON k) 1).memEvent k word 2 2 stUncorrected).rimeEnd d stUncorrected result

/-! ### Start token and pre-check (R476) -/

/-- The status and the op (`rimeNone` for the key descriptor) of a failed pre-check: the descriptor's fields, the entries' fields,
extents, input headers, overlaps, in this order. -/
def State.precheck (s : State) (f op : Nat) (desc : List Byte) (ops : List (List Byte)) : Option (Nat × Nat) :=
  let set := leAt desc 0 1
  let x := rimeSet set
  let num := ops.zip (List.range ops.length)
  let ins := fun (e : List Byte) => (opIns e).map (fun a => (a, x.ctBytes))
  let keys := if op = 0x52 then [] else [(leAt desc 8 8, x.bskBytes), (leAt desc 16 8, x.kskBytes)]
  let luts := fun (e : List Byte) => if op = 0x51 then [(opLut e, x.lutBytes)] else []
  let out := fun (e : List Byte) => (opOut e, x.ctBytes)
  let badHead := fun (a : Nat) =>
    let h := s.hbmRead a 64
    leAt h 0 1 != set || leAt h 4 4 != leAt desc 4 4 || leAt h 1 1 > 1 || leAt h 8 56 != 0
  if set < 1 ∨ set > 2 ∨ leAt desc 1 1 ≠ 0 ∨ leAt desc 24 40 ≠ 0 ∨ leAt desc 8 8 % 64 ≠ 0 ∨ leAt desc 16 8 % 64 ≠ 0 ∨
      leAt desc 14 2 ≠ 0 ∨ leAt desc 22 2 ≠ 0 then some (stBadDescriptor, rimeNone)
  else match num.find? (fun e => badOp (op == 0x51) e.1) with
  | some e => some (stBadDescriptor, e.2)
  | none =>
    if keys.any (fun k => !s.inGranules f k) then some (stBounds, rimeNone)
    else match num.find? (fun e => (out e.1 :: luts e.1 ++ ins e.1).any (fun k => !s.inGranules f k)) with
    | some e => some (stBounds, e.2)
    | none =>
      match num.find? (fun e => (opIns e.1).any badHead) with
      | some e => some (stBadDescriptor, e.2)
      | none =>
        (num.find? (fun e => num.any (fun g =>
          (g.2 != e.2 && overlaps (out e.1) (out g.1)) || (ins g.1).any (overlaps (out e.1))))).map (fun e => (stBadDescriptor, e.2))

/-- The key store holds the key of a descriptor (R477). -/
def State.keyLoaded (s : State) (d f addr : Nat) (desc : List Byte) : Bool :=
  match (s.rime d).key with
  | none => false
  | some k => k.tenancy == f && k.epoch == s.epoch (0xC0 + f) && k.addr == addr && k.desc == desc

/-- A key load or the first wave begins: from here on, writes to what it reads or writes are remembered. -/
def State.watchHbm (d : Nat) (s : State) : State :=
  s.modRime d (fun x => { x with logFrom := s.hbmLog.length, logPrev := s.hbmLog.length })

/-- Phase 4 begins. -/
def State.startWaves (d : Nat) (s : State) : State := (s.watchHbm d).set (Reg.RIME_STATUS_PHASE d) 4

/-- The next wave: its key switch overlapped the wave before, so that writes since that one's start meet what it reads. -/
def State.nextWave (d : Nat) (s : State) : State :=
  s.modRime d (fun x => { x with logFrom := s.hbmLog.length, logPrev := x.logFrom })

/-- HBM as a reader of a range finds it that others wrote while it read: the bytes they wrote are free. -/
def State.mixed (s : State) (log : List (Nat × Nat)) (x : Nat × Nat) : State :=
  (log.filter (overlaps x)).foldl (fun s w => (s.hbmWrite w.1 (Config.freeBytes s.free w.2).toList).draw) s

/-- Phase 2 of a command: what it reads, its checks, and the phase that follows. -/
def State.rimeCheck (d f r : Nat) (c : RingCmd) (s : State) : State :=
  let addr := leAt c.desc 32 8
  let desc := s.hbmRead addr 64
  let list := leAt c.desc 40 8
  let count := leAt c.desc 10 2
  let bytes := s.hbmRead list (128 * count)
  let ops := (List.range count).map (opEntry bytes)
  match s.poisonIn [(addr, 64), (list, 128 * count)] with
  | some w => s.rimePoison d w
  | none =>
    match s.precheck f c.op desc ops with
    | some (st, i) => s.rimeEnd d st (if c.op = 0x50 then 0 else 2 ^ 32 * i)
    | none =>
      match s.poisonIn (ops.flatMap (fun e => (opIns e).map (fun a => (a, 64)))) with
      | some w => s.rimePoison d w
      | none =>
        let heads := ops.map (fun e => (opIns e).map (fun a =>
          let h := s.hbmRead a 4
          leAt h 2 2 + 2 ^ 16 * (leAt h 1 1 % 2)))
        let s1 := (s.modRime d (fun x => { x with desc := desc, ops := bytes, heads := heads, written := 0, warned := none })).modCmd
          f r c.idx (fun c => { c with start := s.tick })
        if c.op = 0x50 ∨ (c.op = 0x51 ∧ !s.keyLoaded d f addr desc) then ((s1.emptyStore d).watchHbm d).set (Reg.RIME_STATUS_PHASE d) 3
        else s1.startWaves d

/-- RIME_COMMAND_START (R476): an idle engine starts its next command: with SEN, by a TAKE of its start token; once the token is there,
or without one, by the pre-check. A sleeping engine is woken first (R486); an engine at Run-idle waits for the slew grant of its full rate
(R52). -/
def execRimeCommandStart (die : Fin 4) (s : State) : Res :=
  let d := die.val
  let x := s.rime d
  match x.active, x.queue with
  | none, (f, r, idx) :: rest =>
    if s.domState (68 + d) ≠ 0 then .next (s.wakeDomain (68 + d))
    else match s.rateUp (68 + d) with
    | (false, s) => .next s
    | (true, s) => match s.cmd f r idx with
    | none => .next ((s.modRime d (fun x => { x with queue := rest })).syncRime d)
    | some c =>
      let s1 := (s.modRime d (fun x => { x with active := some (f, r, idx), queue := rest, written := 0, warned := none })).syncRime d
      if bitAt (leAt c.desc 9 1) 0 then
        let p : Iso :=
          { kind := .take, pool := true, queue := leAt c.desc 12 2, tile := 64 + d, src := .rime d, tenancy := f
            count := leAt c.desc 16 3, epoch := s.heldEpoch (0xC0 + f) }
        .next (((s1.set (Reg.RIME_STATUS_PHASE d) 1).sendIso p).modRime d
          (fun x => { x with waiting := true, waitStart := s.tick }))
      else .next ((s1.set (Reg.RIME_STATUS_PHASE d) 2).rimeCheck d f r c)
  | some (f, r, idx), _ =>
    if s.get (Reg.RIME_STATUS_PHASE d) = 1 ∧ !x.waiting then
      match s.cmd f r idx with
      | none => .next (s.rimeAbandon d)
      | some c => .next ((s.set (Reg.RIME_STATUS_PHASE d) 2).rimeCheck d f r c)
    else .next s
  | none, [] => .next s

/-- RIME_KEY_LOAD_DONE (R478): the BSK is in the key store under the command's tag; a byte of it that was written meanwhile is free. RKEYLOAD is
done; the waves of RREFRESH begin. -/
def execRimeKeyLoadDone (die : Fin 4) (s : State) : Res :=
  let d := die.val
  let x := s.rime d
  match x.active with
  | none => .next s
  | some (f, r, idx) =>
    match s.cmd f r idx with
    | none => .next s
    | some c =>
      if s.get (Reg.RIME_STATUS_PHASE d) ≠ 3 ∨ x.owes.isSome then .next s
      else
        let set := leAt x.desc 0 1
        let a := leAt x.desc 8 8
        let n := (rimeSet set).bskBytes
        match s.poisonIn [(a, n)] with
        | some w => .next (s.rimePoison d w)
        | none =>
          let addr := leAt c.desc 32 8
          let found := s.mixed (s.hbmLog.drop x.logFrom) (a, n)
          let cells := (found.hbm.filter (fun e => a ≤ e.1 && e.1 < a + n)).map (fun e => (e.1 - a, e.2))
          let s1 := (((({ s with free := found.free } : State).modRime d (fun x => { x with
            key := some { tenancy := f, epoch := s.epoch (0xC0 + f), addr := addr, desc := x.desc, bsk := cells } })).set
            (Reg.RIME_KEY_KEYDESC d) addr).set (Reg.RIME_KEY_SET d) set).set (Reg.RIME_KEY_VALID d) 1 |>.bump (Reg.RIME_WORK_KEYLOADS d) 1
          if c.op = 0x50 then .next (s1.rimeFinish d f c n) else .next (s1.startWaves d)

/-! ### Waves -/

/-- Words of the linear combination of an op (R472). -/
def State.combine (s : State) (x : RimeSet) (e : List Byte) : List Nat :=
  (List.range (x.size + 1)).map (fun c =>
    w32 ((List.range (opNin e)).foldl (fun (n : Int) i => n + opW e i * memNat ramByte s.hbm (opIn e i + 64 + 4 * c) 4)
      (if c = x.size then (opConst e : Int) else 0)))

/-- What an op reads in a wave. -/
def opReads (op : Nat) (x : RimeSet) (desc e : List Byte) : List (Nat × Nat) :=
  (opIns e).map (fun a => (a, x.ctBytes)) ++ if op = 0x51 then [(opLut e, x.lutBytes), (leAt desc 16 8, x.kskBytes)] else []

/-- DTRACK and D_L of an op from its inputs' headers (R481). -/
def opDist (e : List Byte) (heads : List Nat) : Bool × Nat :=
  (heads.all (fun h => bitAt h 16),
   min 65535 ((heads.zip (List.range heads.length)).foldl (fun n h => n + (opW e h.2).natAbs * (h.1 % 65536)) 0))

/-- The output of an op: header, body, padding (R467, R472, R481). -/
def State.opBytes (s : State) (op : Nat) (x : RimeSet) (desc : List Byte) (bsk : List Host.Cell) (e : List Byte) (heads : List Nat) : List Byte :=
  let c := s.combine x e
  let words := if op = 0x52 then c
    else refresh x (fun i j m => memNat ramByte s.hbm (leAt desc 16 8 + 4 * ((x.n + 1) * (i * x.lK + j) + m)) 4)
      (fun i r poly => (List.range x.size).map (fun k => (memNat 0 bsk (4 * (((i * (2 * x.lB) + r) * 2 + poly) * x.size + k)) 4 : Int)))
      (fun m => memNat ramByte s.hbm (opLut e + 4 * m) 4) c
  let (track, dl) := opDist e heads
  let dist := if !track then 0 else if op = 0x52 then dl else 1
  let body := words.flatMap (fun w => leBytes 4 w)
  [BitVec.ofNat 8 (leAt desc 0 1), BitVec.ofNat 8 (b2n track)] ++ leBytes 2 dist ++ leBytes 4 (leAt desc 4 4) ++ zeros 56 ++ body ++
    zeros (x.ctBytes - 64 - body.length)

/-- One op of a wave is written whole. Where another write met its inputs while they were read, its output is unpredictable; where another
write met its output, the bytes written by both are (R486). `log` are the writes since the wave began, `read` those since its inputs could be
read. -/
def State.writeOp (d i op : Nat) (bytes : List Byte) (log read : List (Nat × Nat)) (s : State) : State :=
  let x := s.rime d
  let e := opEntry x.ops i
  let set := rimeSet (leAt x.desc 0 1)
  let free := (Config.freeBytes s.free set.ctBytes).toList
  let spoiled := read.any (fun w => (opReads op set x.desc e).any (overlaps w))
  let out := opOut e
  let bs := if spoiled then free
    else (bytes.zip (free.zip (List.range set.ctBytes))).map (fun b =>
      if log.any (fun w => w.1 ≤ out + b.2.2 && out + b.2.2 < w.1 + w.2) then b.2.1 else b.1)
  let (track, dl) := opDist e (x.heads.getD i [])
  let dmax := leAt x.desc 2 2
  let warns := track && dmax != 0 && dl > dmax
  let s1 := (s.draw.hbmWrite out bs).bump (if op = 0x51 then Reg.RIME_COUNT_REFRESHES d else Reg.RIME_WORK_LINEAR d) 1
  let s2 : State := { s1 with poison := spClear (fun w => overlaps (64 * w, 64) (out, set.ctBytes)) s1.poison }
  let s3 := s2.modRime d (fun x => { x with written := x.written + 1, warned := if warns then some (x.warned.getD i) else x.warned })
  if warns then
    (match x.active with
     | some (f, r, idx) => (s3.bump (Reg.RIME_COUNT_WARNS d) 1).modCmd f r idx (fun c => { c with warned := true })
     | none => s3)
  else s3

/-- What ECC found in the words of HBM that a wave read (R339, R476): a corrected word marks the command, an uncorrectable one is
poisoned. -/
def State.rimeMemEcc (d : Nat) (mem : Option (Nat × Secded)) (reads : List (Nat × Nat)) (s : State) : State :=
  match mem with
  | none => s
  | some (w, ecc) =>
    if !reads.any (overlaps (64 * w, 64)) then s
    else
      let k := (s.hbmPlace (64 * w)).1
      match ecc with
      | .clean => s
      | .corrected =>
        (match (s.rime d).active with
         | some (f, r, idx) => (s.memCorrected k w).modCmd f r idx (fun c => { c with corrected := true })
         | none => s)
      | .uncorrectable => if s.poisoned w then s else s.memUncorrected k w 1 2

/-- The SRAM_ECC record of a Rime engine's store (R537). -/
def State.rimeEccEvent (d cls status : Nat) (s : State) : State :=
  let e : EvRec := { kind := 0x06, unit := 0x10 + d, tenancy := s.rimeTen d, cls := cls, status := status, body := [0xFF, 3] }
  if cls = 1 then s.logCorrected 0x0603 e else s.logEvent e

/-- A wave of 16 ops ends (R476 phase 4). -/
def State.rimeWave (d f r : Nat) (c : RingCmd) (mem : Option (Nat × Secded)) (s : State) : State :=
  let x := s.rime d
  let set := rimeSet (leAt x.desc 0 1)
  let count := x.ops.length / 128
  let now := (List.range (min 16 (count - x.written))).map (· + x.written)
  let reads := now.flatMap (fun i => opReads c.op set x.desc (opEntry x.ops i))
  let s1 := s.rimeMemEcc d mem reads
  match s1.poisonIn reads with
  | some w => s1.rimePoison d w
  | none =>
    let bsk := (x.key.map (·.bsk)).getD []
    let outs := now.map (fun i => (i, s1.opBytes c.op set x.desc bsk (opEntry x.ops i) (x.heads.getD i [])))
    let log := s1.hbmLog.drop x.logFrom
    let read := s1.hbmLog.drop x.logPrev
    let s2 := (outs.foldl (fun s o => s.writeOp d o.1 c.op o.2 log read) s1).bump (Reg.RIME_WORK_WAVES d) 1
    if x.written + now.length ≥ count then
      s2.rimeFinish d f ((s2.cmd f r c.idx).getD c) (s2.rimeResult (f, r, c.idx))
    else s2.nextWave d

/-- RIME_WAVE_DONE (R476, R478, R481, R538 row 6): a wave finishes and its outputs are written; after the last one the token is applied and the
command completes. `ecc` is what the key store and the buffers found, `mem` a word of HBM with what its check found. -/
def execRimeWaveDone (die : Fin 4) (ecc : Secded) (mem : Option (Nat × Secded)) (s : State) : Res :=
  let d := die.val
  match (s.rime d).active with
  | none => .next s
  | some (f, r, idx) =>
    match s.cmd f r idx with
    | none => .next s
    | some c =>
      if s.get (Reg.RIME_STATUS_PHASE d) ≠ 4 ∨ (s.rime d).owes.isSome then .next s
      else match ecc with
      | .clean => .next (s.rimeWave d f r c mem)
      | .corrected =>
        .next ((((s.bump (Reg.RIME_ECC_CORR d) 1).rimeEccEvent d 1 stOkCorrected).modCmd f r idx
          (fun c => { c with corrected := true })).rimeWave d f r c mem)
      | .uncorrectable =>
        let s1 := ((s.bump (Reg.RIME_ECC_UNCORR d) 1).rimeEccEvent d 2 stUncorrected).emptyStore d
        let s2 := if s1.get (Reg.RIME_ECC_UNCORR d) = 2 then s1.excludeLater (0x10 + d) 6 false else s1
        .next (s2.rimeEnd d stUncorrected (s.rimeResult (f, r, idx)))

end Sys2Proof.Machine
end

