-- ==== Sys2Proof/Machine/StartOps.lean ====
section
/-! DEFINITION. The start of bring-up (R94, R154, R158), the end of service by a restart or a commanded power-off (R63, R154), and the
answers of the setup mailbox (R506). -/

namespace Sys2Proof.Machine

/-- What a start without a valid boot, settings or retirement record reports after Ready: a record of kind RWL that names the register kept
there (DESIGN CHOICE: the spec asks for an event and names no kind). -/
def State.missingRecords (s : State) : List EvRec :=
  let of := fun (kind off : Nat) =>
    if (s.store.recAt kind).2 = 0 then [({ kind := 0x01, body := leBytes 4 off ++ [0x1F] } : EvRec)] else []
  (of 1 Reg.CS_BOOT_ACTIVE.off ++ of 3 Reg.PWR_RESTART_AUTO.off ++ of 4 Reg.BRU_RETIRED_T_TILES.off).filter (fun e => !s.boot.events.contains e)

/-- Stage 0 begins: the time base starts again (R392), and R149 counts from here where PERST# is deasserted already.
Whether every training record is discarded is settled now (R144). -/
def State.startStage0 (s : State) : State :=
  let s1 := (((s.unset [Reg.CS_BOOT_RECOVERY, Reg.CS_BOOT_VERA, Reg.CS_BOOT_VERB, Reg.CS_BOOT_PLDMUPD]).set Reg.BRU_STATUS_STAGE 0).set
    Reg.BRU_STATUS_RUNNING 1)
  { s1 with
    phase := .bringUp, tick := 0
    boot := { s1.boot with
      stageAt := 0, zeroAt := 0, asked := false, afterStop := false, offAsked := false, events := s1.boot.events ++ s1.missingRecords, cold := [], restored := [], trained := [], rewrite := []
      allCold := s1.on Reg.BRU_CTL_FORCECOLD || s1.get Reg.PWR_THERMAL_STATE == 4
      perstAt := if s1.pins.perst then none else some 0, enumerated := false } }

/-- The die's operation in progress completes, and no further sector of a slot erase is erased (R566). -/
def State.endStore (s : State) : State :=
  let t := s.store
  let wipe := fun (n : Nat) (cells : List Host.Cell) => spClear (fun a => a / 65536 == n) cells
  let c1 := match t.op with
    | some (2, a, _, d) => memWrite erasedByte t.cells a d
    | some (3, a, _, _) => wipe (a / 65536) t.cells
    | _ => t.cells
  let c2 := match t.erase with
    | some (slot, k) => if t.op.isSome then c1 else wipe (384 * slot + k) c1
    | none => c1
  { s with store := { t with cells := c2, op := none, erase := none } }

/-- DOWN words have gone out (R370), every switch is open and bring-up begins again at stage 0, without a new bank charge (R154). -/
def State.restartNow (s : State) : State :=
  let band := s.get Reg.PWR_IN_STATUS_BAND
  let s0 := (s.sendDowns 1).blowStarted.endStore.loseAll
  ({ s0 with boot := { s0.boot with waited := 0 } } : State).set Reg.PWR_IN_STATUS_BAND band |>.startStage0

/-- DOWN words have gone out (R370), every switch is open and the module is off (R63, R159), with ALERT# and THERMTRIP# released (R95). -/
def State.powerOffNow (s : State) : State :=
  let s1 := (s.sendDowns 1).blowStarted.endStore.loseAll
  { s1 with phase := .off, pins := { s1.pins with thermtrip := false } }

/-- The word of MC_EPOCH of a unit. -/
def State.epochWord (s : State) (u : Nat) : Nat :=
  s.wordOf [Reg.MC_EPOCH_EPOCH u, Reg.MC_EPOCH_QSTATE u, Reg.MC_EPOCH_REASON u, Reg.MC_EPOCH_LASTTICK u]

/-- A response of the setup mailbox is written (R506), and announced with IRQEN. -/
def State.mbxAnswer (status tag : Nat) (payload : List Byte) (s : State) : State :=
  let bytes := [BitVec.ofNat 8 status, 0] ++ leBytes 2 tag ++ leBytes 4 payload.length ++ payload
  let s1 := (List.range 32).foldl (fun s i => s.set (Reg.MC_MBX_RSP_DATA i) (leAt bytes (8 * i) 8)) s
  let s2 := (((s1.set Reg.MC_MBX_STATUS_BUSY 0).set Reg.MC_MBX_STATUS_DONE 1).set Reg.MC_MBX_STATUS_STATUS status).set
    Reg.MC_MBX_STATUS_TAG tag
  let s3 : State := { s2 with mbx := none }
  if s3.on Reg.MC_MBX_CTL_IRQEN then s3.sendMsix 0 0 else s3

/-- The request that waits for the end of a quiesce or of a step is answered. -/
def State.mbxDone (status : Nat) (s : State) : State :=
  match s.mbx with
  | none => s
  | some (op, tag, u) =>
    let payload := if status ≠ stOK then []
      else if op = 0x20 then leBytes 8 (s.epochWord u)
      else if op = 0x10 then leBytes 8 (s.wordOf (Reg.row_TN_STATE.fields u 0)) else []
    s.mbxAnswer status tag payload

end Sys2Proof.Machine
end

