-- ==== Sys2Proof/Machine/Quiesce.lean ====
section
/-! DEFINITION. The quiesce (R496 to R502): fence-in, drain, drained, reset, release or hold; its bounds; the audit of the unit epochs
(R504). -/

namespace Sys2Proof.Machine

/-- The unit has power: tenancies are no domain's. -/
def State.unitPowered (s : State) (u : Nat) : Bool := u ≥ 0xC0 || s.domState (unitDom u) != 5

/-- A tile or a Rime engine of a pinned tenancy is quiesced: its schedule ends, its other LAUNCHes with it, and the tenancy's other tiles stop with
code 0x25 (R499). -/
def State.endSchedule (u : Nat) (s : State) : State :=
  let t := if 0x40 ≤ u ∧ u < 0x80 then s.tileTen (u - 0x40) else if 0x10 ≤ u ∧ u < 0x14 then s.rimeTen (u - 0x10) else 31
  if t ≤ 16 ∧ s.tnPinned t then
    let s1 := s.cutAll (fun f c => f == t && c.op == 0x02 && !(0x40 ≤ u && u < 0x80 && bitAt c.place (u - 0x40))) 0x25 stAbortedEpoch
    (bitList 64 (s.get (Reg.TN_TILES_MAP t))).foldl (fun s h => if 0x40 + h = u then s else s.stopOne 0x25 stAbortedEpoch h) s1
  else s

/-- A unit is fenced in (R496 step 1): the next epoch is committed and sent; a tile raises the EPOCH exception, one in L4 loses its
context record (R499); a Rime engine drops its commands (R488), and one that ran a command reads PHASE 5, stopping, until its reset. A held unit stays held (R518). A unit without power takes no part. -/
def State.fenceUnit (q : Quiesce) (u : Nat) (s : State) : State :=
  if !s.unitPowered u then s
  else
    let s1 := (s.commitEpoch u q.reason).sendEpoch u 0 q.reason q.tenancy
    let s2 := if s1.unitHeld u then s1 else s1.set (Reg.MC_EPOCH_QSTATE u) 1
    if 0x40 ≤ u ∧ u < 0x80 then
      let g := u - 0x40
      let s3 := (if s2.domState g = 4 then s2.modTile g (fun t => { t with saved := false }) else s2).endSchedule u
      if s3.tileBusy g then s3.raiseExc g 0x23 stAbortedEpoch 0xF 0 else s3
    else if 0x10 ≤ u ∧ u < 0x14 then
      let s3 := (s2.endSchedule u).cutUsers [u] stAbortedEpoch
      if (s2.rime (u - 0x10)).active.isSome then s3.set (Reg.RIME_STATUS_PHASE (u - 0x10)) 5 else s3
    else s2

/-- QUIESCE_FENCE (R494, R496, R499, R500, R505): the quiesce that waits for `unit` begins, once no other holds a unit of it and 20 µs have
passed since each epoch's last change. Sleeping units are woken first. Every unit is fenced, in ascending order. -/
def execQuiesceFence (unit : BitVec 8) (s : State) : Res :=
  match s.quiesceAt .waiting unit.toNat with
  | none => .next s
  | some q =>
    let us := (List.range 256).filter (fun u => q.units.contains u)
    let low := us.filter (fun u => u < 0xC0)
    if us.any s.inQuiesce ∨ us.any (fun u => s.unitPowered u && !s.epochFree u) then .next s
    else if low.any (fun u => 1 ≤ s.domState (unitDom u) && s.domState (unitDom u) ≤ 3) then
      .next (low.foldl (fun s u =>
        if 1 ≤ s.domState (unitDom u) ∧ s.domState (unitDom u) ≤ 3 then s.wakeDomain (unitDom u) else s) s)
    else if low.any (fun u => s.domState (unitDom u) == 6) then .next s
    else
      let s1 := s.setQuiesce q { q with phase := .fenced, start := s.tick }
      .next (us.foldl (fun s u => s.fenceUnit q u) s1)

/-- Commands that end with a tenancy's STOP (R442): LAUNCH, copies, SIGNALQ and WAITQ, Rime commands. -/
def stopsWith (op : Nat) : Bool := op == 0x02 || op == 0x12 || op == 0x13 || op == 0x20 || op == 0x21 || 0x50 ≤ op

/-- What a receiving link engine makes of a quiesce of a unit that has not served its requests (R498): a READ is answered with an RDATA of
LEN 0, and the descriptor of a WRITE keeps its DACK and its tokens. -/
def State.abortServed (u : Nat) (s : State) (j : Nat) : State :=
  let lost := (s.link j).served.filter (fun w => w.dest == u && !s.flits.any (fun f =>
    f.typ == w.typ && f.dest == u && f.src == w.src && f.remote == w.remote && f.addr == w.addr && f.epoch == w.epoch))
  if lost.isEmpty then s
  else
    let s1 := s.modLink j (fun l => { l with
      served := l.served.filter (fun w => !lost.contains w)
      q2 := l.q2 ++ lost.filterMap (fun w => if w.typ = .read then w.remote.map (fun r => s.linkRdata j { w with data := [] } r) else none)
      rx := l.rx.map (fun d =>
        let n := (lost.filter (fun w => decide (w.typ = .write) && w.ch == d.ch && w.remote.any (fun r =>
          r.mod == d.smod && r.tile == d.stile && r.dseq == d.dseq))).length
        if n = 0 then d else { d with owed := d.owed - n, aborted := true }) })
    s1.settleRx j (s1.link j).rx.length

/-- The drained phase of a unit (R496 step 3): EPOCH phase 1, and what its requesters make of it (R497, R498). For a tenancy that stops,
its unfinished commands end (R442); under a restart or a power-off every command does. -/
def State.drainUnit (q : Quiesce) (u : Nat) (s : State) : State :=
  if !s.unitPowered u then s
  else
    let s1 := (if s.unitHeld u then s else s.set (Reg.MC_EPOCH_QSTATE u) 3).sendEpoch u 1 q.reason q.tenancy
    if u < 0xC0 then (List.range 64).foldl (State.abortServed u) (s1.abortRequesters u)
    else if q.reason = 1 ∨ q.reason = 2 then s1.cutAll (fun f c => f == u - 0xC0 && stopsWith c.op) 0x23 stAbortedEpoch
    else s1

/-- QUIESCE_DRAIN_END (R496 steps 2 and 3): every requester holds the new epochs, and everything that the units emitted has been
accepted or discarded. -/
def execQuiesceDrainEnd (unit : BitVec 8) (s : State) : Res :=
  match s.quiesceAt .fenced unit.toNat with
  | none => .next s
  | some q =>
    let us := (List.range 256).filter (fun u => q.units.contains u)
    let told := !s.breeze.any (fun p => p.kind == .epoch && us.contains (bits p.beat1 0 8))
    if !told ∨ us.any (fun u => u < 0xC0 && s.emitting u) then .next s
    else
      let s1 := s.setQuiesce q { q with phase := .resetting, start := s.tick }
      let s2 := us.foldl (fun s u => s.drainUnit q u) s1
      .next (if q.reason = 6 ∨ q.reason = 7 then s2.cutAll (fun _ _ => true) 0x23 stAbortedEpoch else s2)

/-- What the reset of a unit clears (R501). -/
def State.resetUnit (u : Nat) (s : State) : State :=
  if u ≥ 0xC0 ∨ !s.unitPowered u then s
  else if 0x40 ≤ u ∧ u < 0x80 then if s.domState (u - 0x40) = 4 then s else s.resetTile (u - 0x40)
  else if 0x80 ≤ u then
    (if s.linkUp (u - 0x80) then (s.sendDown (u - 0x80) 4).linkToDown (u - 0x80) 0
     else if s.linkState (u - 0x80) = lnkTrain ∨ s.linkState (u - 0x80) = lnkQualify then s.linkToTrain (u - 0x80) else s)
  else if 0x08 ≤ u ∧ u < 0x10 then
    { s with hcq := s.hcq.setIfInBounds (u - 8) []
             hbmRow := spClear (fun k => k / 32 == u - 8) s.hbmRow
             hbmAhead := spClear (fun k => k / 32 == u - 8) s.hbmAhead }
  else if 0x10 ≤ u ∧ u < 0x14 then (s.scrubRime (u - 0x10)).rimeRest (u - 0x10)
  else if 0x04 ≤ u ∧ u < 0x08 then
    { s with
      flits := s.flits.filter (fun f => match f.loc with | .router g _ => g / 16 != u - 4 | _ => true)
      breeze := s.breeze.filter (fun p => !(p.dest == 0x0C + u || (0x40 ≤ p.dest && p.dest < 0x80 && (p.dest - 0x40) / 16 == u - 4)))
      isobar := s.isobar.filter (fun p => p.pool || p.tile / 16 != u - 4) }
  else if u = 0x18 then
    { s with flits := s.flits.filter (fun f => match f.loc with | .quadrant _ _ => false | _ => true) }
  else if u = 0x19 then { s with isobar := s.isobar.filter (fun p => !p.pool), waiters := [], touched := [] }
  else s

/-- A scrub begins (R445). -/
def State.beginScrub (u : Nat) (s : State) : State :=
  if 0x40 ≤ u ∧ u < 0x80 then
    (s.scrubTile (u - 0x40)).modTile (u - 0x40) (fun t => { t with scrubAt := some s.tick })
  else if 0x10 ≤ u ∧ u < 0x14 then s.scrubRime (u - 0x10) else s

/-- The unit has a domain of its own (R96): tiles, Rime engines, HCs, compute-die fabrics. -/
def ownDomain (u : Nat) : Bool := (0x04 ≤ u && u < 0x14) || (0x40 ≤ u && u < 0x80)

/-- A unit is released, or held (R496 step 5, R508). A held link lies disabled. The domain of a unit that a containment event holds enters Off
(R104). -/
def State.releaseUnit (q : Quiesce) (u : Nat) (s : State) : State :=
  let hold := u < 0xC0 && (q.hold || s.unitHeld u)
  let s1 := s.set (Reg.MC_EPOCH_QSTATE u) (if hold then 4 else 0)
  let s2 := if hold ∨ !s1.unitPowered u then s1 else s1.sendEpoch u 2 q.reason q.tenancy
  let s3 := s2.logEvent { kind := 0x0E, unit := u, tenancy := q.tenancy
                          body := [BitVec.ofNat 8 u, BitVec.ofNat 8 q.reason] ++ leBytes 2 (s2.epoch u) }
  if hold ∧ q.reason = 5 ∧ ownDomain u then (s3.switchOff (unitDom u)).set (Reg.MC_EPOCH_QSTATE u) 4
  else if hold ∧ 0x80 ≤ u ∧ s3.linkState (u - 0x80) ≠ lnkDisabled then s3.linkSettle (u - 0x80) else s3

/-- What waited for the end of a quiesce goes on. -/
def State.afterQuiesce (q : Quiesce) (s : State) : State :=
  match q.whom with
  | .mailbox => s.mbxDone stOK
  | .restart => (s.mbxDone stOK).restartNow
  | .powerOff => (s.mbxDone stOK).powerOffNow
  | _ => s

/-- The end of a quiesce: its units are released together (R500); a unit taken from its tenancy is scrubbed (R440). -/
def State.endQuiesce (q : Quiesce) (us : List Nat) (s : State) : State :=
  let s1 := us.foldl (fun s u => s.releaseUnit q u) { s with quiesces := s.quiesces.erase q }
  let s2 := if q.reason = 3 then us.foldl (fun s u => s.beginScrub u) s1 else s1
  (s2.bump Reg.MC_STATUS_QUIESCES 1).afterQuiesce q

/-- QUIESCE_RESET_DONE (R501, R496 step 5): the longest reset of the set is over; the units are released, or held. -/
def execQuiesceResetDone (unit : BitVec 8) (s : State) : Res :=
  match s.quiesceAt .resetting unit.toNat with
  | none => .next s
  | some q =>
    let us := (List.range 256).filter (fun u => q.units.contains u)
    let t := (us.filter s.unitPowered).foldl (fun m u => max m (resetTime u)) 0
    if s.since q.start < t then .next s
    else .next ((us.foldl (fun s u => s.resetUnit u) s).endQuiesce q us)

/-- QUIESCE_DRAIN_TIMEOUT: the drain has not ended within 50 µs, or the reset within twice its time: the unit's switch opens, it is held,
its commands end with INTERNAL, as a unit-class event. The other units of the set go on. -/
def execQuiesceDrainTimeout (unit : BitVec 8) (s : State) : Res :=
  let u := unit.toNat
  let late := fun (q : Quiesce) =>
    (q.phase == .fenced && s.since q.start > 50000) || (q.phase == .resetting && s.since q.start > 2 * resetTime u)
  match s.quiesces.find? (fun q => q.phase != .waiting && q.units.contains u && late q) with
  | none => .next s
  | some q =>
    if u ≥ 0xC0 then .next s
    else
      let s1 := (s.classEvent { kind := 0x0E, cls := 3, status := stInternal, unit := u
                                body := [unit, BitVec.ofNat 8 q.reason] ++ leBytes 2 (s.epoch u) }).cutUsers [u] stInternal
      let s2 := (((s1.clearMap u).switchOff (unitDom u)).syncDomMap.set (Reg.MC_EPOCH_QSTATE u) 4)
      let new := if s2.excluded.contains u then [] else [u]
      let s3 : State := { s2 with excluded := s2.excluded ++ new, heldEv := s2.heldEv ++ new }
      let rest := q.units.filter (· != u)
      let s4 := s3.setQuiesce q { q with units := rest }
      .next (if rest.isEmpty then s4.endQuiesce { q with units := [] } [] else s4)

/-- EPOCH_AUDIT (R504): each powered unit whose own epoch is not the table's, or that reports itself in service against the table
(`wrong` lists those found so), is recorded as a unit-class event and quiesced with reason AUDIT. -/
def execEpochAudit (wrong : List (BitVec 8)) (s : State) : Res :=
  let us := (List.range 0xC0).filter (fun u => isUnit u && s.unitPowered u && s.epoch u != 0 &&
    (s.ownEpoch u != s.epoch u || wrong.any (fun w => w.toNat == u)) && !s.quiesces.any (fun q => q.units.contains u))
  if s.phase ≠ .ready then .next s
  else .next (us.foldl (fun s u =>
    ((s.classEvent { kind := 0x0E, cls := 3, status := stInternal, unit := u
                     body := [BitVec.ofNat 8 u, 8] ++ leBytes 2 (s.epoch u) }).bump Reg.MC_STATUS_AUDITS 1).askQuiesce
      { units := [u], reason := 8 }) s)

end Sys2Proof.Machine
end

