-- ==== Sys2Proof/Machine/Tenancies.lean ====
section
/-! DEFINITION. Tenancies (chapter 14): CREATE, START, STOP, DESTROY, the assignment writes, the scrub, the isolation claim, the buffer
query. -/

namespace Sys2Proof.Machine

/-! ### Requests -/

/-- LASTSTATUS of a tenancy. -/
def State.lastStatus (t st : Nat) (s : State) : State := s.set (Reg.TN_STATE_LASTSTATUS t) st

/-- A TENANCY record: step 1 CREATE, 2 START, 3 STOP, 4 DESTROY with its sub-step (R537). -/
def State.tenancyEvent (t step sub : Nat) (s : State) : State :=
  s.logEvent { kind := 0x0F, tenancy := t, unit := 0xC0 + t
               body := [BitVec.ofNat 8 t, BitVec.ofNat 8 step, BitVec.ofNat 8 sub] }

/-- A request that the tenancy's state does not allow is ignored and logged (R438). -/
def State.refuseRequest (func t op : Nat) (s : State) : State :=
  (s.logRefused (Reg.TN_CTL_OP t).off func op).lastStatus t stNoResource

/-- CREATE (R439): a new key, the block at its reset values, DEBUG, STOPPED. -/
def State.createTen (func t debug : Nat) (s : State) : State :=
  if debug = 3 then s.logRefused (Reg.TN_CTL_OP t).off func (1 + 16 * debug)
  else if s.tnState t ≠ 0 then s.refuseRequest func t (1 + 16 * debug)
  else
    let s1 := ((s.modTen t (fun _ => { key := some s.free })).draw).unsetRange (0x200000 + 0x10000 * t) (0x208000 + 0x10000 * t)
    let s2 := (s1.modEvRing (t + 1) (fun _ => {})).set (Reg.TN_STATE_DEBUG t) debug |>.set (Reg.TN_STATE_STATE t) 1
    (s2.giveEpoch (0xC0 + t) (max 1 (s.epoch (0xC0 + t)))).tenancyEvent t 1 0

/-- Conditions 1 to 3 of the isolation guarantee (R454). -/
def State.isoC1 (s : State) : Bool := ((List.range 17).filter (fun t => s.tnStarted t && !s.on (Reg.TN_CFG_MODE t))).length ≤ 1
def State.isoC2 (s : State) : Bool := !s.on Reg.PWR_BUDGET_XLEND
def State.ringsProtected (s : State) (t : Nat) : Bool :=
  (List.range 16).all (fun r => !s.on (Reg.RING_CTL_EN t r) || s.on (Reg.RING_CTL_IDEREQ t r))
def State.isoC3 (s : State) : Bool := (List.range 17).all (fun t => !s.tnStarted t || s.ringsProtected t)

/-- START would break a claimed condition (R455). -/
def State.breaksClaim (s : State) (t : Nat) : Bool :=
  s.on Reg.TN_ISO_CLAIMED &&
    ((!s.on (Reg.TN_CFG_MODE t) && (List.range 17).any (fun u => s.tnStarted u && !s.on (Reg.TN_CFG_MODE u))) || !s.ringsProtected t)

/-- START (R441): the checks in order; on success every RWL field of the tenancy becomes read-only. -/
def State.startTen (func t : Nat) (s : State) : State :=
  let h := s.get (Reg.TN_SAVE_HANDLE t)
  let tiles := popCount 64 (s.get (Reg.TN_TILES_MAP t))
  let start := ((s.set (Reg.TN_STATE_STATE t) 2).lastStatus t stOK).tenancyEvent t 2 0 |>.rebudget
  if s.tnState t ≠ 1 then s.refuseRequest func t 2
  else if tiles = 0 then s.lastStatus t stNoResource
  else if h ≠ 0 ∧ (s.handleCheck t h false).isSome then s.lastStatus t stStaleHandle
  else if h ≠ 0 ∧ (s.handleGrans h).length * 2 ^ 30 < 0x900000 * tiles then s.lastStatus t stNoResource
  else if s.breaksClaim t then ((s.logRefused (Reg.TN_CTL_OP t).off func 2).bump Reg.TN_ISO_REFUSED 1).lastStatus t stNoResource
  else start

/-- An ALLOC that is under way ends when its tenancy stops (R462). -/
def State.cutAllocs (t : Nat) (s : State) : State := s.cutAll (fun f c => f == t && c.op == 0x10) 0x23 stAbortedEpoch

/-- STOP (R442): every unit of the tenancy is quiesced, and its epoch advances. -/
def State.stopTen (func t : Nat) (s : State) : State :=
  if s.tnState t ≠ 2 then s.refuseRequest func t 3
  else
    (((s.set (Reg.TN_STATE_STATE t) 3).lastStatus t stOK).cutAllocs t).askQuiesce
      { units := s.tenancyUnits t ++ [0xC0 + t], reason := 1, tenancy := t, whom := .stop t }

/-- DESTROY (R443, R444): a started tenancy stops first; from here on no completion of its rings is written. TN0 is never
destroyed. -/
def State.destroyTen (func t : Nat) (s : State) : State :=
  if t = 0 ∨ (s.tnState t ≠ 1 ∧ s.tnState t ≠ 2) then s.refuseRequest func t 4
  else
    let s1 := (s.set (Reg.TN_STATE_STATE t) (if s.tnState t = 2 then 3 else 4)).lastStatus t stOK
    ((s1.modTen t (fun x => { x with destroying := true })).cutAllocs t).askQuiesce
      { units := s.tenancyUnits t ++ [0xC0 + t], reason := 2, tenancy := t, whom := .destroy t }

/-- A write of TN_CTL (R438, R459). -/
def State.writeTnCtl (func t op debug : Nat) (v : Word) (s : State) : State :=
  match op with
  | 1 => s.createTen func t debug
  | 2 => s.startTen func t
  | 3 => s.stopTen func t
  | 4 => s.destroyTen func t
  | _ => s.logRefused (Reg.TN_CTL_OP t).off func v.toNat

/-- CREATE. -/
def execCreate (t : Fin 17) (perm : BitVec 2) (s : State) : Res :=
  .next (s.whenReady (State.createTen 0 t.val perm.toNat))

/-- START. -/
def execStart (t : Fin 17) (s : State) : Res := .next (s.whenReady (State.startTen 0 t.val))

/-- STOP. -/
def execStop (t : Fin 17) (s : State) : Res := .next (s.whenReady (State.stopTen 0 t.val))

/-- DESTROY. -/
def execDestroy (t : Fin 17) (s : State) : Res := .next (s.whenReady (State.destroyTen 0 t.val))

/-! ### The end of a stop -/

/-- A slot entry belongs to a tenancy: SCHED and TENANCY. -/
def entryOf (t : Nat) (e : BitVec 32) : Bool := bitAt e.toNat 0 && bits e.toNat 1 5 == t

/-- Every slot entry of a tenancy returns to SCHED 0 (R322, R375). Refresh entries are no tenancy's. -/
def State.returnSlots (t : Nat) (s : State) : State :=
  { s with
    slotsJ := s.slotsJ.filter (fun e => !entryOf t e.2), slotsB := s.slotsB.filter (fun e => !entryOf t e.2)
    slotsM := s.slotsM.filter (fun e => !(entryOf t e.2 && bits e.2.toNat 11 2 != 1)), slotsL := s.slotsL.filter (fun e => !entryOf t e.2) }

/-- A tenancy is no longer pinned, and its share of the slew limit is free (R53, R128). -/
def State.unpin (t : Nat) (s : State) : State :=
  let ns := s.tenTiles t ++ (bitList 4 (s.get (Reg.TN_CFG_RIME t))).map (68 + ·)
  let s1 := ((s.set Reg.PWR_SLEW_SCHED (s.get Reg.PWR_SLEW_SCHED - (s.ten t).slew)).set (Reg.PWR_TNCAP_PINNED t) 0).set (Reg.TN_STATE_PINNED t) 0
  let s2 := ns.foldl (fun s n => s.set (Reg.PWR_DOM_STATE_PINNED n) 0) s1
  (s2.modTen t (fun x => { x with slew := 0, step := 0, sweep := .idle, borrowed := 0, excess := 0 })).retargetAll

/-- What STOP does once the quiesce is over (R442): slots and loans returned, twins ended, tiles in L3. -/
def State.finishStop (t : Nat) (s : State) : State :=
  let tiles := s.tenTiles t
  let s1 := (s.returnSlots t).unpin t
  let s2 : State := { s1 with twins := s1.twins.filter (fun w => !tiles.contains w.primary) }
  let s3 := ((s2.set (Reg.PWR_TNCAP_BORROWED t) 0).set (Reg.PWR_TNCAP_OVERCAP t) 0).set (Reg.TN_STATE_STATE t) 1
  let s4 := tiles.foldl (fun s g =>
    let st := s.autoDepth g 3
    let s1 := ((s.set (Reg.PWR_DOM_STATE_LENDING g) 0).set (Reg.PWR_DOM_STATE_BORROWING g) 0).set (Reg.PWR_DOM_STATE_ALLOW g) 0
    if st = 0 ∨ (st ≤ s.domState g ∧ s.domState g ≤ 5) then s1 else s1.enterSleep g st) s3
  (s4.tenancyEvent t 3 0).rebudget

/-- Every live handle of a tenancy is freed with its generation advanced, and its granules have no owner (R443 step 3). -/
def State.freeAll (t : Nat) (s : State) : State :=
  { s with
    handles := s.handles.map (fun h =>
      if h.2.live && h.2.owner == t then (h.1, { h.2 with live := false, grans := [], allocs := h.2.allocs + 1 }) else h)
    granules := s.granules.map (fun o => if o.toNat = t then 31 else o) }

/-- DESTROY's steps, each logged (R443). -/
def State.finishDestroy (t : Nat) (s : State) : State :=
  let units := (s.tenancyUnits t).filter s.unitPowered
  let s1 := (s.resetRings t).tenancyEvent t 4 1
  let s2 := (s1.modTen t (fun x => { x with key := none })).tenancyEvent t 4 2
  let s3 := (s2.freeAll t).tenancyEvent t 4 3
  let s4 := (units.foldl (fun s u => (s.beginScrub u).set (Reg.PWR_DOM_ID_OWNER (unitDom u)) 0x1F) s3).tenancyEvent t 4 4
  let s5 := ((s4.setRange t 0 0).set Reg.PWR_BUDGET_STATUS_ASSIGNED
    (s4.get Reg.PWR_BUDGET_STATUS_ASSIGNED - s4.get (Reg.PWR_TNCAP_CAP t))).set (Reg.PWR_TNCAP_CAP t) 0 |>.tenancyEvent t 4 5
  let s6 := (s5.newMap t).unsetRange (0x200000 + 0x10000 * t) (0x208000 + 0x10000 * t)
  ((s6.modTen t (fun _ => {})).modEvRing (t + 1) (fun _ => {})).tenancyEvent t 4 6

/-- The mailbox request that asked for a step of the tenancy is answered. -/
def State.answerStep (t : Nat) (s : State) : State :=
  match s.mbx with
  | some (op, _, u) => if op = 0x10 ∧ u = t then s.mbxDone stOK else s
  | none => s

/-- TENANCY_STOP_DONE (R442, R443): the quiesce of a tenancy that stops or is destroyed is over; STOP ends, and DESTROY goes on to its
own steps. -/
def execTenancyStopDone (t : Fin 17) (s : State) : Res :=
  let t := t.val
  if s.quiesces.any (fun q => q.units.contains (0xC0 + t) && (q.reason == 1 || q.reason == 2)) then .next s
  else if s.tnState t = 3 then
    let s1 := s.finishStop t
    if (s.ten t).destroying then .next (((s1.set (Reg.TN_STATE_STATE t) 4).finishDestroy t).answerStep t)
    else .next (s1.answerStep t)
  else if s.tnState t = 4 then .next ((s.finishDestroy t).answerStep t)
  else .next s

/-! ### Assignment (R440) -/

/-- An assignment write is refused: by the RWL code while the tenancy is started, with LASTSTATUS otherwise. -/
def State.refuseAssign (off func t : Nat) (v : Word) (s : State) : State :=
  if s.tnStarted t then s.logRefused off func v.toNat else (s.logRefused off func v.toNat).lastStatus t stNoResource

/-- A quiesce of the unit is asked for or runs. -/
def State.quiesceNames (s : State) (u : Nat) : Bool := s.quiesces.any (fun q => q.units.contains u)

/-- The tile cannot be assigned to the tenancy: absent, another's, or not clean yet (R440, R445). -/
def State.tileRefused (s : State) (t g : Nat) : Bool :=
  !s.tileMapped g || (s.tileTen g != t && (s.tileTen g != 31 || (s.tile g).scrubbing || s.quiesceNames (0x40 + g)))

/-- A write of TN_TILES[t]. -/
def State.writeTiles (func t : Nat) (part : Part) (v : Word) (s : State) : State :=
  let old := s.get (Reg.TN_TILES_MAP t)
  let new := partOf old part v
  if new ≠ old ∧ (s.tnState t ≠ 1 ∨ (bitList 64 new).any (s.tileRefused t)) then
    s.refuseAssign (Reg.TN_TILES_MAP t).off func t v
  else if s.tnState t ≠ 1 then s
  else if new = old then s.lastStatus t stOK
  else
    let s1 := s.set (Reg.TN_TILES_MAP t) new
    let s2 := (List.range 64).foldl (fun s g =>
      if bitAt new g = bitAt old g then s
      else if bitAt new g then (s.set (Reg.TILE_STATE_TENANCY g) t).set (Reg.PWR_DOM_ID_OWNER g) t
      else (s.set (Reg.PWR_DOM_ID_OWNER g) 0x1F).askQuiesce { units := [0x40 + g], reason := 3, tenancy := t }) s1
    ((s2.newMap t).lastStatus t stOK).rebudget

/-- TN_TILES_WRITE. -/
def execTnTilesWrite (t : Fin 17) (part : Part) (v : Word) (s : State) : Res := .next (s.whenReady (State.writeTiles 0 t.val part v))

/-- A Rime engine holds a command of the tenancy (R486). -/
def State.rimeHolds (s : State) (t d : Nat) : Bool := ((s.rime d).active.toList ++ (s.rime d).queue).any (fun e => e.1 == t)

/-- The Rime engine cannot be assigned to the tenancy. -/
def State.rimeRefusedTo (s : State) (t d : Nat) : Bool :=
  s.excluded.contains (0x10 + d) || (s.rimeTen d != t && (s.rimeTen d != 31 || s.quiesceNames (0x10 + d)))

/-- A write of TN_CFG[t] (R440, R486). -/
def State.writeTnCfg (func t : Nat) (part : Part) (v : Word) (s : State) : State :=
  let fs := Reg.row_TN_CFG.fields t 0
  let new := partOf (s.wordOf fs) part v
  let old := s.get (Reg.TN_CFG_RIME t)
  let rime := bits new 10 4
  let moved := fun (f : Fld) => bits new f.lo f.width != s.get f
  let bad := (moved (Reg.TN_CFG_GRANQ t) && (bits new 0 9 > 256 || bits new 0 9 < s.granCount t)) ||
    (moved (Reg.TN_CFG_BUFQ t) && bits new 16 12 < s.liveHandles t) ||
    (moved (Reg.TN_CFG_RIME t) && (bitList 4 rime).any (s.rimeRefusedTo t)) || (bitList 4 old).any (fun d => !bitAt rime d && s.rimeHolds t d)
  if s.changesRwl fs part v ∧ (s.tnState t ≠ 1 ∨ bad) then s.refuseAssign (Reg.TN_CFG_GRANQ t).off func t v
  else if s.tnState t ≠ 1 then s
  else
    let s1 := s.putWord fs part v
    let s2 := (List.range 4).foldl (fun s d =>
      if bitAt rime d = bitAt old d then s
      else if bitAt rime d then (s.set (Reg.RIME_STATUS_OWNER d) t).set (Reg.PWR_DOM_ID_OWNER (68 + d)) t
      else (s.set (Reg.PWR_DOM_ID_OWNER (68 + d)) 0x1F).askQuiesce { units := [0x10 + d], reason := 3, tenancy := t }) s1
    (s2.lastStatus t stOK).rebudget

/-- TN_CFG_WRITE. -/
def execTnCfgWrite (t : Fin 17) (part : Part) (v : Word) (s : State) : Res := .next (s.whenReady (State.writeTnCfg 0 t.val part v))

/-- A write of TN_SLOTQ[t]: a value above its range is ignored and logged (R459). -/
def State.writeSlotq (func t : Nat) (part : Part) (v : Word) (s : State) : State :=
  let fs := Reg.row_TN_SLOTQ.fields t 0
  let new := partOf (s.wordOf fs) part v
  if s.changesRwl fs part v ∧ (s.tnState t ≠ 1 ∨ bits new 0 11 > 1024 ∨ bits new 11 9 > 384 ∨ bits new 20 8 > 146 ∨ bits new 28 8 > 146) then
    s.refuseAssign (Reg.TN_SLOTQ_JSLOTS t).off func t v
  else if s.tnState t ≠ 1 then s
  else (s.putWord fs part v).lastStatus t stOK

/-- TN_SLOTQ_WRITE. -/
def execTnSlotqWrite (t : Fin 17) (part : Part) (v : Word) (s : State) : Res := .next (s.whenReady (State.writeSlotq 0 t.val part v))

/-- A write of TN_SAVE[t]; START checks the handle. -/
def State.writeSave (func t : Nat) (part : Part) (v : Word) (s : State) : State :=
  if s.tnState t ≠ 1 then
    (if s.changesRwl [Reg.TN_SAVE_HANDLE t] part v then s.refuseAssign (Reg.TN_SAVE_HANDLE t).off func t v else s)
  else (s.putWord [Reg.TN_SAVE_HANDLE t] part v).lastStatus t stOK

/-- TN_SAVE_WRITE. -/
def execTnSaveWrite (t : Fin 17) (part : Part) (v : Word) (s : State) : Res := .next (s.whenReady (State.writeSave 0 t.val part v))

/-! ### The scrub (R445) -/

/-- TILE_SCRUB_DONE (R106, R445): the scrub is complete; the tile, of no tenancy, enters L4 and may be assigned again. HOLD keeps it in L0
(R123). DESIGN CHOICE: R106 takes such a tile to L4 although MAXSTATE, the deepest state of an automatic rule, resets to 3 (R123); a MAXSTATE
below 3, which the provider wrote, bounds it. -/
def execTileScrubDone (tile : Fin 64) (s : State) : Res :=
  let g := tile.val
  if !(s.tile g).scrubbing then .next s
  else
    let s1 := s.modTile g (fun t => { t with scrubbing := false, scrubAt := none, saved := false })
    let st := if s1.get (Reg.PWR_DOM_CTL_MAXSTATE g) < 3 ∨ s1.on (Reg.PWR_DOM_CTL_HOLD g) then s1.autoDepth g 4 else 4
    .next (if s1.domState g = 5 ∨ st = 0 then s1 else s1.enterSleep g st)

/-- SCRUB_TIMEOUT (R140, R445): a scrub not complete within 20 µs excludes the tile for this start, as a unit-class event. -/
def execScrubTimeout (tile : Fin 64) (s : State) : Res :=
  let g := tile.val
  match (s.tile g).scrubAt with
  | none => .next s
  | some a =>
    if s.since a ≤ 20000 then .next s
    else
      let s1 := s.modTile g (fun t => { t with scrubbing := false, scrubAt := none })
      .next ((s1.switchOff g).contain [0x40 + g]
        { kind := 0x10, unit := 0x40 + g, body := [1, BitVec.ofNat 8 g, 0, 0] })

/-! ### The isolation claim and the buffer query -/

/-- A write of TN_ISO (R454, R455). -/
def State.writeIso (func : Nat) (v : Word) (s : State) : State :=
  if v.getLsbD 0 then
    if s.isoC1 && s.isoC2 && s.isoC3 then (s.set Reg.TN_ISO_CLAIM 1).set Reg.TN_ISO_CLAIMED 1
    else s.logRefused Reg.TN_ISO_CLAIM.off func v.toNat
  else ((s.set Reg.TN_ISO_CLAIM 0).set Reg.TN_ISO_CLAIMED 0).logRefused Reg.TN_ISO_CLAIM.off func v.toNat

/-- TN_ISO_CLAIM_WRITE. -/
def execTnIsoClaimWrite (v : Word) (s : State) : Res := .next (s.whenReady (State.writeIso 0 v))

/-- A write of TN_BUFQ[t] (R460, R574): reads of TN_BUFQ_MAP and TN_BUFQ_STATUS answer it from now on. -/
def State.writeBufq (t : Nat) (part : Part) (v : Word) (s : State) : State := s.putWord [Reg.TN_BUFQ_HANDLE t] part v

/-- TN_BUFQ_WRITE. -/
def execTnBufqWrite (t : Fin 17) (part : Part) (v : Word) (s : State) : Res := .next (s.whenReady (State.writeBufq t.val part v))

end Sys2Proof.Machine
end

