-- ==== Sys2Proof/Machine/TrainRun.lean ====
section
/-! DEFINITION. Training and qualification of the links (R134, R144, R147, R148), the training records (R145), and the registers of the
bring-up block (R142, R146). -/

namespace Sys2Proof.Machine

/-! ### Training -/

/-- The item has been trained at this start (R145). -/
def State.trainedNow (s : State) (item : Nat) : Bool := s.boot.trained.contains item

/-- A link trains cold: its record is discarded (R144), and it has not been trained at this start, after which it keeps its
settings. -/
def State.trainsCold (s : State) (j serial : Nat) : Bool :=
  if s.trainedNow (8 + j) && (s.link j).farSerial == serial then false
  else s.boot.allCold || !s.trainValid (8 + j) || s.trainPartner (8 + j) != serial

/-- The bound of a training in ns (R134). -/
def trainBound (cold : Bool) : Nat := if cold then 2000000000 else 60000000

/-- LINK_LIGHT_DETECT (R134): light is there on both receive lanes, and training begins, cold where nothing valid is saved for this far
end. -/
def execLinkLightDetect (link : Fin 64) (serial : Word) (s : State) : Res :=
  let j := link.val
  if s.linkState j ≠ lnkTrain ∨ (s.link j).light then .next s
  else
    let cold := s.trainsCold j serial.toNat
    .next (s.modLink j (fun l => { l with light := true, trainStart := s.tick, cold := cold, farSerial := serial.toNat }))

/-- A link that finished training joins the items whose records are to be written (R145): with its first training of a start, and when it has
been retrained in operation. -/
def State.noteTrained (item : Nat) (cold : Bool) (s : State) : State :=
  let b := s.boot
  let b' : Boot :=
    if s.trainedNow item ∧ s.phase = .ready then { b with rewrite := b.rewrite.filter (fun e => e.1 != item) ++ [(item, cold)] }
    else if cold then { b with cold := b.cold.filter (· != item) ++ [item], restored := b.restored.filter (· != item) }
    else if s.trainedNow item then b
    else { b with restored := b.restored ++ [item] }
  { s with boot := { b' with trained := if b.trained.contains item then b.trained else b.trained ++ [item] } }

/-- LINK_TRAIN_DONE (R75, R134, R144, R147): a direction finishes training; the receive direction's window begins, and its flight time and λ
are measured. A restore-and-verify that fails, or a lane order other than the saved one, discards the record, and the link trains cold. -/
def execLinkTrainDone (link : Fin 64) (rx laneOrder verified : Bool) (flight lambda : BitVec 16) (s : State) : Res :=
  let j := link.val
  let l := s.link j
  if s.linkState j ≠ lnkTrain ∨ !l.light ∨ s.since l.trainStart > trainBound l.cold then .next s
  else if !l.cold ∧ !s.trainedNow (8 + j) ∧ (!verified ∨ (rx ∧ leAt (s.trainHeader (8 + j)) 19 1 % 2 ≠ b2n laneOrder)) then
    .next (s.modLink j (fun l => { l with cold := true, trainStart := s.tick, rxTrained := false, txTrained := false }))
  else
    let s1 := if rx then
        ((((s.modLink j (fun l => { l with rxTrained := true, qualStart := s.tick })).set (Reg.LNK_STATUS_LANEORDER j)
          (b2n laneOrder)).set (Reg.LNK_TIME_FLIGHT j) flight.toNat).set (Reg.LNK_TIME_LAMBDA j) lambda.toNat)
      else s.modLink j (fun l => { l with txTrained := true })
    if (s1.link j).rxTrained ∧ (s1.link j).txTrained then
      let s2 := ((s1.setLink j lnkQualify 0).noteTrained (8 + j) l.cold).modLink j (fun l => { l with cold := false })
      .next (s2.queueWord j 1 0 (s2.qualBody j))
    else .next s1

/-- A window failed (R148): the third one takes the link out of service for the start, and stage 7's report says so (R155). -/
def State.windowFailed (j : Nat) (again : State → State) (s : State) : State :=
  let s1 := s.bump (Reg.LNK_QUAL_FAILED j) 1
  if s1.get (Reg.LNK_QUAL_FAILED j) ≥ 3 then
    (s1.linkDisable j causeQualFail).set (Reg.BRU_REPORT7_DATA 7) (s1.get (Reg.BRU_REPORT7_DATA 7) ||| 2 ^ j)
  else again s1

/-- LINK_TRAIN_TIMEOUT (R134): a training past its bound is abandoned and begins again, cold; it counts as a failed window. -/
def execLinkTrainTimeout (link : Fin 64) (s : State) : Res :=
  let j := link.val
  let l := s.link j
  if s.linkState j ≠ lnkTrain ∨ !l.light ∨ s.since l.trainStart ≤ trainBound l.cold then .next s
  else .next (s.windowFailed j (State.modLink j (fun l => { l with cold := true, trainStart := s.tick })))

/-- A receive direction is in its window. -/
def State.inWindow (s : State) (j : Nat) : Bool :=
  (s.linkState j == lnkTrain || s.linkState j == lnkQualify) && (s.link j).rxTrained && !s.on (Reg.LNK_QUAL_RXQUAL j)

/-- LINK_QUAL_WINDOW_END (R147): 10¹² bits, 3.125 s, with no error: the receive direction qualifies, and the far end is told. -/
def execLinkQualWindowEnd (link : Fin 64) (s : State) : Res :=
  let j := link.val
  if !s.inWindow j ∨ s.since (s.link j).qualStart < 3125000000 then .next s
  else
    let s1 := s.set (Reg.LNK_QUAL_RXQUAL j) 1
    .next ((s1.queueWord j 1 0 (s1.qualBody j)).qualified j)

/-- LINK_QUAL_ERROR (R148): an error ends the window; the direction trains again from its settings, and a new window follows. -/
def execLinkQualError (link : Fin 64) (s : State) : Res :=
  let j := link.val
  if !s.inWindow j then .next s
  else .next (s.windowFailed j (fun s =>
    let s1 := (s.modLink j (fun l => { l with rxTrained := false, trainStart := s.tick })).setLink j lnkTrain 0
    s1.queueWord j 1 0 (s1.qualBody j)))

/-! ### Records -/

/-- TRAINING_RECORD_WRITE (R145): after Ready, the record of one item, when the die is free: a new one for an item trained cold, with
STARTS advanced for a restored one, written again for one retrained in operation once it is admitted. A restored record that was discarded
since (R144) stays invalid. `device` is the stack's device
ID; the body comes from the training firmware. -/
def execTrainingRecordWrite (item : Fin 72) (device : Word) (body : List Byte) (s : State) : Res :=
  let i := item.val
  let h := s.trainHeader i
  let fw := s.trainFw (s.get Reg.CS_BOOT_ACTIVE)
  let partner := if i < 8 then device.toNat else (s.link (i - 8)).farSerial
  let lanes := if i < 8 then 0 else s.get (Reg.LNK_STATUS_LANEORDER (i - 8))
  let drop := fun (s : State) => { s with boot := { s.boot with
    cold := s.boot.cold.filter (· != i), restored := s.boot.restored.filter (· != i), rewrite := s.boot.rewrite.filter (fun e => e.1 != i) } }
  if s.phase ≠ .ready ∨ s.store.busy then .next s
  else if s.boot.cold.contains i then .next (drop (s.writeTraining i fw partner 0 s.boot.inlet lanes body))
  else if s.boot.restored.contains i ∧ leAt h 0 1 = 0 then .next (drop s)
  else if s.boot.restored.contains i then
    .next (drop (s.writeTraining i (leAt h 4 4) (leAt h 8 8) (leAt h 16 2 + 1) (leAt h 18 1) (leAt h 19 1) (s.trainBody i)))
  else match s.boot.rewrite.find? (fun e => e.1 == i) with
  | none => .next s
  | some (_, cold) =>
    if 8 ≤ i ∧ s.linkState (i - 8) ≠ lnkActive then .next s
    else if cold then .next (drop (s.writeTraining i fw partner 0 (s.get Reg.PWR_THERMAL_TIN) lanes body))
    else .next (drop (s.writeTraining i fw partner (leAt h 16 2) (leAt h 18 1) lanes body))

/-- The host port is up and takes writes of the bring-up block (R150). -/
def State.whenHostUp (k : State → State) (s : State) : State :=
  match s.phase with
  | .ready | .halted | .recovery | .bringUp => if s.hostUp then k s else s
  | _ => s

/-- Every training record becomes invalid at once (R144): its KIND is programmed to 0. -/
def State.discardRecords (s : State) : State :=
  s.modStore (fun t => (List.range 72).foldl (fun t i => t.program (trainBase i) [0]) t)

/-- A write of BRU_CTL (R144, R146): FORCECOLD is kept in the unit record area, DISCARD acts at once. -/
def State.writeBruCtl (part : Part) (v : Word) (s : State) : State :=
  let new := partOf (s.get Reg.BRU_CTL_FORCECOLD) part v
  let s1 := if new % 2 = s.get Reg.BRU_CTL_FORCECOLD then s else (s.set Reg.BRU_CTL_FORCECOLD new).queueRec 3
  if bitAt (partOf 0 part v) 1 then s1.discardRecords else s1

/-- BRU_DISCARD (R144). -/
def execBruDiscard (v : Word) (s : State) : Res := .next (s.whenHostUp (State.writeBruCtl .whole v))

/-- BRU_FORCECOLD_WRITE (R146). -/
def execBruForcecoldWrite (part : Part) (v : Word) (s : State) : Res := .next (s.whenHostUp (State.writeBruCtl part v))

/-- A write of BRU_RETIRED_T or BRU_RETIRED_L (R142): each retirement that it names is undone, in the record too, and its count of
successive starts begins again. -/
def State.undoRetired (links : Bool) (part : Part) (v : Word) (s : State) : State :=
  let f := if links then Reg.BRU_RETIRED_L_LINKS else Reg.BRU_RETIRED_T_TILES
  let base := if links then 0x80 else 0x40
  let hit := bitList 64 (s.get f &&& partOf 0 part v)
  if hit.isEmpty then s
  else
    let s1 := s.set f (s.get f - maskOf hit)
    let s2 := hit.foldl (fun s i => s.retireRec (if links then 2 else 1) i 3 0 (base + i)) s1
    let keep := fun (u : Nat) => !hit.any (fun i => base + i == u)
    ({ s2 with excluded := s2.excluded.filter keep, boot := { s2.boot with lastExcluded := s2.boot.lastExcluded.filter keep } } : State).queueRec 4

/-- RETIREMENT_UNDO (R142). -/
def execRetirementUndo (links : Bool) (part : Part) (v : Word) (s : State) : Res :=
  .next (s.whenHostUp (State.undoRetired links part v))

/-- RETIREMENT_RECORD_WRITE (R141): the retirements that wait are recorded. -/
def execRetirementRecordWrite (s : State) : Res :=
  if s.retiring.isEmpty ∨ s.store.busy then .next s
  else
    let tiles := s.retiring.filter (fun u => 0x40 ≤ u && u < 0x80)
    let links := s.retiring.filter (fun u => 0x80 ≤ u && u < 0xC0)
    let s1 := (s.set Reg.BRU_RETIRED_T_TILES (s.get Reg.BRU_RETIRED_T_TILES ||| maskOf (tiles.map (· - 0x40)))).set Reg.BRU_RETIRED_L_LINKS
      (s.get Reg.BRU_RETIRED_L_LINKS ||| maskOf (links.map (· - 0x80)))
    .next (({ s1 with retiring := [] } : State).record 4)

/-- UNIT_RECORD_WRITE (R548): the first record that waits is written, when the die is free. -/
def execUnitRecordWrite (s : State) : Res :=
  match s.store.recQ with
  | [] => .next s
  | k :: _ => if s.phase = .dark ∨ s.store.busy then .next s else .next (s.record k)

end Sys2Proof.Machine
end

