-- ==== Sys2Proof/Machine/BringUp.lean ====
section
/-! DEFINITION. The start: leaving Start wait (R61, R94), the ten stages with their checks and reports (R129 to R139, R155), the halt and the
recovery hold (R152, R153), the image of stage 3 (R560), Ready. A stage's row is the end of that stage, with what its checks found. -/

namespace Sys2Proof.Machine

/-! ### Before stage 0 -/

/-- The input and HOLDOFF allow a start (R61): 42.0 V or above for 20 ms, and HOLDOFF counted from the beginning of Start wait (DESIGN CHOICE: the
spec does not say from when). -/
def State.startAllowed (s : State) (vin held : Nat) : Bool :=
  4200 ≤ vin && 20 ≤ held && 100000000 * s.get Reg.PWR_RESTART_HOLDOFF ≤ s.since s.boot.startWaitAt

/-- START_WAIT_EXIT (R61, R91, R94): the input, which has been at 42.0 V or above for `held` ms, and HOLDOFF allow a start, and after a supply
stop AUTO or a request does. GA and SCAN_EN are sampled, THERMTRIP# is released, a hardware trip at the last stop is noted, and the bank
charges. -/
def execStartWaitExit (ga : BitVec 3) (scanEn : Bool) (vin held : BitVec 16) (s : State) : Res :=
  if s.phase ≠ .startWait ∨ !s.startAllowed vin.toNat held.toNat ∨ (s.boot.afterStop ∧ !s.on Reg.PWR_RESTART_AUTO ∧ !s.boot.asked) then .next s
  else
    let trip : EvRec := { kind := 0x0A, cls := 4, tick := s.tick, body := [0, 0, 0, 4] }
    let s1 := (s.set Reg.PWR_THERMAL_STATE (if s.boot.trip then 4 else 0)).set Reg.PWR_IN_STATUS_BAND 1
    .next { s1 with
      phase := .charging
      pins := { s1.pins with ga := ga, scanEn := scanEn, thermtrip := false }
      boot := { s1.boot with trip := false, events := s1.boot.events ++ if s1.boot.trip then [trip] else [] }
      supply := { s1.supply with stopped := false, isolated := false, inputOpen := false, causes := [], tripped := 0 } }

/-- BANK_CHARGED (R61): the bank is within 1.0 V of the bus, and the thermal wait begins. -/
def execBankCharged (vbank vin : BitVec 16) (s : State) : Res :=
  if s.phase ≠ .charging ∨ vbank.toNat + 100 < vin.toNat ∨ vin.toNat + 100 < vbank.toNat then .next s
  else
    let s1 := s.set Reg.PWR_BANK_VBANK vbank.toNat
    .next { s1 with phase := .thermalWait, boot := { s1.boot with waitAt := s.tick, hotWait := false } }

/-- THERMAL_WAIT_END (R94): the inlet and the dies are not above their limits, and stage 0 begins; a wait that a reading above its limit began
ends only when both are below. -/
def execThermalWaitEnd (inlet hottest : BitVec 8) (s : State) : Res :=
  if s.phase ≠ .thermalWait then .next s
  else if inlet.toNat > 50 ∨ hottest.toNat > 90 then .next { s with boot := { s.boot with hotWait := true } }
  else if s.boot.hotWait ∧ (inlet.toNat = 50 ∨ hottest.toNat = 90) then .next s
  else .next (({ s with boot := { s.boot with waited := min 65535 (s.since s.boot.waitAt / 1000000), inlet := inlet.toNat } } : State).startStage0)

/-! ### Reports -/

/-- The report of a stage (R155): result 1 PASS, 2 DEGRADED, 3 FAIL; the detail's kind and index; the stage's own words from word 2. -/
def State.report (n result path status detail : Nat) (words : List Nat) (s : State) : State :=
  let s1 := (((((s.set (Reg.BRU_REPORT0_STAGE n) n).set (Reg.BRU_REPORT0_RESULT n) result).set (Reg.BRU_REPORT0_PATH n) path).set
    (Reg.BRU_REPORT0_STATUS n) status).set (Reg.BRU_REPORT0_DETAIL n) detail).set (Reg.BRU_REPORT0_DURATION n) (s.since s.boot.stageAt / 1000)
  let s2 := s1.set (Reg.BRU_REPORT1_START n) s.boot.stageAt.toNat
  let fs := [Reg.BRU_REPORT2_DATA n, Reg.BRU_REPORT3_DATA n, Reg.BRU_REPORT4_DATA n, Reg.BRU_REPORT5_DATA n]
  (fs.zip words).foldl (fun s e => s.set e.1 e.2) s2

/-- The stage that runs is `n`. -/
def State.atStage (s : State) (n : Nat) : Bool := s.phase == .bringUp && s.get Reg.BRU_STATUS_STAGE == n

/-- A power-off that was asked for takes place; it does not count toward retirement (R159). -/
def State.offNow (s : State) : State :=
  let s1 := s.powerOffNow
  { s1 with boot := { s1.boot with lastExcluded := s.boot.lastExcluded, offAsked := false } }

/-- A stage passes, and the next one begins; a power-off that was asked for takes place now (R159). -/
def State.nextStage (n : Nat) (s : State) : State :=
  if s.boot.offAsked then s.offNow
  else { s.set Reg.BRU_STATUS_STAGE (n + 1) with boot := { s.boot with stageAt := s.tick } }

/-- Detail codes (R155): kind and index. -/
def detail (kind index : Nat) : Nat := 256 * kind + index

/-- A stage halts (R152): report FAIL, the raised domains Off but the host port and the base fabric once stage 2 has passed, the summary, a
management event, ALERT#. A halt in stage 3 is the recovery hold (R153). A power-off that waits for the stage takes place now (R159). -/
def State.halt (n path status detail : Nat) (words : List Nat) (s : State) : State :=
  let s1 := s.report n 3 path status detail words
  let s2 := (((((s1.set Reg.BRU_STATUS_RUNNING 0).set Reg.BRU_STATUS_HALTED 1).set Reg.BRU_STATUS_RECOVERY (b2n (n == 3))).set
    Reg.BRU_STATUS_FAILSTATUS status).set Reg.BRU_STATUS_FAILDETAIL detail).set Reg.BRU_STATUS_FAILSTAGE n |>.set Reg.CS_BOOT_RECOVERY (b2n (n == 3))
  let s3 := (List.range 86).foldl (fun s d =>
    if s.domState d = 5 ∨ (d ≥ 84 ∧ n ≥ 3) then s else s.switchOff d) s2
  let s4 := ({ s3 with phase := if n = 3 then .recovery else .halted } : State).record 6 |>.pldmEvent 2 [BitVec.ofNat 8 n, BitVec.ofNat 8 status]
  if s4.boot.offAsked then s4.offNow else s4

/-- A failure of the controller's lockstep or boot ROM stops the controller: only always-on hardware tells (R156). -/
def State.haltDead (idx : Nat) (s : State) : State :=
  let s1 := ((((s.set Reg.BRU_STATUS_RUNNING 0).set Reg.BRU_STATUS_HALTED 1).set Reg.BRU_STATUS_FAILSTAGE 1).set Reg.BRU_STATUS_FAILDETAIL
    (detail 9 idx)).set (Reg.BRU_REPORT0_RESULT 1) 3
  { s1 with phase := .halted, pins := { s1.pins with alert := true } }

/-- A unit is excluded for this start (R140); a tile or link port excluded at the start before too is retired (R141). -/
def State.bootExclude (u : Nat) (s : State) : State :=
  if s.ownExcluded.contains u then s
  else
    let (kind, idx) := retireKind u
    let s1 := if u < 0x80 then (s.clearMap u).switchOff (unitDom u) else s.clearMap u
    let s2 := if u < 0x10 then s1 else s1.retireRec kind idx 0 0 u
    let s3 : State := { s2 with excluded := s2.excluded.filter (· != u) ++ [u], heldEv := s2.heldEv.filter (· != u) }
    if u ≥ 0x40 ∧ s.boot.lastExcluded.contains u then
      ({ s3 with retiring := s3.retiring ++ [u] } : State).retireRec kind idx 1 0 u
    else s3

/-- A domain is brought to L0 through the slew governor, with the quantum of a wake (R52, R131): its units have their first epoch (R491). One whose unit is absent or excluded stays Off. -/
def State.raiseDomain (n : Nat) (s : State) : State :=
  if !s.on (Reg.PWR_DOM_ID_PRESENT n) ∨ (domUnits n).all (fun u => s.excluded.contains u) then s
  else
    let s1 := ((s.setDomState n 0).modDom n (fun d => { d with idleAt := s.tick })).takeShare 17 (wakeQuantum (domKind n) 4)
    (domUnits n).foldl (fun s u => s.giveEpoch u 1) s1

/-! ### Stages 0 to 4 -/

/-- BRINGUP_STAGE_0: the bank, VAON, the sensors (R43, R132). `bad` lists the units whose sensor is unreadable. -/
def execBringupStage0 (vin capacity : BitVec 16) (vaonOk coolantOk : Bool) (bad : List (BitVec 8)) (inlet hot : BitVec 8) (s : State) : Res :=
  if !s.atStage 0 then .next s
  else
    let c := capacity.toNat
    let s1 := (s.set Reg.PWR_BANK_CAP c).set Reg.PWR_BANK_LOW (b2n (c < 243))
    let s2 : State := { s1 with
      supply := { s1.supply with limit := if c < 243 then (136 * c + 15) / 30 else 1100 }, boot := { s1.boot with inlet := inlet.toNat } }
    let word := c + 2 ^ 16 * vin.toNat + 2 ^ 32 * s.boot.waited + 2 ^ 48 * inlet.toNat + 2 ^ 56 * hot.toNat
    if !vaonOk then .next (s2.halt 0 0 stInternal (detail 7 0) [word])
    else if c < 100 then .next (s2.halt 0 0 stInternal 0 [word])
    else if !coolantOk then .next (s2.halt 0 0 stInternal (detail 8 0) [word])
    else
      let s3 := bad.foldl (fun s u => s.bootExclude u.toNat) s2
      let (res, st, det) := match bad with | [] => (1, stOK, 0) | u :: _ => (2, stInternal, detail 8 u.toNat)
      .next ((if s3.pins.scanEn then s3 else s3.report 0 res 0 st det [word]).nextStage 0)

/-- The masks that a variant allows (R136). -/
def State.fusesOk (s : State) : Bool :=
  let tiles := s.fuse 1
  let each := fun (n : Nat) => (List.range 4).all (fun d => popCount 16 (bits tiles (16 * d) 16) == n)
  let masks := match s.fuse 0 % 256 with
    | 0x40 => tiles == 0 && s.fuse 2 == 0 && s.fuse 3 == 0
    | 0x38 => each 2 && s.fuse 2 == 0 && s.fuse 3 == 0
    | 0x30 => each 4 && s.fuse 2 == 0x88 && s.fuse 3 == 0x7FFFFFFF80000000
    | _ => false
  s.fuse 5 == crc32 ((List.range 5).flatMap (fun i => leBytes 8 (s.fuse i))) && masks

/-- The identification registers from the fuses, the retirement record and the exclusions of stage 0 (R6, R8, R138, R141). A link port's map
bit waits for its loopback in stage 7. -/
def State.identifyModule (s : State) : State :=
  let all := 2 ^ 64 - 1
  let off := fun (base : Nat) => maskOf ((s.excluded.filter (fun u => base ≤ u && u < base + 64)).map (· - base))
  let tiles := all - (s.fuse 1 ||| s.get Reg.BRU_RETIRED_T_TILES ||| off 0x40)
  let code := s.fuse 0 % 256
  let s1 := (((((s.set Reg.ID_VARIANT_CODE code).set Reg.ID_VARIANT_TILES (64 - popCount 64 (s.fuse 1))).set Reg.ID_VARIANT_STACKS
    (8 - popCount 8 (s.fuse 2))).set Reg.ID_VARIANT_LINKS (64 - popCount 64 (s.fuse 3))).set Reg.ID_VARIANT_MAXDOMAIN
    (if code = 0x30 then 32 else 64)).set Reg.ID_UNIT_SERIAL (s.fuse 4)
  let s2 := (s1.set Reg.ID_TILEMAP_MAP tiles).set Reg.CS_ROLLBACK_DRAUSH (s.rollback 0) |>.set
    Reg.CS_ROLLBACK_OWNER (s.rollback 1) |>.set Reg.CS_BOOT_OWNERKEY (b2n (!s.store.ownerKey.isEmpty))
  let retT := s.fuse 1 ||| s.get Reg.BRU_RETIRED_T_TILES
  let retL := s.fuse 3 ||| s.get Reg.BRU_RETIRED_L_LINKS
  (List.range 86).foldl (fun s n =>
    s.set (Reg.PWR_DOM_ID_PRESENT n) (b2n (
      if n < 64 then !bitAt retT n else if n < 72 then true else if n < 80 then !bitAt (s.fuse 2) (n - 72)
      else if n < 84 then bits retL (16 * (n - 80)) 16 != 65535 else true))) s2

/-- BRINGUP_STAGE_1: the controller, the fuses, the variant (R132, R135 to R138). `sense` lists the fuse words whose two reads differ. In scan
mode the start holds here (R158), with the power of the host port's serialisers (R91). -/
def execBringupStage1 (lockstepOk romOk sramOk : Bool) (sense : List (Fin 64)) (s : State) : Res :=
  if !s.atStage 1 then .next s
  else if !lockstepOk then .next (s.haltDead 0)
  else if !romOk then .next (s.haltDead 1)
  else if !sramOk then .next (s.halt 1 0 stInternal (detail 9 2) [])
  else match sense with
  | w :: _ => .next (s.halt 1 0 stInternal (detail 6 w.val) [s.fuse 0])
  | [] =>
    if !s.fusesOk then .next (s.halt 1 0 stInternal (detail 6 0) [s.fuse 0])
    else
      let s1 := (s.identifyModule).set Reg.MC_STATUS_CAUSE s.boot.ctrl |>.set Reg.MC_STATUS_LASTFAULT (b2n (s.boot.ctrl != 0))
      let s2 := ({ s1 with startCount := s1.startCount + 1, boot := { s1.boot with ctrl := 0 } } : State).queueRec 3
      let s3 := if s2.boot.events.any (fun e => e.kind == 0x09 && e.status == stAbortedSag) then s2.pldmEvent 4 [BitVec.ofNat 8 (s2.get Reg.PWR_SUPPLY_EVENT_CAUSE)] else s2
      if s3.pins.scanEn then .next (({ s3.set Reg.BRU_STATUS_RUNNING 0 with phase := .scan } : State).raiseRails [2])
      else .next ((s3.report 1 1 0 stOK 0 [s.fuse 0, s3.get Reg.ID_TILEMAP_MAP, s.get Reg.BRU_RETIRED_L_LINKS]).nextStage 1)

/-- BRINGUP_STAGE_2: the base fabric and the host port (R132). -/
def execBringupStage2 (ok : Bool) (phyUs : BitVec 32) (s : State) : Res :=
  if !s.atStage 2 then .next s
  else
    let early := b2n (s.boot.perstAt == some 0)
    if !ok then .next (s.halt 2 0 stInternal 0 [])
    else .next (((((s.raiseRails [1, 2]).raiseDomain 85).raiseDomain 84).report 2 1 0 stOK 0 [phyUs.toNat + 2 ^ 32 * early]).nextStage 2)

/-- The word of stage 3's report: slot used, reverted, the status of the slot not used when it was tried. -/
def State.imageWord (s : State) (other : Nat) : Nat :=
  s.get Reg.CS_BOOT_ACTIVE + 2 * b2n s.store.reverted + 256 * other

/-- The active slot becomes the other one outside a trial (R560, cause 4). -/
def State.switchSlot (s : State) : State :=
  let a := s.get Reg.CS_BOOT_ACTIVE
  let s1 := ((s.set Reg.CS_BOOT_PREV a).set Reg.CS_BOOT_ACTIVE (1 - a)).set Reg.CS_BOOT_REVCAUSE 4
  s1.modStore (fun t => { t with aver := t.pver, pver := t.aver, reverted := true })

/-- stage3 (R560): the trial's count, the check of the active slot, the revert, the check of the other slot, or the recovery hold with
the status of the first failure. Each change of the boot record is one record, that of REVERTED by a start that does not revert too. -/
def State.chooseImage (s : State) : State :=
  let s0 := s.modStore (fun t => { t with reverted := false })
  let s1 :=
    if s0.on Reg.CS_BOOT_TRIAL ∧ s0.get Reg.CS_BOOT_TRIES = 3 then (s0.revertBoot 2).record 1
    else if s0.on Reg.CS_BOOT_TRIAL then (s0.set Reg.CS_BOOT_TRIES (s0.get Reg.CS_BOOT_TRIES + 1)).record 1
    else if s.store.reverted then s0.record 1
    else s0
  let a := s1.get Reg.CS_BOOT_ACTIVE
  let load := fun (slot other : Nat) (s : State) =>
    let s1 := s.loadImage slot
    (s1.report 3 1 0 stOK 0 [s1.imageWord other, s1.get Reg.CS_ACTIVE_IMGVER]).nextStage 3
  let v := s1.imageVerdict a
  if v.2.2 = stOK then load a 0 s1
  else
    let s2 := (if s1.on Reg.CS_BOOT_TRIAL then s1.revertBoot 1 else s1.switchSlot).record 1
    let b := s2.get Reg.CS_BOOT_ACTIVE
    if (s2.imageVerdict b).2.2 = stOK then load b v.2.2 s2
    else s2.halt 3 0 v.2.2 (detail 5 a) [s2.imageWord v.2.2, 0]

/-- BRINGUP_STAGE_3: the image. -/
def execBringupStage3 (s : State) : Res := if s.atStage 3 then .next s.chooseImage else .next s

/-- BRINGUP_STAGE_4: the core rails. `bad` lists the rails out of range, in R62 order from VAON as 0. -/
def execBringupStage4 (bad : List (Fin 16)) (s : State) : Res :=
  if !s.atStage 4 then .next s
  else
    let word := maskOf (bad.map (·.val))
    match bad with
    | r :: _ => .next (s.halt 4 0 stInternal (detail 7 r.val) [word])
    | [] =>
      let s0 := s.raiseRails [3, 4, 5, 6, 7, 8, 9, 10, 11]
      let s1 : State := { s0 with supply := { s0.supply with railTarget := Vector.replicate 4 850, railAt := Vector.replicate 4 s.tick } }
      .next ((s1.report 4 1 0 stOK 0 [word]).nextStage 4)

/-! ### Stages 5 to 7 -/

/-- Refresh entries of the present stacks: every sixteenth slot (DESIGN CHOICE; R323 gives no places). -/
def State.refreshEntries (s : State) : List (Nat × BitVec 32) :=
  s.stackList.flatMap (fun k => (List.range 32).flatMap (fun p => (List.range 24).map (fun i =>
    ((k * 32 + p) * 384 + 16 * i + 15, BitVec.ofNat 32 2048))))

/-- BRINGUP_STAGE_5: memory training and test (R132, R143, R144). `stacks` holds, for each stack, its device ID, whether restore-and-verify
passed, whether training and self-test passed, and the rows repaired. A stack without a valid record, or of another device, is trained
cold. Memory holds zeros afterwards (R353). -/
def execBringupStage5 (hbmStacks : List StackTest) (s : State) : Res :=
  if !s.atStage 5 then .next s
  else
    let ks := s.stackList.filter (fun k => !s.excluded.contains (8 + k))
    let test := fun (k : Nat) => (hbmStacks[k]?).getD ⟨0, false, false, 0⟩
    let warm := fun (k : Nat) => !s.boot.allCold && s.trainValid k && s.trainPartner k == (test k).device.toNat && (test k).restored
    let path := b2n (!ks.all warm)
    let rows := (List.range 8).foldl (fun n k => n + 2 ^ (8 * k) * (if ks.contains k then (test k).rows.toNat else 0)) 0
    let word := fun (bad : Nat) => maskOf (ks.filter (fun k => (test k).ok)) + 2 ^ 8 * maskOf (ks.filter (fun k => !warm k)) + 2 ^ 16 * bad
    let raised := ks.foldl (fun s k =>
      if (test k).ok then ((s.raiseDomain (72 + k)).set (Reg.MEM_STATUS_PRESENT k) 1).set Reg.ID_STACKMAP_MAP
        (s.get Reg.ID_STACKMAP_MAP ||| 2 ^ k) else s) s
    match ks.find? (fun k => !(test k).ok) with
    | some k => .next (raised.halt 5 path stUncorrected (detail 2 k) [word (maskOf (ks.filter (fun k => !(test k).ok))), rows])
    | none =>
      let s1 : State := { raised with
        hbm := [], moved := [], poison := [], rewrites := [], slotsM := s.refreshEntries
        boot := { raised.boot with
          trained := raised.boot.trained ++ ks, cold := raised.boot.cold ++ ks.filter (fun k => !warm k), restored := raised.boot.restored ++ ks.filter warm } }
      .next ((s1.report 5 1 path stOK 0 [word 0, rows]).nextStage 5)

/-- BRINGUP_STAGE_6: the compute dies and tiles (R132, R140). The lists hold the tiles, Rime engines and die fabrics that failed a test.
A die that reached its critical threshold in the stage is reported with kind 4; its tiles count toward retirement only where they failed a test
too (R157). Links begin to train when stage 7 begins. -/
def execBringupStage6 (badTiles : List (Fin 64)) (badRime badFabric : List (Fin 4)) (s : State) : Res :=
  if !s.atStage 6 then .next s
  else
    let path := s.get (Reg.BRU_REPORT0_PATH 5)
    let fabs := badFabric.map (·.val)
    let down := fabs.flatMap (fun d => (4 + d) :: (0x10 + d) :: (List.range 16).map (fun i => 0x40 + 16 * d + i)) ++
      badTiles.map (fun g => 0x40 + g.val) ++ badRime.map (fun d => 0x10 + d.val)
    let trips := (List.range 4).filter (fun d => bitAt s.supply.tripped d)
    let held := s.heldEv.filter (fun u => 0x40 ≤ u && u < 0x80 && trips.contains ((u - 0x40) / 16))
    let gone := down.filter (fun u => u < 0x40 || s.tileMapped (u - 0x40) || held.contains u)
    let s1 := gone.foldl (fun s u => s.bootExclude u) s
    let tiles := s1.get Reg.ID_TILEMAP_MAP
    let ok := fun (base n : Nat) => maskOf ((List.range n).filter (fun d => !s1.excluded.contains (base + d)))
    let words := [tiles, maskOf (((gone ++ held).filter (fun u => 0x40 ≤ u)).map (· - 0x40)).eraseDups, ok 0x10 4 + 16 * ok 4 4]
    let det : Nat := match trips, badFabric, gone.filter (fun u => 0x40 ≤ u), badRime with
      | d :: _, _, _, _ => detail 4 d
      | [], d :: _, _, _ => detail 4 d.val
      | [], [], u :: _, _ => detail 1 (u - 0x40)
      | [], [], [], d :: _ => detail 4 d.val
      | _, _, _, _ => 0
    let clean := gone.isEmpty && trips.isEmpty
    if tiles = 0 then .next (s1.halt 6 path stInternal (detail 1 ((bitList 64 (s.get Reg.ID_TILEMAP_MAP)).headD 0)) words)
    else
      let s2 : State := (List.range 72).foldl (fun s n => if n < 64 ∧ !s.tileMapped n then s else s.raiseDomain n) s1
      let s3 : State := (s2.report 6 (if clean then 1 else 2) path (if clean then stOK else stInternal) det words).nextStage 6
      if s3.phase ≠ .bringUp then .next s3
      else
        let s4 := (List.range 4).foldl (fun s b => s.raiseDomain (80 + b)) (s3.raiseRails [12])
        .next ((List.range 64).foldl (fun s j => s.linkSettle j) s4)

/-- BRINGUP_STAGE_7: links and optics (R130, R132, R133). `badLinks` lists the engines that failed the electrical loopback; links that have not
finished training go on. The map bits of the ports that passed are set. -/
def execBringupStage7 (badLinks : List (Fin 64)) (s : State) : Res :=
  if !s.atStage 7 then .next s
  else
    let fw := s.trainFw (s.get Reg.CS_BOOT_ACTIVE)
    let js := (List.range 64).filter s.portPresent
    let path := b2n (s.boot.allCold || js.all (fun j => leAt (s.trainHeader (8 + j)) 0 1 == 0) ||
      js.all (fun j => leAt (s.trainHeader (8 + j)) 4 4 != fw))
    let bad := (badLinks.map (·.val)).filter (fun j => js.contains j)
    let s1 := (bad.foldl (fun s j => (s.bootExclude (0x80 + j)).linkDisable j causeFused) s).set Reg.ID_LINKMAP_MAP
      (maskOf (js.filter (fun j => !bad.contains j)))
    let pick := fun (p : Nat → Bool) => maskOf (js.filter (fun j => !bad.contains j && p j))
    let words := [pick (fun j => 2 ≤ s.linkState j && s.linkState j ≤ 6), pick (fun j => s.linkState j == lnkTrain && (s.link j).light),
      maskOf bad, pick (fun j => s.linkState j == lnkTrain && !(s.link j).light)]
    let det := match bad with | [] => 0 | j :: _ => detail 3 j
    .next ((s1.report 7 (if bad.isEmpty then 1 else 2) path (if bad.isEmpty then stOK else stInternal) det words).nextStage 7)

/-! ### Stages 8 and 9 -/

/-- Stages 5, 6 and 7 took the fast path (R130). -/
def State.allFast (s : State) : Bool := [5, 6, 7].all (fun n => s.get (Reg.BRU_REPORT0_PATH n) == 0)

/-- The stop record's area has 16 erased pages after its newest record (R549): the other sector is erased where this one has too few. -/
def Store.roomForStop (t : Store) : Store :=
  let page := (t.recAt 5).1
  if page ≠ 0 ∧ (page % 256 = 0 ∨ 240 < page % 256) then t.eraseSector (904 + (if page ≤ 256 then 1 else 0)) else t

/-- BRINGUP_STAGE_8: services (R132, R444, R549): pooled queues cleared, TN0 created with DEBUG 2, seven measurement blocks, of which six are taken now (R516). -/
def execBringupStage8 (ok : Bool) (s : State) : Res :=
  if !s.atStage 8 then .next s
  else
    let path := b2n (!s.allFast)
    if !ok then .next (s.halt 8 path stInternal 0 [])
    else
      let s0 : State := { s with pqs := [], mgmt := { s.mgmt with measured := s.measure6 } }
      let s1 := s0.createTen 0 0 2 |>.modStore Store.roomForStop
      .next ((s1.report 8 1 path stOK 0 [7]).nextStage 8)

/-- What waited for Ready: the records of the stop before this start, and those of a start without boot, settings or retirement record. -/
def State.flushBoot (s : State) : State :=
  let s1 := s.boot.events.foldl (fun s e => s.pushEvent 0 e) s
  { s1 with boot := { s1.boot with events := [] } }

/-- BRINGUP_STAGE_9: Ready (R131, R132, R146, R513, R561): the summary, tiles in L4 and Rime engines in L3, a trial confirmed by AUTOCONFIRM, the
interrupt, the management event. -/
def execBringupStage9 (s : State) : Res :=
  if !s.atStage 9 then .next s
  else
    let us := s.since s.boot.zeroAt / 1000
    let s1 := s.report 9 1 (b2n (!s.allFast)) stOK 0 [us] |>.set Reg.BRU_TIMES_READYUS us |>.set Reg.BRU_STATUS_FAST (b2n s.allFast) |>.record 6
    let cold := [5, 6, 7, 8, 9].all (fun n => s1.get (Reg.BRU_REPORT0_PATH n) == 1)
    let s2 := if cold ∧ s1.on Reg.BRU_CTL_FORCECOLD then (s1.set Reg.BRU_CTL_FORCECOLD 0).queueRec 3 else s1
    let s3 := if s2.on Reg.CS_BOOT_TRIAL ∧ manAuto (s2.manifest (s2.get Reg.CS_BOOT_ACTIVE))
      then ((s2.set Reg.CS_BOOT_TRIAL 0).set Reg.CS_BOOT_TRIES 0).record 1 else s2
    let s4 := (List.range 72).foldl (fun s n =>
      if s.domState n ≠ 0 then s else if n < 64 then s.enterSleep n 4 else if 68 ≤ n then s.enterSleep n 3 else s) s3
    let s5 := ({ (s4.set Reg.BRU_STATUS_RUNNING 0).set Reg.BRU_STATUS_READY 1 with phase := .ready } : State).queueRec 4
    let s6 := ((s5.flushBoot).sendMsix 0 0).pldmEvent 1 []
    .next (if s6.boot.offAsked then s6.offNow else s6)

end Sys2Proof.Machine
end

