-- ==== Sys2Proof/Machine/Events.lean ====
section
/-! DEFINITION. Event rings in host memory (R534 to R537, R542, R545): records written, doorbell records read, messages, the control
register; the undoing of a withholding (R539). -/

namespace Sys2Proof.Machine

/-- An event record as it stands in host memory (R537): record `n` of a ring of 2^`log2`, after `lost` dropped ones. -/
def eventRecord (n log2 lost : Nat) (e : EvRec) : List Byte :=
  let phase := (n / 2 ^ log2 + 1) % 2
  let body := (e.body ++ zeros 32).take 32
  [BitVec.ofNat 8 e.status, BitVec.ofNat 8 e.kind, BitVec.ofNat 8 e.cls, BitVec.ofNat 8 (phase + 2 * b2n (lost != 0))] ++ leBytes 4 n ++
    leBytes 8 e.tick.toNat ++ [BitVec.ofNat 8 e.unit, BitVec.ofNat 8 (e.tenancy % 32), BitVec.ofNat 8 (e.func % 32), BitVec.ofNat 8 (e.ring % 16)] ++
    leBytes 4 e.index ++ leBytes 2 e.count ++ leBytes 2 lost ++ zeros 4 ++ body

/-- The ring is on and writes (R542, R545). -/
def State.evOpen (s : State) (i : Nat) : Bool := s.phase == .ready && s.on (evEn i) && !s.on (evError i)

/-- The ring has failed (R545): it holds its records; a HOST record tells so on the provider's ring where another one failed. -/
def State.evFail (i : Nat) (s : State) : State :=
  let s1 := s.set (evError i) 1
  if i = 0 then s1
  else s1.logEvent { kind := 0x11, func := evFunc i, tenancy := i - 1, body := [BitVec.ofNat 8 (evFunc i), 0xFF, 3] }

/-- The ring has room for its next record (R535). -/
def State.evRoom (s : State) (i : Nat) : Bool :=
  (s.get (evWritten i) + 2 ^ 32 - (s.evRing i).rhead) % 2 ^ 32 < 2 ^ s.get (evLog2 i)

/-- The first record that a ring holds is written through its function. -/
def State.evWrite (i : Nat) (e : EvRec) (s : State) : State :=
  let n := s.get (evWritten i)
  let log2 := s.get (evLog2 i)
  let r := s.evRing i
  let s1 := s.emit (.hostWrite (evFunc i) (64 * s.get (evBase i) + 64 * (n % 2 ^ log2)) (eventRecord n log2 r.lost e))
  ((s1.modEvRing i (fun r => { r with held := r.held.drop 1, lost := 0, due := true })).set (evWritten i) (n + 1)).set (evHeld i)
    (r.held.length - 1)

/-- EVENT_RECORD_WRITE (R535, R537): a ring writes the first record that it holds; `ok` is false where the host refuses the write. -/
def execEventRecordWrite (ring : Fin 18) (ok : Bool) (s : State) : Res :=
  let i := ring.val
  match (s.evRing i).held with
  | [] => .next s
  | e :: _ =>
    if !s.evOpen i || !s.evRoom i then .next s
    else if ok then .next (s.evWrite i e)
    else .next (s.evFail i)

/-- EVR_DOORBELL_POLL (R535): a ring that holds records reads its doorbell record; a count of records read beyond those written fails the
ring. -/
def execEvrDoorbellPoll (ring : Fin 18) (res : HostRead) (s : State) : Res :=
  let i := ring.val
  if !s.evOpen i || (s.evRing i).held.isEmpty then .next s
  else
    let s1 := s.emit (.hostRead (evFunc i) (64 * s.get (evDb i)) 8)
    match res with
    | .failed => .next (s1.evFail i)
    | .data bs =>
      let rhead := leAt bs 0 4
      if (s.get (evWritten i) + 2 ^ 32 - rhead) % 2 ^ 32 > 2 ^ s.get (evLog2 i) then .next (s1.evFail i)
      else .next (s1.modEvRing i (fun r => { r with rhead := rhead }))

/-- EVR_MSIX (R536): a message of vector 0 announces what the rings of the function wrote, at most once per 10 µs. -/
def execEvrMsix (ring : Fin 18) (s : State) : Res :=
  let f := evFunc ring.val
  let rings := (List.range 18).filter (fun i => evFunc i == f)
  let recent := rings.any (fun i => match (s.evRing i).lastMsg with
    | some a => s.since a < 10000
    | none => false)
  if !rings.any (fun i => (s.evRing i).due) || recent || s.phase ≠ .ready then .next s
  else .next (rings.foldl (fun s i => s.modEvRing i (fun r => { r with due := false, lastMsg := some s.tick })) (s.sendMsix f 0))

/-- A write of EVR_CTL (R542): refused for a started tenancy, for LOG2 while EN is 1, and for an EN of 1 with LOG2 outside 4 to 12 or a zero
address. An EN of 1 starts the record count again; one that follows EN 0 ends ERROR (R545). -/
def State.writeEvrCtl (func i : Nat) (part : Part) (v : Word) (s : State) : State :=
  let fs := [evEn i, evLog2 i]
  let new := partOf (s.wordOf fs) part v
  let log2 := bits new 8 4
  if (0 < i ∧ s.tnStarted (i - 1) ∧ s.changesRwl fs part v) ∨ (s.on (evEn i) ∧ log2 ≠ s.get (evLog2 i)) ∨
      (bitAt new 0 ∧ (log2 < 4 ∨ log2 > 12 ∨ s.get (evBase i) = 0 ∨ s.get (evDb i) = 0)) then
    s.logRefused (evEn i).off func v.toNat
  else
    let was := s.on (evEn i)
    let s1 := s.putWord fs part v
    if bitAt new 0 then
      let s2 := (s1.modEvRing i (fun r => { r with rhead := 0 })).set (evWritten i) 0
      if was then s2 else s2.set (evError i) 0
    else s1

/-- EVR_CTL_WRITE (R542). -/
def execEvrCtlWrite (ring : Fin 18) (part : Part) (v : Word) (s : State) : Res := .next (s.whenReady (State.writeEvrCtl 0 ring.val part v))

/-- A write of EVR_BASE or EVR_DBADDR: refused while EN is 1, and for a started tenancy (R542). -/
def State.writeEvrAddr (func i : Nat) (f : Fld) (part : Part) (v : Word) (s : State) : State :=
  let changes := bits (partOf (s.wordOf [f]) part v) f.lo f.width ≠ s.get f
  if changes ∧ (s.on (evEn i) ∨ (0 < i ∧ s.tnStarted (i - 1))) then s.logRefused f.off func v.toNat
  else s.putWord [f] part v

/-- A write of MC_GRANWH (R539): each withholding that it names is undone, with its granule's count. -/
def State.undoWithheld (k : Nat) (part : Part) (v : Word) (s : State) : State :=
  let f := Reg.MC_GRANWH_WITHHELD k
  let hit := bitList 64 (s.get f &&& partOf 0 part v)
  if hit.isEmpty then s
  else
    let s1 := s.set f (s.get f - maskOf hit)
    let s2 := hit.foldl (fun s j => s.retireRec 3 (64 * k + j) 3 0 0xFF) s1
    ({ s2 with granPoison := s2.granPoison.filter (fun e => !hit.any (fun j => 64 * k + j == e.1)) } : State).queueRec 4

/-- GRANULE_WITHHOLD_UNDO (R539). -/
def execGranuleWithholdUndo (k : Fin 4) (part : Part) (v : Word) (s : State) : Res := .next (s.whenReady (State.undoWithheld k.val part v))

end Sys2Proof.Machine
end

