-- ==== Sys2Proof/Machine/LaunchOps.lean ====
section
/-! DEFINITION. Program images: the header (R417), the tile table (R418), the pooled-queue table (R419), the schedule section (R420)
and their checks (R421, R322, R375). -/

namespace Sys2Proof.Machine

/-! ### The header (R417) -/

/-- The fields of an image header. -/
def hOrderset (h : List Byte) : Nat := leAt h 6 2
def hLevels (h : List Byte) : Nat := leAt h 8 2
def hSched (h : List Byte) : Bool := bitAt (leAt h 10 1) 0
def hSweep (h : List Byte) : Bool := bitAt (leAt h 10 1) 1
def hStep (h : List Byte) : Nat := leAt h 11 1
def hPlacement (h : List Byte) : Nat := leAt h 12 8
def hNpair (h : List Byte) : Nat := leAt h 20 1
def hStartload (h : List Byte) : Nat := leAt h 21 1
def hSlew (h : List Byte) : Nat := leAt h 22 2
def hEnvelope (h : List Byte) : Nat := leAt h 24 2
def hNpq (h : List Byte) : Nat := leAt h 26 2
def hLength (h : List Byte) : Nat := leAt h 28 4
def hSweepmap (h : List Byte) : Nat := leAt h 32 8
def hTileoff (h : List Byte) : Nat := leAt h 40 4
def hPqoff (h : List Byte) : Nat := leAt h 44 4
def hSchedoff (h : List Byte) : Nat := leAt h 48 4
def hSchedlen (h : List Byte) : Nat := leAt h 52 4

/-- The twin pairs of the header: primary and shadow. -/
def hPairs (h : List Byte) : List (Nat × Nat) :=
  (List.range (hNpair h)).map (fun i => (leAt h (56 + 2 * i) 1, leAt h (57 + 2 * i) 1))

/-- The header fails check 3 (R421). -/
def badHeader (h : List Byte) : Bool :=
  leAt h 0 4 != 0x47584942 || leAt h 4 2 != 1 || leAt h 10 1 ≥ 4 || hNpair h > 32 || hNpq h > 4096 || !zeroBytes h 120 256 ||
    !zeroBytes h (56 + 2 * hNpair h) 120 || (!hSweep h && hSweepmap h != 0) || (hNpq h == 0 && hPqoff h != 0) ||
    (if hSched h then hStep h > 3 || hStartload h == 0 || hStartload h > 16 || hSlew h == 0 || hSchedlen h < 64
     else hStep h != 0 || hStartload h != 0 || hSlew h != 0 || hEnvelope h != 0 || hSchedoff h != 0 || hSchedlen h != 0)

/-- The tables of an image: offset and length. -/
def imageTables (h : List Byte) : List (Nat × Nat) :=
  [(hTileoff h, 16 * popCount 64 (hPlacement h)), (hPqoff h, 16 * hNpq h), (hSchedoff h, hSchedlen h)]

/-- A table cut into entries of 16 bytes. -/
def entries16 : Nat → List Byte → List (List Byte)
  | 0, _ => []
  | n + 1, bs => bs.take 16 :: entries16 n (bs.drop 16)

/-! ### The tile table and the pooled-queue table (R418, R419) -/

/-- Bytes of a tile section. -/
def sectionLen : Nat := 135168

/-- A tile entry fails check 3: `base` is where the image begins in the buffer. -/
def badTileEntry (base g : Nat) (e : List Byte) : Bool :=
  let o := base + leAt e 4 4
  leAt e 0 1 != g || leAt e 1 1 != 0 || !zeroBytes e 10 16 || leAt e 8 2 == 0 || leAt e 8 2 > 2048 || leAt e 2 2 ≥ leAt e 8 2 ||
    leAt e 4 4 % 4096 != 0 || o / 2 ^ 30 != (o + sectionLen - 1) / 2 ^ 30

/-- The tile table fails check 3. -/
def badTileTable (base : Nat) (gs : List Nat) (es : List (List Byte)) : Bool :=
  (gs.zip es).any (fun p => badTileEntry base p.1 p.2)

/-- The pooled-queue table fails check 3: a reserved field, or a queue named twice. -/
def badPqTable : List (List Byte) → Bool
  | [] => false
  | e :: es =>
    leAt e 0 2 > 4095 || leAt e 2 2 != 0 || leAt e 7 1 != 0 || leAt e 8 8 ≥ 2 ^ 26 || es.any (fun x => leAt x 0 2 == leAt e 0 2) ||
      badPqTable es

/-! ### The schedule section (R420) -/

/-- The counts of a schedule section. -/
def sNjs (x : List Byte) : Nat := leAt x 8 4
def sNmem (x : List Byte) : Nat := leAt x 12 4
def sNlnk (x : List Byte) : Nat := leAt x 16 4
def sNmark (x : List Byte) : Nat := leAt x 20 4

/-- The schedule header fails check 3. -/
def badSchedHeader (h x : List Byte) : Bool :=
  leAt x 0 4 != 0x31535842 || leAt x 4 2 != 1 || leAt x 6 2 != 0 || leAt x 28 1 ≥ 2 || !zeroBytes x 29 64 ||
    hSchedlen h != 64 + 16 * (sNjs x + sNmem x + sNlnk x + sNmark x) || (sNlnk x == 0 && !zeroBytes x 24 29)

/-- The entries of each kind. -/
def sJs (x : List Byte) : List (List Byte) := entries16 (sNjs x) (x.drop 64)
def sMem (x : List Byte) : List (List Byte) := entries16 (sNmem x) (x.drop (64 + 16 * sNjs x))
def sLnk (x : List Byte) : List (List Byte) := entries16 (sNlnk x) (x.drop (64 + 16 * (sNjs x + sNmem x)))
def sMark (x : List Byte) : List (List Byte) := entries16 (sNmark x) (x.drop (64 + 16 * (sNjs x + sNmem x + sNlnk x)))

/-- Keys strictly rise. -/
def rising : List Nat → Bool
  | a :: b :: l => a < b && rising (b :: l)
  | _ => true

/-- A port exists at a router. -/
def routerHas (g p : Nat) : Bool := p < 8 && (routerNext g p).isSome

/-- A port exists at a quadrant. -/
def quadrantHas (q p : Nat) : Bool := p ≤ 84 && (p != 84 || q == 0)

/-- The slot entry's SCHED is 1, its TENANCY 0. -/
def badEntryWord (e : Nat) : Bool := !eSched e || eTen e != 0

/-- A Jetstream entry fails check 3. -/
def badJs (x : List Byte) : Bool :=
  let kind := leAt x 0 1
  let u := leAt x 1 1
  let p := leAt x 2 1
  let e := leAt x 8 4
  kind > 1 || leAt x 3 1 != 0 || leAt x 4 2 > 1023 || leAt x 6 2 != 0 || leAt x 12 4 != 0 || badEntryWord e || e ≥ 2 ^ 15 ||
    (if kind = 0 then u > 63 || !routerHas u p || !routerHas u (eInport e) || (eInport e < 2 && eCh e % 2 != eInport e)
     else u > 3 || !quadrantHas u p || !quadrantHas u (eInport e))

/-- The order of Jetstream entries. -/
def keyJs (x : List Byte) : Nat := ((leAt x 0 1 * 256 + leAt x 1 1) * 256 + leAt x 2 1) * 65536 + leAt x 4 2

/-- A memory entry fails check 3. -/
def badMem (x : List Byte) : Bool :=
  let e := leAt x 8 4
  leAt x 0 1 > 7 || leAt x 1 1 > 31 || leAt x 2 2 > 383 || leAt x 4 4 != 0 || leAt x 12 4 != 0 || badEntryWord e || e ≥ 2 ^ 11 ||
    bits e 7 4 > 9

/-- The order of memory entries. -/
def keyMem (x : List Byte) : Nat := (leAt x 0 1 * 256 + leAt x 1 1) * 65536 + leAt x 2 2

/-- A link entry fails check 3. -/
def badLnk (x : List Byte) : Bool :=
  let e := leAt x 8 4
  leAt x 0 1 > 63 || leAt x 1 1 > 149 || leAt x 2 6 != 0 || leAt x 12 4 != 0 || badEntryWord e || e ≥ 2 ^ 14

/-- The order of link entries. -/
def keyLnk (x : List Byte) : Nat := leAt x 0 1 * 256 + leAt x 1 1

/-- A load mark fails check 3. -/
def badMark (x : List Byte) : Bool := leAt x 0 1 > 63 || leAt x 1 1 > 16 || leAt x 2 2 != 0 || leAt x 12 4 != 0

/-- The cycle of a load mark, and the order of load marks. -/
def markCycle (x : List Byte) : Nat := leAt x 4 8
def keyMark (x : List Byte) : Nat := leAt x 0 1 * 2 ^ 64 + markCycle x

/-- The schedule section fails check 3. -/
def badSched (h x : List Byte) : Bool :=
  badSchedHeader h x || (sJs x).any badJs || (sMem x).any badMem || (sLnk x).any badLnk || (sMark x).any badMark ||
    !rising ((sJs x).map keyJs) || !rising ((sMem x).map keyMem) || !rising ((sLnk x).map keyLnk) || !rising ((sMark x).map keyMark)

/-! ### Check 7 (R322, R375, R524) -/

/-- An output of a router faces a unit that is absent: its own tile, or its die's Rime engine. -/
def State.routerFacesNone (s : State) (g p : Nat) : Bool :=
  s.unitHeld (4 + tileDie g) ||
    (if p < 2 then !s.tileUsable g else if p = 6 ∧ !isEdge g then s.rimeOut (tileDie g) else false)

/-- An output of a quadrant faces a unit that is absent: a stack or a link. -/
def State.quadrantFacesNone (s : State) (q p : Nat) : Bool :=
  if p < 24 then s.unitHeld (4 + q)
  else if p < 44 then
    let k := 2 * q + (p - 24) / 10
    !s.stackMapped k || s.unitHeld (8 + k)
  else if p < 60 then
    let j := 16 * q + (p - 44)
    !s.linkMapped j || s.unitHeld (0x80 + j)
  else false

/-- The key of an entry in its table. -/
def jsKey (x : List Byte) : Nat :=
  if leAt x 0 1 = 0 then (8 * leAt x 1 1 + leAt x 2 1) * 1024 + leAt x 4 2 else (85 * leAt x 1 1 + leAt x 2 1) * 1024 + leAt x 4 2
def memKey (x : List Byte) : Nat := (32 * leAt x 0 1 + leAt x 1 1) * 384 + leAt x 2 2
def lnkKey (x : List Byte) : Nat := 150 * leAt x 0 1 + leAt x 1 1

/-- An entry of a table is held by another tenancy, or is a refresh slot. -/
def slotTaken (t : Nat) (tab : List (Nat × BitVec 32)) (k : Nat) : Bool :=
  let e := (spGet 0 tab k).toNat
  eSched e && eTen e != t

/-- Entries of a tenancy in the table of `n` slots that holds key `k`. -/
def heldIn (t n k : Nat) (tab : List (Nat × BitVec 32)) : Nat :=
  (tab.filter (fun e => e.1 / n == k / n && eSched e.2.toNat && eTen e.2.toNat == t)).length

/-- Entries put into a table, each with its tenancy's number (R420). -/
def installAll (t : Nat) (key : List Byte → Nat) (es : List (List Byte)) (tab : List (Nat × BitVec 32)) : List (Nat × BitVec 32) :=
  es.foldl (fun tab x => spSet 0 tab (key x) (BitVec.ofNat 32 (leAt x 8 4 + 2 * t))) tab

/-- The tenancy would hold more entries in one table of `n` slots than its quota. -/
def overQuota (t n quota : Nat) (key : List Byte → Nat) (es : List (List Byte)) (tab : List (Nat × BitVec 32)) : Bool :=
  es.any (fun x => heldIn t n (key x) tab > quota)

/-- The schedule of an image cannot be placed (R322, R375). -/
def State.slotsRefused (s : State) (t : Nat) (x : List Byte) : Bool :=
  let jr := (sJs x).filter (fun e => leAt e 0 1 == 0)
  let jb := (sJs x).filter (fun e => leAt e 0 1 != 0)
  jr.any (fun e => s.routerFacesNone (leAt e 1 1) (leAt e 2 1) || slotTaken t s.slotsJ (jsKey e)) ||
    jb.any (fun e => s.quadrantFacesNone (leAt e 1 1) (leAt e 2 1) || slotTaken t s.slotsB (jsKey e)) ||
    (sMem x).any (fun e => !s.stackMapped (leAt e 0 1) || s.unitHeld (8 + leAt e 0 1) || slotTaken t s.slotsM (memKey e) ||
      bits (spGet 0 s.slotsM (memKey e)).toNat 11 2 == 1) ||
    (sLnk x).any (fun e => !s.linkMapped (leAt e 0 1) || s.unitHeld (0x80 + leAt e 0 1) || slotTaken t s.slotsL (lnkKey e) ||
      [0, 38, 75, 113].contains (leAt e 1 1)) ||
    overQuota t 1024 (s.get (Reg.TN_SLOTQ_JSLOTS t)) jsKey jr (installAll t jsKey jr s.slotsJ) ||
    overQuota t 1024 (s.get (Reg.TN_SLOTQ_JSLOTS t)) jsKey jb (installAll t jsKey jb s.slotsB) ||
    overQuota t 384 (s.get (Reg.TN_SLOTQ_MSLOTS t)) memKey (sMem x) (installAll t memKey (sMem x) s.slotsM) ||
    overQuota t 150 (s.get (Reg.TN_SLOTQ_LSLOTS t)) lnkKey (sLnk x) (installAll t lnkKey (sLnk x) s.slotsL)

/-- The twin pairs of an image break R524. -/
def badPairs (placement : Nat) : List (Nat × Nat) → List Nat → Bool
  | [], _ => false
  | (p, q) :: l, used =>
    p > 63 || q > 63 || !bitAt placement p || !bitAt placement q || p ≥ q || p / 16 != q / 16 || used.contains p || used.contains q ||
      !((tileRow p == tileRow q && tileCol q == tileCol p + 1) || (tileCol p == tileCol q && tileRow q == tileRow p + 1)) ||
      badPairs placement l (p :: q :: used)

/-- The link slots assume a domain that is not this one's (R421). -/
def State.otherDomain (s : State) (x : List Byte) : Bool :=
  sNlnk x != 0 && (leAt x 24 2 != s.get Reg.LNK_DOM_CFG_HOLD || leAt x 26 1 != s.get Reg.LNK_DOM_CFG_N ||
    leAt x 27 1 != s.modNum || leAt x 28 1 != s.get Reg.LNK_DOM_CFG_P31)

/-- The sum of the declared slews with a tenancy's share raised to `slew` (R53). -/
def State.slewWith (s : State) (t slew : Nat) : Nat :=
  s.get Reg.PWR_SLEW_SCHED - (s.ten t).slew + max (s.ten t).slew slew

/-- A LAUNCH fails check 7 (R421): `h` is the header, `x` the schedule section. -/
def State.launchRefused (s : State) (t : Nat) (h x : List Byte) : Bool :=
  let gs := bitList 64 (hPlacement h)
  s.tnState t != 2 || gs.any (fun g => !s.tileUsable g) ||
    hLevels h &&& (0xFFFF - s.get Reg.ID_COMPAT_LEVELS) != 0 || hOrderset h > s.get Reg.ID_COMPAT_ORDERSET ||
    (!hSched h && s.on (Reg.TN_CFG_MODE t)) ||
    (if hSched h then
       hStep h < s.get (Reg.PWR_TNCAP_MAXSTEP t) || hEnvelope h > s.get (Reg.PWR_TNCAP_CAP t) ||
         10 * s.slewWith t (hSlew h) > 9 * s.get Reg.PWR_SLEW_LIMIT || s.otherDomain x || s.slotsRefused t x
     else 409 * gs.length + 2300 * popCount 4 (s.get (Reg.TN_CFG_RIME t)) > 100 * s.get (Reg.PWR_TNCAP_CAP t)) ||
    badPairs (hPlacement h) (hPairs h) [] || hSweepmap h &&& (2 ^ 64 - 1 - hPlacement h) != 0

end Sys2Proof.Machine
end

