-- ==== Sys2Proof/Machine/Launch.lean ====
section
/-! DEFINITION. LAUNCH (R412, R413, R417 to R422), Breeze packets (R329, R330, R411, R495), the loading of a tile (R197), pre-warm and the
common start of a scheduled LAUNCH (R55), load marks (R420), the end of a LAUNCH (R189, R413). -/

namespace Sys2Proof.Machine

/-! ### LAUNCH -/

/-- A range of a buffer holds poison (R339). -/
def State.bufPoisoned (s : State) (h o n : Nat) : Bool :=
  n != 0 && (List.range ((o + n - 1) / 64 + 1 - o / 64)).any (fun i => s.poisoned (s.bufAddr h (64 * (o / 64 + i)) / 64))

/-- A command ends with the status of a failed check. -/
def State.failCheck (f r : Nat) (c : RingCmd) (st : Nat) (s : State) : State :=
  s.endCmd f r { c with fail := some { status := st } } st 0

/-- Checks 3, 5, 6 and 7 of a readable image (R421): the status of the first that fails. A table that leaves the buffer is not read. -/
def State.checkImage (s : State) (f base blen : Nat) (h tt pt x : List Byte) : Option Nat :=
  let gs := bitList 64 (hPlacement h)
  let te := entries16 gs.length tt
  let pe := entries16 (hNpq h) pt
  let inside := fun (i : Nat) => let t := (imageTables h).getD i (0, 0); t.2 == 0 || base + t.1 + t.2 ≤ blen
  if (inside 0 && badTileTable base gs te) || (inside 1 && badPqTable pe) || (hSched h && inside 2 && badSched h x) then some stBadDescriptor
  else if gs.any (fun g => s.tileTen g != f) || (inside 1 && pe.any (fun e => !s.ownsQueue f (leAt e 0 2))) then some stNotOwner
  else if base + hLength h > blen || !(inside 0 && inside 1 && inside 2) || te.any (fun e => base + leAt e 4 4 + sectionLen > blen) then some stBounds
  else if s.launchRefused f h x then some stNoResource
  else none

/-- A tenancy becomes pinned, or stays so, with what its image declares (R40, R53, R111): its slew share, its step, its domains. -/
def State.pinTenancy (t slew step : Nat) (s : State) : State :=
  let total := s.slewWith t slew
  let was := s.tnPinned t
  let k := if was then min (s.ten t).step step else step
  let s1 := s.modTen t (fun x => { x with slew := max x.slew slew, step := k })
  let s2 := ((s1.set Reg.PWR_SLEW_SCHED total).set (Reg.PWR_TNCAP_PINNED t) 1).set (Reg.TN_STATE_PINNED t) 1
  let ns := bitList 64 (s2.get (Reg.TN_TILES_MAP t)) ++ (bitList 4 (s2.get (Reg.TN_CFG_RIME t))).map (fun d => 68 + d)
  ns.foldl (fun s n => (s.set (Reg.PWR_DOM_STATE_PINNED n) 1).stepDomain n k) s2

/-- The shared domains that carry a slot of the tenancy's schedule are woken, and stay awake (R106). -/
def State.wakeScheduled (s : State) : State :=
  ((List.range 86).filter (fun n => n ≥ 64 && s.domScheduled n && 1 ≤ s.domState n && s.domState n ≤ 4)).foldl
    (fun s n => s.wakeDomain n) s

/-- TILE_TWIN of both tiles of a pair (R524, R541). -/
def State.setTwin (p : Nat × Nat) (s : State) : State :=
  let one := fun (g other shadow : Nat) (s : State) =>
    ((((s.set (Reg.TILE_TWIN_EN g) 1).set (Reg.TILE_TWIN_SHADOW g) shadow).set (Reg.TILE_TWIN_PARTNER g) other).set
      (Reg.TILE_TWIN_WINDOWS g) 0).modTile g (fun t => { t with twinHash := 0xFFFFFFFFFFFFFFFF })
  one p.2 p.1 1 (one p.1 p.2 0 s)

/-- The image is installed (R311, R322, R375, R524, R544): pooled queues take their values, slot entries their tenancy, the participants
of the sweep and the twin pairs are set, a scheduled tenancy is pinned. -/
def State.installImage (f : Nat) (h pt x : List Byte) (s : State) : State :=
  let s1 := (entries16 (hNpq h) pt).foldl (fun s e =>
    s.setPq (leAt e 0 2) (Queue.declared (BitVec.ofNat 5 f) (leAt e 4 4) (leAt e 8 8))) s
  let s2 := if hSweep h then s1.set (Reg.PQ_TNSWEEP_N f) (popCount 64 (hSweepmap h)) else s1
  let s3 := (bitList 64 (hPlacement h)).foldl (fun s g => s.modTile g (fun t =>
    { t with sweeper := hSweep h && bitAt (hSweepmap h) g, sweepDrift := false }) |>.unset
      [Reg.TILE_TWIN_SHADOW g, Reg.TILE_TWIN_PARTNER g, Reg.TILE_TWIN_WINDOWS g, Reg.TILE_TWIN_HASH_HASH g]) s2
  let s4 : State := { s3 with twins := s3.twins ++ (hPairs h).map (fun p => ({ primary := p.1, shadow := p.2 } : Twin)) }
  let s5 := (hPairs h).foldl (fun s p => s.setTwin p) s4
  if hSched h then
    let js := sJs x
    let s6 : State := { s5 with
      slotsJ := installAll f jsKey (js.filter (fun e => leAt e 0 1 == 0)) s5.slotsJ
      slotsB := installAll f jsKey (js.filter (fun e => leAt e 0 1 != 0)) s5.slotsB
      slotsM := installAll f memKey (sMem x) s5.slotsM
      slotsL := installAll f lnkKey (sLnk x) s5.slotsL }
    (s6.pinTenancy f (hSlew h) (hStep h)).wakeScheduled
  else s5

/-- A CMD packet leaves for each tile of the placement (R411), with the tile's epoch of the dispatch. -/
def State.sendLaunch (f r : Nat) (c : RingCmd) (base : Nat) (h tt : List Byte) (s : State) : State :=
  let gs := bitList 64 (hPlacement h)
  (gs.zip (entries16 gs.length tt)).foldl (fun s p =>
    let a := s.bufAddr (leAt c.desc 8 8) (base + leAt p.2 4 4)
    let s1 := s.modTile p.1 (fun t => { t with loading := some (a, leAt p.2 2 2, leAt p.2 8 2, 0) })
    { s1 with breeze := s1.breeze ++
        [{ kind := .cmd, dest := 0x40 + p.1, src := 0x01, func := f, epoch := s.stampOf c (0x40 + p.1)
           beat1 := 2 + 256 * r + 2 ^ 16 * c.idx, beat2 := a, beat3 := leAt p.2 2 2 }] }) s

/-- An earlier LAUNCH of the function gives up the tiles of a placement, whose halts are complete (R410): it keeps the count of the bundles that
they issued, and their twin pairs end. -/
def State.yieldTiles (f place : Nat) (s : State) : State :=
  (List.range 16).foldl (fun s r =>
    ((s.ring f r).cmds.filter (fun c => c.op == 2 && c.st == .running && c.place &&& place != 0)).foldl (fun s c =>
      let taken := c.place &&& place
      let gone := c.pairs.filter (fun p => bitAt taken p.1 || bitAt taken p.2)
      (s.endTwins gone).modCmd f r c.idx (fun c =>
        { c with place := c.place - taken, issued := c.issued + s.issuedBy taken, pairs := c.pairs.filter (fun p => !gone.contains p) })) s) s

/-- A LAUNCH reads its image, checks it and starts it (R421). -/
def State.launch (f r : Nat) (c : RingCmd) (s : State) : State :=
  let hd := leAt c.desc 8 8
  let base := leAt c.desc 16 8
  let blen := (s.handleGrans hd).length * 2 ^ 30
  if base + 256 > blen then s.failCheck f r c stBounds
  else
    let h := s.bufRead hd base 256
    if s.bufPoisoned hd base 256 then s.failCheck f r c stUncorrected
    else if badHeader h then s.failCheck f r c stBadDescriptor
    else if (imageTables h).any (fun t => base + t.1 + t.2 ≤ blen && s.bufPoisoned hd (base + t.1) t.2) then s.failCheck f r c stUncorrected
    else
      let tab := fun (i : Nat) => let t := (imageTables h).getD i (0, 0); s.bufRead hd (base + t.1) t.2
      let tt := tab 0
      let pt := tab 1
      let x := tab 2
      match s.checkImage f base blen h tt pt x with
      | some st => s.failCheck f r c st
      | none =>
        let s1 := (s.yieldTiles f (hPlacement h)).installImage f h pt x
        let s2 := s1.modCmd f r c.idx (fun c =>
          { c with st := .running, place := hPlacement h, pairs := hPairs h, sched := hSched h, slew := hSlew h, load := hStartload h
                   marks := (if hSched h then sMark x else []).map (fun m => (leAt m 0 1, markCycle m, leAt m 1 1)) })
        s2.sendLaunch f r c base h tt

/-- LAUNCH (R412, R421). -/
def execLaunch (func : Fin 17) (ring : Fin 16) (index : BitVec 32) (s : State) : Res :=
  .next (s.withCmd func.val ring.val index.toNat 0x02 (State.fresh func.val ring.val (State.launch func.val ring.val)))

/-! ### Breeze -/

/-- Packet `k`, when it can be taken: it is not lost, and no earlier packet of its source to its target is under way; an EPOCH packet
passes every other (R330). -/
def State.bzAt (s : State) (k : Nat) (kind : BzKind) : Option Bz :=
  match s.breeze[k]? with
  | none => none
  | some p =>
    if p.kind = kind ∧ !p.lost ∧ !(s.breeze.take k).any (fun q => q.src == p.src && q.dest == p.dest &&
        (q.kind == .epoch || p.kind != .epoch)) then some p else none

/-- A packet leaves the network. -/
def State.dropBz (k : Nat) (s : State) : State := { s with breeze := s.breeze.eraseIdx k }

/-- A packet's effect, once the domains on its way are in L0. -/
def State.takeBz (k : Nat) (p : Bz) (effect : State → State) (s : State) : State :=
  s.through p.doms (fun s => effect (s.dropBz k)) (State.dropBz k)

/-- The ring and the count of the command that a CMD packet carries (R411). -/
def Bz.ring (p : Bz) : Nat := bits p.beat1 8 4
def Bz.index (p : Bz) : Nat := bits p.beat1 16 32

/-- A tile receives its LAUNCH: it clears its state, and its DMA engine begins to load its instruction store (R197, R311). -/
def State.tileLaunch (g : Nat) (s : State) : State :=
  match (s.tile g).loading with
  | none => s
  | some (a, entry, n, _) =>
    let s1 := s.modTile g (fun t =>
      { t with
        g := Vector.replicate 64 0, a := Vector.replicate 16 0, p := 0, m := Vector.replicate 8 0, cycle := 0, sb := [], owedTokens := [], owedStarts := [], stale := []
        wait := {}, peeks := [], halting := false, debugPending := false, stepping := false, pastBp := false, pastEnd := false
        drizzleAt := t.drizzleAt.map (fun _ => s.tick)
        panels := t.panels.map (fun p => { banks := p.banks, drizzle := p.drizzle, ramp := p.ramp }), vq := []
        loading := some (a, entry, n, 1) })
    let s2 := s1.unset [Reg.TILE_FAULT_INFO_CODE g, Reg.TILE_FAULT_INFO_STATUS g, Reg.TILE_FAULT_INFO_SLOT g,
      Reg.TILE_FAULT_INFO_BA g, Reg.TILE_FAULT_INFO_EPOCH g, Reg.TILE_FAULT_INFO_VALID g, Reg.TILE_FAULT_ADDR_ADDR g,
      Reg.TILE_PERF_ISSUED g, Reg.TILE_STALL_DEP g, Reg.TILE_STALL_MEM g, Reg.TILE_Q_WAIT_QUEUE g, Reg.TILE_Q_WAIT_POOL g,
      Reg.TILE_Q_WAIT_OP g, Reg.TILE_Q_WAIT_DEPTH g, Reg.TILE_Q_WAIT_ACTIVE g, Reg.TILE_Q_WAIT_SWEEPLATCH g, Reg.TILE_Q_WAIT_COUNT g]
    let s3 := (s2.unsetRange (0x400080 + 0x10000 * g) (0x4000B0 + 0x10000 * g)).unsetRange (0x4000C0 + 0x10000 * g) (0x4000E0 + 0x10000 * g)
    (({ s3 with isobar := s3.isobar.filter (fun p => !p.ofPeekOf g) }.set (Reg.TILE_STATE_BA g) entry).setRun g runIdle).syncTile g

/-- A tile discards the packet of its LAUNCH, whose epoch is stale: the LAUNCH fails as by an epoch change of that tile alone (R492, R413). -/
def State.launchStale (g : Nat) (s : State) : State :=
  match s.launchOf g with
  | none => s
  | some (f, r, c) =>
    let s1 := if c.fail.isSome then s.laterFailure g 0x23 stAbortedEpoch 0xF 0
      else s.failCmd f r c.idx { status := stAbortedEpoch, xstatus := 0x23, detail := g + 64 * 0xF + 32768 }
    let s2 := s1.modTile g (fun t => { t with loading := none })
    (bitList 64 c.place).foldl (fun s h => if h = g then s else s.stopOne 0x25 stAbortedEpoch h) s2

/-- A Rime engine takes a command into its queue (R475). -/
def State.rimeTake (d : Nat) (p : Bz) (s : State) : State :=
  match s.cmd p.func p.ring p.index with
  | none => s
  | some _ =>
    (s.modRime d (fun x => { x with queue := x.queue ++ [(p.func, p.ring, p.index)] })).syncRime d

/-- A stale Rime command ends with ABORTED_EPOCH (R492, R498). -/
def State.rimeStale (p : Bz) (s : State) : State :=
  match s.cmd p.func p.ring p.index with
  | none => s
  | some c => s.endCmd p.func p.ring { c with fail := some (c.fail.getD { status := stAbortedEpoch }) } stAbortedEpoch
      (if c.op = 0x50 then 0 else rimeNone * 2 ^ 32)

/-- BREEZE_CMD (R411, R492): a CMD packet delivers a LAUNCH to a tile or a command to a Rime engine. A sleeping unit is woken and takes it
when it is awake (R109). -/
def execBreezeCmd (k : Nat) (s : State) : Res :=
  match s.bzAt k .cmd with
  | none => .next s
  | some p =>
    let n := unitDom p.dest
    if !s.serves p.dest p.epoch then
      let s1 := (s.dropBz k).bump Reg.MC_STALE_PACKETS 1
      if 0x40 ≤ p.dest then .next (s1.launchStale (p.dest - 0x40)) else .next (s1.rimeStale p)
    else if s.domState n ≠ 0 then .next (s.wakeDomain n)
    else .next (s.takeBz k p (fun s => if 0x40 ≤ p.dest then s.tileLaunch (p.dest - 0x40) else s.rimeTake (p.dest - 0x10) p))

/-- The broadcast of an EPOCH packet reaches every requester, which holds the new epoch from then on (R493, R495);
from phase 0 on the unit drains (R496 step 2). -/
def execBreezeEpoch (k : Nat) (s : State) : Res :=
  match s.bzAt k .epoch with
  | none => .next s
  | some p =>
    let u := bits p.beat1 0 8
    .next (s.takeBz k p (fun s1 =>
      let s2 := if bits p.beat1 24 2 = 0 ∧ s1.get (Reg.MC_EPOCH_QSTATE u) = 1 then s1.set (Reg.MC_EPOCH_QSTATE u) 2 else s1
      { s2 with reqEpoch := s2.reqEpoch.setIfInBounds u (BitVec.ofNat 16 (bits p.beat1 8 16)) }))

/-- A REPORT tells the ring engine of a tile's failure: that of a LAUNCH which has its first failure already, or of a tile whose LAUNCH has ended,
is recorded as a later one (R35, R529). -/
def State.takeReport (p : Bz) (s : State) : State :=
  let g := p.src - 0x40
  let code := bits p.beat1 0 8
  let slot := bits p.beat1 8 4
  let ba := bits p.beat1 12 11
  let first : Bool := match s.launchOf g with
    | some (_, _, c) => c.fail.any (fun x => x.detail == g + 64 * slot + 32768 && x.xstatus == code && x.ba == ba)
    | none => false
  if first then s else s.laterFailure g code p.status slot ba

/-- BREEZE_REPORT (R329, R35): a REPORT reaches the ring engine. -/
def execBreezeReport (k : Nat) (s : State) : Res :=
  match s.bzAt k .report with
  | none => .next s
  | some p => .next (s.takeBz k p (State.takeReport p))

/-- BREEZE_CTRL (R329): a CTRL packet delivers an order of the controller or the power manager. Every order of the model acts on its unit
in the controller's own command, so that the packet itself changes nothing more. -/
def execBreezeCtrl (k : Nat) (s : State) : Res :=
  match s.bzAt k .ctrl with
  | none => .next s
  | some p => .next (s.takeBz k p id)

/-- The command that a packet carries completes with OK_CORRECTED (R330, R520). -/
def State.correctedPacket (p : Bz) (s : State) : State :=
  if p.kind = .cmd then s.modCmd p.func p.ring p.index (fun c => { c with corrected := true })
  else if p.kind = .report then s.markCorrected (p.src - 0x40) else s

/-- BREEZE_CRC_ERROR (R330): a unit receives packet `k` with a CRC error: it is discarded and waits to be sent again; a second error on it
is a fabric event of the unit's die branch, or of the hub. -/
def execBreezeCrcError (k unit : Nat) (s : State) : Res :=
  match s.breeze[k]? with
  | none => .next s
  | some p =>
    if p.lost then .next s
    else if p.retried then .next ((s.dropBz k).fabricFault 1 (stationDie unit) unit 0)
    else
      let s1 : State := { s with breeze := s.breeze.set k { p with retried := true, lost := true, lostAt := s.tick } }
      .next ((s1.correctedPacket p).fabricCorrected 1 unit 0)

/-- BREEZE_RESEND (R330): the sender sends packet `k` again, 4 KCLK after it was lost. -/
def execBreezeResend (k : Nat) (s : State) : Res :=
  match s.breeze[k]? with
  | none => .next s
  | some p => if p.lost ∧ s.since p.lostAt ≥ 4 then .next { s with breeze := s.breeze.set k { p with lost := false } } else .next s

/-! ### Loading and starting -/

/-- The tile issues its first bundle, or is halted before it (R191, R197); on a tile of a pinned tenancy the halt is ignored and logged (R192). -/
def State.startTile (g : Nat) (s : State) : State :=
  let s1 := s.modTile g (fun t => { t with loading := none })
  if !s1.on (Reg.TILE_DBG_CTL_LHALT g) then s1.setRun g runRunning
  else if s1.tilePinned g then (s1.logRefused (Reg.TILE_DBG_CTL_LHALT g).off 0 0x10).setRun g runRunning
  else s1.setRun g runDebug

/-- A tile section's bytes. -/
def State.sectionRead (s : State) (a o n : Nat) : List Byte := s.hbmRead (a + o) n

/-- The instruction store and the local queues that a section holds (R418); a local queue has no owner (R279). -/
def State.loadTile (g a n : Nat) (s : State) : State :=
  let code := s.sectionRead a 0 (64 * n)
  let vals := s.sectionRead a 131072 128
  let sets := s.sectionRead a 131200 256
  s.modTile g (fun x =>
    { x with
      istore := memWrite ramByte [] 0 code
      lq := (Vector.range 32).map (fun i => Queue.declared 0 (leAt vals (4 * i) 4 % 2 ^ 24) (leAt sets (8 * i) 8)) })

/-- ISTORE_LOAD_DONE (R197, R418): a tile's instruction store and local queues are loaded. A tile of a scheduled LAUNCH waits for the
common start, any other issues its first bundle. A word that cannot be corrected is a DMA exception (R339). -/
def execIstoreLoadDone (tile : Fin 64) (s : State) : Res :=
  let g := tile.val
  match (s.tile g).loading with
  | some (a, entry, n, 1) =>
    if s.domState g ≠ 0 then .next s
    else if (wordsOf a (64 * n)).any s.poisoned || (wordsOf (a + 131072) 384).any s.poisoned then
      .next (s.raiseExc g 0x20 stUncorrected 0xF a)
    else
      let s1 := s.loadTile g a n
      match s1.launchOf g with
      | some (_, _, c) =>
        if c.sched then .next (s1.modTile g (fun t => { t with loading := some (a, entry, n, 2) })) else .next (s1.startTile g)
      | none => .next s1
  | _ => .next s

/-- Every tile of the placement is loaded and every rail it needs has reached its voltage (R40, R55). -/
def State.loadedAll (s : State) (f : Nat) (c : RingCmd) : Bool :=
  (bitList 64 c.place).all (fun g =>
    (match (s.tile g).loading with
     | some (_, _, _, 2) => true
     | _ => false) && stepMv (s.ten f).step ≤ s.railMv (g / 16))

/-- The common start tick of a scheduled LAUNCH whose pre-warm begins at tick `t0` (R55): `n` tiles one after another at intervals of
0.300 A / s, each ramped to the start load, the end of the last ramp in whole nanoseconds. -/
def commonTick (t0 n slew load : Nat) : Nat :=
  t0 + (30000 * (16 * (n - 1) + load) + 16 * slew - 1) / (16 * slew)

/-- All panels of a tile ramp their drizzle to a level (R55, R420). -/
def State.rampTile (g level : Nat) (start : Word) (ns : Nat) (s : State) : State :=
  (List.range 4).foldl (fun s p => s.rampPanel g p level start ns) s

/-- The tick at which the `k`-th tile of a pre-warm begins its ramp, and how long a ramp to the start load lasts, in ns (R55). -/
def prewarmAt (t0 k slew : Nat) : Nat := t0 + (30000 * k + slew - 1) / slew
def prewarmNs (load slew : Nat) : Nat := (30000 * load + 16 * slew - 1) / (16 * slew)

/-- PREWARM (R55): the governor ramps drizzle on each tile of a scheduled LAUNCH in turn, at intervals of 0.300 A / s, up to the start load. -/
def execPrewarm (func : Fin 17) (ring : Fin 16) (index : BitVec 32) (s : State) : Res :=
  let f := func.val
  .next (s.withRunning f ring.val index.toNat 0x02 (fun c s =>
    if !c.sched ∨ c.common.isSome ∨ !s.loadedAll f c then s
    else
      let gs := bitList 64 c.place
      let slew := (s.ten f).slew
      let t0 := s.tick.toNat
      let at' := BitVec.ofNat 64 (commonTick t0 gs.length slew c.load)
      let warm := fun (s : State) (e : Nat × Nat) =>
        let start := BitVec.ofNat 64 (prewarmAt t0 e.2 slew)
        let s1 := (s.rampTile e.1 c.load start (prewarmNs c.load slew)).modDom e.1 (fun d => { d with rate := some at' })
        s1.modTile e.1 (fun t => { t with drizzleAt := if c.load = 0 then t.drizzleAt else some start })
      (((gs.zipIdx).foldl warm s).takeShare f (300 * gs.length * c.load / 16)).modCmd f ring.val c.idx (fun c => { c with common := some at' })))

/-- PINNED_COMMON_START (R55, R575): on the common tick, and on no other, every tile of a scheduled LAUNCH issues its first bundle. -/
def execPinnedCommonStart (func : Fin 17) (ring : Fin 16) (index : BitVec 32) (s : State) : Res :=
  let f := func.val
  .next (s.withRunning f ring.val index.toNat 0x02 (fun c s =>
    match c.common with
    | some t => if s.tick = t ∧ s.loadedAll f c then (bitList 64 c.place).foldl (fun s g => s.startTile g) s else s
    | none => s))

/-- LOAD_MARK (R420): a tile's cycle count has reached its next load mark, and the governor ramps its panels' drizzle to the LEVEL
inside the tenancy's share (R55). -/
def execLoadMark (tile : Fin 64) (s : State) : Res :=
  let g := tile.val
  match s.launchOf g with
  | none => .next s
  | some (f, r, c) =>
    match c.marks.find? (fun m => m.1 == g) with
    | none => .next s
    | some m =>
      if (s.tile g).cycle.toNat < m.2.1 ∨ (s.tile g).loading.isSome then .next s
      else
        let now := ((s.tile g).panel 0).levelAt s.tick
        let q := 300 * ((m.2.2 - now) + (now - m.2.2)) / 16
        let ns := rampNs q (s.shareRate f)
        .next (((s.takeShare f q).rampTile g m.2.2 s.tick ns).modCmd f r c.idx (fun c => { c with marks := c.marks.erase m }))

/-- LAUNCH_COMPLETE (R413, R189): every tile of the placement has completed its halt or stopped, and the reports of their failures have reached
the ring engine. -/
def execLaunchComplete (func : Fin 17) (ring : Fin 16) (index : BitVec 32) (s : State) : Res :=
  let f := func.val
  let r := ring.val
  .next (s.withRunning f r index.toNat 0x02 (fun c s =>
    if (bitList 64 c.place).any (fun g => s.tileBusy g || s.breeze.any (fun p => p.kind == .report && p.src == 0x40 + g)) then s
    else ((s.endCmd f r c stOK (s.issuedOf c)).settleExclusions)))

end Sys2Proof.Machine
end

