-- ==== Sys2Proof/Machine/StoreRun.lean ====
section
/-! DEFINITION. The store commands of the configuration store window (R550 to R554), the slot erase, and the effects of the image and store
requests (R556 to R562). -/

namespace Sys2Proof.Machine

/-! ### The commands of CS_CMD -/

/-- A command of CS_CMD has ended (R565). -/
def State.storeEnd (status : Nat) (s : State) : State :=
  ((s.set Reg.CS_STATUS_BUSY 0).set Reg.CS_STATUS_DONE 1).set Reg.CS_STATUS_STATUS status

/-- The bytes of CS_BUF. -/
def State.csBuf (s : State) (n : Nat) : List Byte :=
  ((List.range ((n + 7) / 8)).flatMap (fun i => leBytes 8 (s.get (Reg.CS_BUF_DATA i)))).take n

/-- Bytes are copied into CS_BUF from its byte 0; the rest stays. -/
def State.setCsBuf (bs : List Byte) (s : State) : State :=
  let words := (bs.length + 7) / 8
  let all := bs ++ (s.csBuf (8 * words)).drop bs.length
  (List.range words).foldl (fun s i => s.set (Reg.CS_BUF_DATA i) (leAt all (8 * i) 8)) s

/-- Check 1 of R551. -/
def storeForm (op addr len : Nat) : Bool :=
  match op with
  | 1 => 1 ≤ len && len ≤ 4096
  | 2 => addr % 256 == 0 && len % 256 == 0 && 256 ≤ len && len ≤ 4096 && addr / 65536 == (addr + len - 1) / 65536
  | 3 => addr % 65536 == 0 && len == 0
  | _ => false

/-- The first byte of a range that is not erased. -/
def Store.firstSet (t : Store) (addr len : Nat) : Option Nat :=
  (List.range len).findSome? (fun i => if (t.read (addr + i) 1).headD 0 = 0xFF then none else some (addr + i))

/-- A slot erase or a PLDM update holds the store (R551 check 4). -/
def State.slotBusy (s : State) : Bool := s.store.erase.isSome || s.on Reg.CS_BOOT_PLDMUPD

/-- A command of CS_CMD that passed the checks is under way. -/
def State.storeBegin (op addr len : Nat) (s : State) : State :=
  let data := if op = 2 then s.csBuf len else []
  let s1 := s.modStore (fun t => { t with op := some (op, addr, len, data) })
  let n := if op = 1 then 0 else if op = 2 then len else 65536
  (s1.unverify addr n).set Reg.CS_STATUS_BUSY 1

/-- The checks of a command in order (R551); one that passes begins. -/
def State.storeCheck (op addr len : Nat) (s : State) : State :=
  if !storeForm op addr len then s.storeEnd stBadDescriptor
  else if addr + len > 0x4000000 then s.storeEnd stBounds
  else if op ≠ 1 ∧ !s.slotWritable (addr / 0x1800000) then s.storeEnd stNotOwner
  else if s.slotBusy then s.storeEnd stNoResource
  else if op = 2 then match s.store.firstSet addr len with
    | some a => (s.set Reg.CS_STATUS_FAILADDR a).storeEnd stNotErased
    | none => s.storeBegin op addr len
  else s.storeBegin op addr len

/-- A write of CS_CMD (R550): ignored and logged while a command runs; else a command is checked. In Deep Frost it starts the exit (R566). -/
def State.storeCmd (func : Nat) (v : Word) (s : State) : State :=
  let op := bits v.toNat 0 4
  if s.on Reg.CS_STATUS_BUSY then s.logRefused Reg.CS_CMD_OP.off func v.toNat
  else if op = 0 then s
  else (s.storeCheck op (s.get Reg.CS_ADDR_ADDR) (bits v.toNat 16 13)).wakeFrost

/-- The store window takes writes: after Ready, and in recovery hold (R150, R153). -/
def State.whenStoreUp (k : State → State) (s : State) : State :=
  if s.phase = .recovery ∧ s.hostUp then k s else s.whenReady k

/-- A write of CS_CMD with an OP and a LEN. -/
def storeWord (op : Nat) (len : BitVec 13) : Word := BitVec.ofNat 64 (op + 65536 * len.toNat)

/-- READ (R550). -/
def execRead (len : BitVec 13) (s : State) : Res := .next (s.whenStoreUp (State.storeCmd 0 (storeWord 1 len)))

/-- PROGRAM (R552). -/
def execProgram (len : BitVec 13) (s : State) : Res := .next (s.whenStoreUp (State.storeCmd 0 (storeWord 2 len)))

/-- ERASE (R550). -/
def execErase (len : BitVec 13) (s : State) : Res := .next (s.whenStoreUp (State.storeCmd 0 (storeWord 3 len)))

/-- STORE_READ_DONE (R550): the bytes stand in CS_BUF. -/
def execStoreReadDone (s : State) : Res :=
  match s.store.op with
  | some (1, a, n, _) =>
    if s.frost ≠ .awake then .next s
    else .next (((s.setCsBuf (s.store.read a n)).modStore (fun t => { t with op := none })).storeEnd stOK)
  | _ => .next s

/-- A failed program or erase is recorded in the provider's ring. -/
def State.storeFailed (addr : Nat) (s : State) : State :=
  s.logEvent { kind := 0x01, status := stInternal
               body := leBytes 4 Reg.CS_CMD_OP.off ++ [0x1F] ++ zeros 3 ++ leBytes 8 addr }

/-- Bytes whose program or erase failed: free values. -/
def State.spoilStore (addr len : Nat) (s : State) : State :=
  let bs := (Config.freeBytes s.free len).toList
  (s.draw).modStore (fun t => t.program addr bs)

/-- STORE_OP_DONE (R547, R550): the die has finished a program or an erase, or reports that it failed. -/
def execStoreOpDone (ok : Bool) (s : State) : Res :=
  let clear := fun (s : State) => s.modStore (fun t => { t with op := none })
  match s.store.op with
  | some (2, a, n, d) =>
    if s.frost ≠ .awake then .next s
    else if ok then .next ((clear (s.modStore (fun t => t.program a d))).storeEnd stOK)
    else .next (((clear (s.spoilStore a n)).storeEnd stInternal).storeFailed a)
  | some (3, a, _, _) =>
    if s.frost ≠ .awake then .next s
    else if ok then .next ((clear (s.modStore (fun t => t.eraseSector (a / 65536)))).storeEnd stOK)
    else .next (((clear (s.spoilStore a 65536)).storeEnd stInternal).storeFailed a)
  | _ => .next s

/-! ### The slot erase -/

/-- A slot erase begins with its first sector (R562). -/
def State.startErase (slot : Nat) (s : State) : State :=
  ((s.modStore (fun t => { t with erase := some (slot, 0) })).set (verFld slot) 0).set Reg.CS_STATUS_ERASING 1 |>.set Reg.CS_STATUS_ERASED 0

/-- A slot erase has ended. -/
def State.endErase (s : State) : State := (s.modStore (fun t => { t with erase := none })).set Reg.CS_STATUS_ERASING 0

/-- ERASE_SECTOR_DONE (R562): a sector is erased and the next one begins; a failure ends the slot erase. -/
def execEraseSectorDone (ok : Bool) (s : State) : Res :=
  match s.store.erase with
  | none => .next s
  | some (slot, k) =>
    let n := 384 * slot + k
    if s.frost ≠ .awake then .next s
    else if ok then
      let s1 := (s.modStore (fun t => { t.eraseSector n with erase := some (slot, k + 1) })).set Reg.CS_STATUS_ERASED (k + 1)
      .next (if k + 1 = 384 then s1.endErase else s1)
    else .next ((((s.spoilStore (65536 * n) 65536).endErase).set Reg.CS_STATUS_STATUS stInternal).storeFailed (65536 * n))

/-! ### Image requests -/

/-- The verify result of a slot (R562). -/
def State.verifyResult (s : State) (slot : Nat) : List Byte :=
  let (check, comp, _) := s.imageVerdict slot
  let m := s.manifest slot
  let head := [BitVec.ofNat 8 check, BitVec.ofNat 8 comp]
  if check = 1 then head ++ zeros 30
  else
    let flags := b2n (s.domainSafe slot) + 2 * b2n (s.trainFw slot == s.trainFw (s.get Reg.CS_BOOT_ACTIVE)) + 4 * b2n (manAuto m)
    head ++ [BitVec.ofNat 8 flags, 0] ++ leBytes 2 (manVer m) ++ [0, 0] ++ leBytes 4 (manImg m) ++ leBytes 4 (manLo m) ++ leBytes 4 (manHi m) ++
      [BitVec.ofNat 8 (manSvn m), BitVec.ofNat 8 (manOsvn m)] ++ zeros 10

/-- VERIFY (R556, R562): on a pass the slot's VERIFIED bit is set. -/
def State.verifySlot (slot : Nat) (s : State) : State × Nat :=
  let v := (s.imageVerdict slot).2.2
  (if v = stOK then s.set (verFld slot) 1 else s, v)

/-- What refuses an ACTIVATE (R562, R564). -/
def State.activateRefusal (s : State) (slot : Nat) (force : Bool) : Option Nat :=
  if !s.slotWritable slot then some stNotOwner
  else if !s.on (verFld slot) || s.on Reg.CS_BOOT_TRIAL then some stNoResource
  else if !s.check5 slot then some stRollback
  else if s.on Reg.LNK_DOM_CFG_EN && !s.domainSafe slot && !force then some stNoResource
  else none

/-- ACTIVATE (R562): one boot record names the slot, as a trial outside recovery hold. -/
def State.activateSlot (slot : Nat) (s : State) : State :=
  let old := s.get Reg.CS_BOOT_ACTIVE
  let s1 := (((s.set Reg.CS_BOOT_ACTIVE slot).set Reg.CS_BOOT_PREV old).set Reg.CS_BOOT_TRIES 0).set Reg.CS_BOOT_TRIAL
    (b2n (s.phase != .recovery))
  (s1.modStore (fun t => { t with pver := t.aver, aver := manImg (s.manifest slot) })).record 1

/-- CONFIRM (R561): the trial ends; no change where there is none. -/
def State.confirmTrial (s : State) : State :=
  if s.on Reg.CS_BOOT_TRIAL then ((s.set Reg.CS_BOOT_TRIAL 0).set Reg.CS_BOOT_TRIES 0).record 1 else s

/-- Slots whose image would now fail check 5 lose their VERIFIED bit (R562). -/
def State.afterCommit (s : State) : State :=
  let s1 := (s.set Reg.CS_ROLLBACK_DRAUSH (s.rollback 0)).set Reg.CS_ROLLBACK_OWNER (s.rollback 1)
  [0, 1].foldl (fun s k => if s.on (verFld k) && !s.check5 k then s.set (verFld k) 0 else s) s1

/-- FUSE_BIT_BLOWN (R557): a bit is blown and reads so through both sense paths; the next one begins, or COMMITSVN is answered. A bit that
does not read blown ends the commit with INTERNAL. -/
def execFuseBitBlown (ok : Bool) (s : State) : Res :=
  match s.mbx, s.commitNext with
  | some (0x56, tag, _), some i =>
    if !ok then .next (s.afterCommit.mbxAnswer stInternal tag [])
    else
      let s1 := (s.blowBit i).afterCommit
      .next (if s1.commitNext.isNone then s1.mbxAnswer stOK tag [] else s1)
  | _, _ => .next s

/-- What refuses an OWNERKEY (R558). -/
def State.ownerRefusal (s : State) (key sig : List Byte) : Option Nat :=
  let cur := s.store.ownerKey
  let digest := sha384 (key ++ leBytes 8 (s.get Reg.ID_UNIT_SERIAL))
  if !allZero key && (p384Key key).isNone then some stBadDescriptor
  else if (cur.isEmpty && !allZero sig) || (!cur.isEmpty && !ecdsaValid cur digest sig) then some stNotOwner
  else if !allZero key && !s.ownerSigned (s.get Reg.CS_BOOT_ACTIVE) key then some stNoResource
  else none

/-- OWNERKEY (R558): the owner record is written, and no slot stays VERIFIED. -/
def State.setOwner (key : List Byte) (s : State) : State :=
  let s1 := (s.modStore (fun t => { t with ownerKey := if allZero key then [] else key })).record 2
  (s1.unset [Reg.CS_BOOT_VERA, Reg.CS_BOOT_VERB]).set Reg.CS_BOOT_OWNERKEY (b2n (!allZero key))

end Sys2Proof.Machine
end

