-- ==== Sys2Proof/Machine/Mailbox.lean ====
section
/-! DEFINITION. The setup mailbox (R506 to R508) with its image and store requests (R562), the end of service that it asks for (R63, R154),
and the controller's failure (R517). -/

namespace Sys2Proof.Machine

/-! ### The requests -/

/-- A request as the controller read it at GO: opcode, tag, length, payload byte i (offset 8 + i). -/
def reqOp (r : List Byte) : Nat := leAt r 0 1
def reqTag (r : List Byte) : Nat := leAt r 2 2
def reqLen (r : List Byte) : Nat := leAt r 4 4
def reqByte (r : List Byte) (i : Nat) : Nat := leAt r (8 + i) 1

/-- The length of each request's payload (R507, R562); none for an opcode that is not used. -/
def reqLength (op : Nat) : Option Nat :=
  match op with
  | 0x01 | 0x30 | 0x50 | 0x54 | 0x55 | 0x56 => some 0
  | 0x02 | 0x40 | 0x51 | 0x52 => some 1
  | 0x20 | 0x53 => some 2
  | 0x10 => some 3
  | 0x57 => some 193
  | _ => none

/-- Every powered unit and every tenancy, for a restart or a power-off (R519). -/
def State.allUnits (s : State) : List Nat :=
  (List.range 256).filter (fun u => isUnit u && (if u < 0xC0 then s.unitPowered u else s.tnState (u - 0xC0) != 0))

/-- Every ring of every function runs as EN 0 does (R436). -/
def State.stopRings (s : State) : State :=
  ringNumbers.foldl (fun s p =>
    if s.ringState p.1 p.2 = ringOff ∨ s.ringState p.1 p.2 = ringStopping then s else s.stopRing p.1 p.2) s

/-- The end of service waits for the quiesce of every unit, or comes at once where none is powered (R63, R154). For a restart every ring stops
first (R436). -/
def State.askEnd (off : Bool) (s : State) : State :=
  let q : Quiesce := { units := s.allUnits, reason := if off then 7 else 6, whom := if off then .powerOff else .restart }
  if s.allUnits.isEmpty then s.afterQuiesce q else (if off then s else s.stopRings).askQuiesce q

/-- A restart or a power-off is under way. -/
def State.ending (s : State) : Bool := s.quiesces.any (fun q => q.whom == .restart || q.whom == .powerOff)

/-- STATUS (R507): four registers as they read. -/
def State.statusWords (s : State) : List Byte :=
  [Reg.row_BRU_STATUS, Reg.row_MC_STATUS, Reg.row_PWR_IN_STATUS, Reg.row_PWR_THERMAL].flatMap (fun r => leBytes 8 (s.wordOf (r.fields 0 0)))

/-- TENANCY (R507): the step as TN_CTL takes it; STOP and DESTROY are answered when they end. -/
def State.mbxTenancy (tag t op debug : Nat) (s : State) : State :=
  if t > 16 ∨ op = 0 ∨ op > 4 ∨ (op = 1 ∧ debug > 2) then s.mbxAnswer stBadDescriptor tag []
  else
    let s1 := s.writeTnCtl 0 t op debug (BitVec.ofNat 64 (op + 16 * debug))
    let st := s1.get (Reg.TN_STATE_LASTSTATUS t)
    if op ≥ 3 ∧ st = stOK then { s1 with mbx := some (0x10, tag, t) }
    else s1.mbxAnswer st tag (if st = stOK then leBytes 8 (s1.wordOf (Reg.row_TN_STATE.fields t 0)) else [])

/-- The units that QUIESCE accepts (R508). -/
def State.canQuiesce (s : State) (u : Nat) : Bool :=
  (0x40 ≤ u && u < 0x80 && s.tileMapped (u - 0x40)) ||
  (0x10 ≤ u && u < 0x14 && s.on (Reg.PWR_DOM_ID_PRESENT (52 + u)) && !s.excluded.contains u) ||
  (0x08 ≤ u && u < 0x10 && s.stackMapped (u - 8)) || (0x80 ≤ u && u < 0xC0 && s.linkMapped (u - 0x80))

/-- A held unit is in service again (R508). -/
def State.unhold (u : Nat) (s : State) : State :=
  let s1 := (s.set (Reg.MC_EPOCH_QSTATE u) 0).sendEpoch u 2 0 31
  if 0x80 ≤ u then s1.linkSettle (u - 0x80) else s1

/-- QUIESCE (R508): action 0 resets and releases, 1 fences and holds, 2 releases a held unit. -/
def State.mbxQuiesce (tag u action : Nat) (s : State) : State :=
  if !s.canQuiesce u ∨ action > 2 then s.mbxAnswer stBadDescriptor tag []
  else if action = 2 then
    if s.unitHeld u then (s.unhold u).mbxAnswer stOK tag (leBytes 8 ((s.unhold u).epochWord u)) else s.mbxAnswer stNoResource tag []
  else ({ s with mbx := some (0x20, tag, u) } : State).askQuiesce { units := [u], reason := 0, hold := action == 1, whom := .mailbox }

/-- SNAPSHOT (R303): answered when the records are written. -/
def State.mbxSnapshot (tag : Nat) (s : State) : State := { s.takeSnapshot with mbx := some (0x30, tag, 0) }

/-- POWER (R507): 1 enter Deep Frost, 2 leave it, 3 power off, 4 restart. -/
def State.mbxPower (tag action : Nat) (s : State) : State :=
  match action with
  | 1 => s.enterFrost.1.mbxAnswer s.enterFrost.2 tag []
  | 2 => s.mbxAnswer stOK tag []
  | 3 | 4 => if s.ending then s.mbxAnswer stNoResource tag [] else ({ s with mbx := some (0x40, tag, 0) } : State).askEnd (action == 3)
  | _ => s.mbxAnswer stBadDescriptor tag []

/-- The image and store requests (R562). One that finds a slot erase, a PLDM update or a store command is refused; one that fails changes
nothing. -/
def State.mbxStore (r : List Byte) (s : State) : State :=
  let tag := reqTag r
  let slot := reqByte r 0
  let no := fun (st : Nat) => s.mbxAnswer st tag []
  if s.slotBusy ∨ s.store.op.isSome then no stNoResource
  else match reqOp r with
    | 0x50 => s.mbxAnswer stOK tag (s.bootBody.take 16 ++
        [Reg.row_CS_BOOT, Reg.row_CS_ACTIVE, Reg.row_CS_WINDOW, Reg.row_CS_ROLLBACK].flatMap (fun w => leBytes 8 (s.wordOf (w.fields 0 0))))
    | 0x51 => if slot > 1 then no stBadDescriptor else if !s.slotWritable slot then no stNotOwner else (s.startErase slot).mbxAnswer stOK tag []
    | 0x52 => if slot > 1 then no stBadDescriptor else (s.verifySlot slot).1.mbxAnswer (s.verifySlot slot).2 tag (s.verifyResult slot)
    | 0x53 =>
      let flags := reqByte r 1
      if slot > 1 ∨ flags > 3 then no stBadDescriptor
      else match s.activateRefusal slot (bitAt flags 1) with
        | some st => no st
        | none =>
          let s1 := (s.activateSlot slot).mbxAnswer stOK tag []
          if bitAt flags 0 && !s.ending then s1.askEnd false else s1
    | 0x54 => if s.phase = .ready then s.confirmTrial.mbxAnswer stOK tag [] else no stNoResource
    | 0x55 => if s.on Reg.CS_BOOT_TRIAL then ((s.revertBoot 3).record 1).mbxAnswer stOK tag [] else no stNoResource
    | 0x56 =>
      if s.on Reg.CS_BOOT_TRIAL ∨ s.phase = .recovery then no stNoResource
      else if s.commitNext.isNone then s.afterCommit.mbxAnswer stOK tag []
      else { s with mbx := some (0x56, tag, 0) }
    | _ =>
      let key := slice r 8 97
      match s.ownerRefusal key (slice r 105 96) with
      | some st => no st
      | none => (s.setOwner key).mbxAnswer stOK tag []

/-- What the controller answers now: before Ready only status requests, image and store requests in recovery hold, and after a halt a
restart (R150, R152, R153). -/
def State.mbxAllowed (s : State) (r : List Byte) : Bool :=
  s.phase == .ready || reqOp r == 0x01 || (s.phase == .recovery && 0x50 ≤ reqOp r && reqOp r ≤ 0x57) ||
    ((s.phase == .recovery || s.phase == .halted) && reqOp r == 0x40 && reqByte r 0 == 4)

/-- A request is served. -/
def State.mbxServe (r : List Byte) (s : State) : State :=
  let tag := reqTag r
  if !s.mbxAllowed r then s.mbxAnswer stNoResource tag []
  else match reqLength (reqOp r) with
    | none => s.mbxAnswer stBadOpcode tag []
    | some n =>
      if reqLen r ≠ n ∨ leAt r 1 1 ≠ 0 then s.mbxAnswer stBadDescriptor tag []
      else match reqOp r with
        | 0x01 => s.mbxAnswer stOK tag s.statusWords
        | 0x02 => s.mbxAnswer stOK tag (leBytes 8 (s.epochWord (reqByte r 0)))
        | 0x10 => s.mbxTenancy tag (reqByte r 0) (reqByte r 1) (reqByte r 2)
        | 0x20 => s.mbxQuiesce tag (reqByte r 0) (reqByte r 1)
        | 0x30 => s.mbxSnapshot tag
        | 0x40 => s.mbxPower tag (reqByte r 0)
        | _ => s.mbxStore r

/-- A request waits: for the exit from Deep Frost (R122), or for the end of a quiesce under way of the unit that it names (R505). -/
def State.mbxWaits (s : State) (r : List Byte) : Bool :=
  s.frost != .awake || (s.phase == .ready && ((reqOp r == 0x20 && s.inQuiesce (reqByte r 0)) ||
    (reqOp r == 0x10 && reqByte r 0 ≤ 16 && s.inQuiesce (0xC0 + reqByte r 0))))

/-- A request that waited is taken once nothing holds it. -/
def State.mbxResume (s : State) : State :=
  if s.mbxHeld.isEmpty ∨ s.mbxWaits s.mbxHeld then s else ({ s with mbxHeld := [] } : State).mbxServe s.mbxHeld

/-- GO (R506): the controller reads the whole request; ignored and logged while one runs. A request starts the exit from Deep Frost. -/
def State.mbxGo (func : Nat) (s : State) : State :=
  if s.on Reg.MC_MBX_STATUS_BUSY then s.logRefused Reg.MC_MBX_CTL_GO.off func 1
  else
    let r := (List.range 32).flatMap (fun i => leBytes 8 (s.get (Reg.MC_MBX_REQ_DATA i)))
    ({ (s.set Reg.MC_MBX_STATUS_BUSY 1).wakeFrost with mbxHeld := r } : State).mbxResume

/-- A write of MC_MBX_CTL. -/
def State.writeMbxCtl (func : Nat) (part : Part) (v : Word) (s : State) : State :=
  let s1 := s.putWord [Reg.MC_MBX_CTL_IRQEN] part v
  if bitAt (partOf 0 part v) 0 then s1.mbxGo func else s1

/-- The provider writes a request into MC_MBX_REQ and sets GO. -/
def State.mbxRequest (op : Nat) (tag : BitVec 16) (payload : List Byte) (s : State) : State :=
  let p := payload.take 248
  let bytes := [BitVec.ofNat 8 op, 0] ++ leBytes 2 tag.toNat ++ leBytes 4 p.length ++ p
  let s1 := (List.range ((bytes.length + 7) / 8)).foldl (fun s i => s.set (Reg.MC_MBX_REQ_DATA i) (leAt bytes (8 * i) 8)) s
  s1.mbxGo 0

/-! ### The rows -/

/-- STATUS (R507). -/
def execStatus (tag : BitVec 16) (s : State) : Res := .next (s.whenHostUp (State.mbxRequest 0x01 tag []))

/-- EPOCHREAD (R507). -/
def execEpochread (tag : BitVec 16) (unit : Byte) (s : State) : Res := .next (s.whenHostUp (State.mbxRequest 0x02 tag [unit]))

/-- TENANCY (R507). -/
def execTenancy (tag : BitVec 16) (t op debug : Byte) (s : State) : Res := .next (s.whenHostUp (State.mbxRequest 0x10 tag [t, op, debug]))

/-- QUIESCE with action 0 (R508). -/
def execQuiesceResetRelease (tag : BitVec 16) (unit : Byte) (s : State) : Res := .next (s.whenHostUp (State.mbxRequest 0x20 tag [unit, 0]))

/-- QUIESCE with action 1 (R508). -/
def execQuiesceFenceHold (tag : BitVec 16) (unit : Byte) (s : State) : Res := .next (s.whenHostUp (State.mbxRequest 0x20 tag [unit, 1]))

/-- QUIESCE with action 2 (R508). -/
def execQuiesceReleaseHeld (tag : BitVec 16) (unit : Byte) (s : State) : Res := .next (s.whenHostUp (State.mbxRequest 0x20 tag [unit, 2]))

/-- SNAPSHOT (R303). -/
def execSnapshot (tag : BitVec 16) (s : State) : Res := .next (s.whenHostUp (State.mbxRequest 0x30 tag []))

/-- POWER action 1 (R121). -/
def execPowerDeepFrostEnter (tag : BitVec 16) (s : State) : Res := .next (s.whenHostUp (State.mbxRequest 0x40 tag [1]))

/-- POWER action 2 (R122). -/
def execPowerDeepFrostLeave (tag : BitVec 16) (s : State) : Res := .next (s.whenHostUp (State.mbxRequest 0x40 tag [2]))

/-- POWER action 3 (R63). -/
def execPowerOff (tag : BitVec 16) (s : State) : Res := .next (s.whenHostUp (State.mbxRequest 0x40 tag [3]))

/-- POWER action 4 (R154). -/
def execPowerRestart (tag : BitVec 16) (s : State) : Res := .next (s.whenHostUp (State.mbxRequest 0x40 tag [4]))

/-- SLOTINFO (R562). -/
def execSlotinfo (tag : BitVec 16) (s : State) : Res := .next (s.whenHostUp (State.mbxRequest 0x50 tag []))

/-- ERASESLOT (R562). -/
def execEraseslot (tag : BitVec 16) (slot : Byte) (s : State) : Res := .next (s.whenHostUp (State.mbxRequest 0x51 tag [slot]))

/-- VERIFY (R556, R562). -/
def execVerify (tag : BitVec 16) (slot : Byte) (s : State) : Res := .next (s.whenHostUp (State.mbxRequest 0x52 tag [slot]))

/-- ACTIVATE (R562, R564). -/
def execActivate (tag : BitVec 16) (slot flags : Byte) (s : State) : Res := .next (s.whenHostUp (State.mbxRequest 0x53 tag [slot, flags]))

/-- CONFIRM (R561). -/
def execConfirm (tag : BitVec 16) (s : State) : Res := .next (s.whenHostUp (State.mbxRequest 0x54 tag []))

/-- REVERT (R561). -/
def execRevert (tag : BitVec 16) (s : State) : Res := .next (s.whenHostUp (State.mbxRequest 0x55 tag []))

/-- COMMITSVN (R557, R562). -/
def execCommitsvn (tag : BitVec 16) (s : State) : Res := .next (s.whenHostUp (State.mbxRequest 0x56 tag []))

/-- OWNERKEY (R558, R562): the new key and the signature under the current one. -/
def execOwnerkey (tag : BitVec 16) (key sig : List Byte) (s : State) : Res :=
  .next (s.whenHostUp (State.mbxRequest 0x57 tag (key ++ sig)))

/-- PQ_SNAP_DONE (R303): the records are in PQ_SNAP. A mailbox SNAPSHOT that waits for them is answered. -/
def execPqSnapDone (s : State) : Res :=
  if s.on Reg.PQ_SNAP_CTL_BUSY then
    let s1 := (List.range 64).foldl (fun s g => (List.range 4).foldl (fun s w =>
      s.set (Reg.PQ_SNAP_DATA (4 * g + w)) (leAt (s.snap.getD g []) (8 * w) 8)) s) s
    let s2 := (({ s1 with snap := [] } : State).set Reg.PQ_SNAP_CTL_BUSY 0).set Reg.PQ_SNAP_CTL_DONE 1
    match s.mbx with
    | some (0x30, tag, _) => .next (s2.mbxAnswer stOK tag [])
    | _ => .next s2
  else .next s

/-- The controller has failed of a cause: ALERT# is asserted, and the byte that GETSTATUS answers is a free value (R517). -/
def State.failed (cause : Fin 3) (s : State) : State :=
  { s.draw with
    pins := { s.pins with alert := true }
    boot := { s.boot with ctrl := cause.val + 1, ctrlDraw := s.free } }

/-- CONTROLLER_FAILURE (R517): cause 0 lockstep, 1 SRAM, 2 watchdog. ALERT#, INTERNAL on every unfinished command, every switch open, the
stop record, Start wait as after a supply stop. PWR_SUPPLY_EVENT stays. -/
def execControllerFailure (cause : Fin 3) (s : State) : Res :=
  if !s.powered ∨ s.phase = .charging ∨ s.phase = .thermalWait then .next s
  else
    .next (((s.cutAll (fun _ _ => true) 0 stInternal).blowStarted.cutStore.loseAll.failed cause).latchStop [0xF0, BitVec.ofNat 8 (cause.val + 1)])

end Sys2Proof.Machine
end

