-- ==== Sys2Proof/Machine/MxIssue.lean ====
section
/-! DEFINITION. The M slot at issue: what it reads (R212, R221), the checks of R223, R215 and R243, its stalls (R222), and the operation's
way into the queues. -/

namespace Sys2Proof.Machine

/-- MCFG as it stands (R226). -/
def State.mxCfg (s : State) (g : Nat) : Nat :=
  s.get (Reg.TILE_MX_CFG_GANG g) + 4 * s.get (Reg.TILE_MX_CFG_CUBE g) + 8 * s.get (Reg.TILE_MX_CFG_FMTA g) +
    64 * s.get (Reg.TILE_MX_CFG_FMTB g) + 512 * s.get (Reg.TILE_MX_CFG_ACC g) + 2048 * s.get (Reg.TILE_MX_CFG_FEED g)

/-- The panels whose queues an operation enters: all four for MDRZ with ALL and for MLOAD in Quad-share (R220, R222). -/
def queuePanels (c w : Nat) : List Nat :=
  if (wOp w == 7 && mAll w) || (wOp w == 2 && cGang c == 1) then [0, 1, 2, 3] else [mPanel w]

/-- An operation as it is queued, with what it reads at issue. -/
def State.mxOp (s : State) (g w : Nat) : MxOp :=
  let t := s.tile g
  let a := (t.ar (mA w)).toNat
  let a2 := (t.ar (mA2 w)).toNat
  let rd := fun (x : Nat) => t.engineRead (s.free + x) x 64
  { seq := 2 * s.get (Reg.TILE_PERF_ISSUED g)
    word := w
    cfg := s.mxCfg g
    desc := if wOp w = 3 ∨ wOp w = 6 then rd a ++ (if wOp w = 3 ∧ mPre w ≠ 0 then rd a2 else []) else []
    args := [a, a2, (t.gr (mG w)).toNat]
    ba := s.get (Reg.TILE_STATE_BA g) }

/-- The bundle stalls for the matrix engine (R222). -/
def Tile.mxStall (t : Tile) (c w : Nat) : Bool :=
  let idle := fun (p : Nat) => (t.panel p).queue.isEmpty && (t.panel p).readq.isEmpty
  match wOp w with
  | 0 | 9 => false
  | 1 => !(List.range 4).all idle
  | 8 => if mAll w then !(List.range 4).all idle else !idle (mPanel w)
  | 4 | 5 => (t.panel (mPanel w)).readq.length ≥ 4
  | _ => (queuePanels c w).any (fun p => (t.panel p).queue.length ≥ 4)

/-! ### Descriptor checks -/

/-- A field of a stream descriptor is out of range, misaligned or reserved, or its mode is not legal (R204, R212, R223). -/
def streamBad (c : Nat) (d : List Byte) : Bool :=
  let m := xMode d
  (if cCube c then m != 2 else m != 0 && m != 1) || (cFeed c && m != 0) ||
  (if m = 2 then xRows d != 0 else xRows d == 0 || xRows d > 64) ||
  xBase d % 64 != 0 || xRstride d % 64 != 0 || leAt d 30 2 != 0 || leAt d 53 11 != 0 ||
  (m == 1 && (xIH d == 0 || xIW d == 0 || xOW d == 0 || xOX0 d ≥ xOW d || xSY d == 0 || xSX d == 0 || xDY d == 0 || xDX d == 0 ||
    xPstride d % 64 != 0 || xChoff d % 64 != 0)) ||
  (m == 2 && (xBbase d % 64 != 0 || xKsteps d == 0 || xBstride d % 64 != 0 || xQuad d > 3))

/-- An extent of `n` rows of `len` bytes, `st` apart, leaves the scratchpad (R215). -/
def outside (a : Nat) (st : Int) (n len : Nat) : Bool :=
  let e : Int := a + ((n : Int) - 1) * st
  decide (min (a : Int) e < 0) || decide (max (a : Int) e + len > 0x800000)

/-- The extent of a pass leaves the scratchpad (R215). -/
def streamOutside (c : Nat) (d : List Byte) : Bool :=
  let rb := cRowBytes c
  if cCube c then outside (xBase d) (xRstride d) (xKsteps d) rb || outside (xBbase d) (xBstride d) (xKsteps d) rb
  else if xMode d = 1 then
    decide (xBase d + ((xIH d - 1) * xIW d + xIW d - 1) * xPstride d + xChoff d + rb > 0x800000)
  else outside (xBase d) (xRstride d) (passWords c d) rb

/-- The streams of a pass: the descriptors of aA and, with PRE, of aA2, which describe one stream of the same mode and length. DESIGN CHOICE:
a descriptor that itself lies outside the scratchpad is BOUNDS, with fault address 0; the spec names no status for it. -/
def MxOp.streamCheck (o : MxOp) : Option (Nat × Nat) :=
  let ds := [(o.aA, o.desc1)] ++ (if o.desc2.isEmpty then [] else [(o.aA2, o.desc2)])
  if ds.any (fun e => e.1 % 64 != 0 || e.1 + 64 ≤ 0x800000 && streamBad o.cfg e.2) ||
      (!o.desc2.isEmpty && (xMode o.desc1 != xMode o.desc2 || xRows o.desc1 != xRows o.desc2 || xKsteps o.desc1 != xKsteps o.desc2))
  then some (stBadDescriptor, o.aA)
  else if ds.any (fun e => e.1 + 64 > 0x800000 || streamOutside o.cfg e.2) then some (stBounds, 0) else none

/-- The block of MLOAD, MREAD or MSPILL: alignment (R210, R223), then its extent (R215). -/
def MxOp.blockCheck (o : MxOp) : Option (Nat × Nat) :=
  let as := [o.aA] ++ (if o.op = 2 ∧ mPre o.word ≠ 0 then [o.aA2] else [])
  let n := if o.op = 2 then cCells o.cfg * cCpe o.cfg else 64
  let len := if o.op = 2 then cCells o.cfg * fmtSize (cFb o.cfg) else cCells o.cfg * (if o.op = 5 then 8 else readSize (cAcc o.cfg))
  if as.any (fun a => a % 64 != 0) || o.stride % 64 != 0 then some (stBadDescriptor, o.aA)
  else if as.any (fun a => outside a o.stride n len) then some (stBounds, 0) else none

/-- The first check that an M-slot operation fails at issue: status and fault address (R223, R243). -/
def State.mxCheck (s : State) (g w : Nat) : Option (Nat × Nat) :=
  let t := s.tile g
  let o := s.mxOp g w
  let c := o.cfg
  let op := wOp w
  let bad := some (stBadOpcode, 0)
  let fmt := if op = 2 then cFb c else cFa c
  if op < 2 ∨ op > 6 then none
  else if cGang c == 2 && mPanel w != 0 then bad
  else if (op == 2 || op == 3) && ((mPiece w != 0) != (fmt == 5) || (mPre w != 0 && fmt > 1)) then bad
  else if op == 3 && mDual w && !(cFa c ≤ 1 && cFb c ≤ 1 && mPre w == 1) then bad
  else if op == 3 && !cCube c && !(t.panel (mPanel w)).willBeLoaded then bad
  else if op == 6 && (cGang c == 2 || cCube c || cAcc c != 0 || cFa c > 3 || cFeed c || xMode o.desc == 2) then bad
  else if (match claimAfter (s.claim g) t.vq with | some b => o.banks.contains b | none => false) then bad
  else if op = 3 ∨ op = 6 then o.streamCheck else o.blockCheck

/-- An M-slot operation takes effect at issue: MCFG sets the arrangement, mode, formats and feed and unloads every panel; the others
enter their queues (R221, R222). -/
def State.mxIssue (g w : Nat) (s : State) : State :=
  let o := s.mxOp g w
  let op := wOp w
  if op = 1 then
    let c := mCfg w
    let s1 := ((((((s.set (Reg.TILE_MX_CFG_GANG g) (cGang c)).set (Reg.TILE_MX_CFG_CUBE g) (b2n (cCube c))).set
      (Reg.TILE_MX_CFG_FMTA g) (cFa c)).set (Reg.TILE_MX_CFG_FMTB g) (cFb c)).set (Reg.TILE_MX_CFG_ACC g) (cAcc c)).set
      (Reg.TILE_MX_CFG_FEED g) (b2n (cFeed c)))
    (s1.modTile g Tile.unload).syncMx g
  else if op = 4 ∨ op = 5 then
    (s.modTile g (fun t => t.modPanel (mPanel w) (fun p => { p with readq := p.readq ++ [o] }))).syncMx g
  else if op = 2 ∨ op = 3 ∨ op = 6 ∨ op = 7 then
    (s.modTile g (fun t => (queuePanels o.cfg w).foldl (fun t p => t.modPanel p (fun x => { x with queue := x.queue ++ [o] })) t)).syncMx g
  else s

end Sys2Proof.Machine
end

