-- ==== Sys2Proof/Machine/Matrix.lean ====
section
/-! DEFINITION. The matrix engine's operations as they run: stationary loads (R210), passes (R201 to R204, R232 to R234) with the checksum
compare (R219), read-outs (R235), spills (R237), moment passes (R244), drizzle (R56, R220). -/

namespace Sys2Proof.Machine

/-! ### Errors met by an engine -/

/-- The LAUNCH of a tile whose engine met an uncorrectable error stops (R184): the word's address is recorded. -/
def State.engineSram (g addr : Nat) (s : State) : State := (s.spUncorrected g addr).raiseExc g 0x22 stUncorrected 0xF addr

/-- A parity error of an accumulator entry: the event names panel, bank and row (R184). -/
def State.engineParity (g panel bank row : Nat) (s : State) : State :=
  ((s.countUncorrected g (4 * (4096 * panel + 2048 * bank + row) + 2)).sramEvent g 2 0 panel bank row 2 stUncorrected).raiseExc g 0x22
    stUncorrected 0xF 0

/-- Corrected words that an operation met. -/
def State.engineCorrected (g : Nat) (e : EngErr) (s : State) : State :=
  match e with
  | .corrected a => s.spCorrected g a
  | _ => s

/-! ### Starting and ending -/

/-- The head of a panel's stream queue, when it can start (R222, R272). A pass that a debug halt finds in its queue starts only after resume
(R252). -/
def State.mxHead (s : State) (g p : Nat) (op : Nat) : Option MxOp :=
  let t := s.tile g
  match (t.panel p).queue with
  | [] => none
  | o :: _ =>
    let held := o.isPass && s.run g == runDebug
    let together := o.op != 2 || cGang o.cfg != 1 || (List.range 4).all (fun q => (((t.panel q).queue.head?).map (·.seq)) == some o.seq)
    if o.op = op ∧ !t.mxBlocked o ∧ together ∧ !held ∧ s.domState g = 0 then some o else none

/-- The head of a panel's read-out queue, when it can start. -/
def State.mxReadHead (s : State) (g p : Nat) (op : Nat) : Option MxOp :=
  let t := s.tile g
  match (t.panel p).readq with
  | [] => none
  | o :: _ => if o.op = op ∧ !t.mxBlocked o ∧ s.domState g = 0 then some o else none

/-- The tile runs a scheduled LAUNCH. -/
def State.tileSched (s : State) (g : Nat) : Bool := match s.launchOf g with | some (_, _, c) => c.sched | none => false

/-- Automatic drizzle of a panel gives way (R56); the level that a load mark set stands. -/
def State.drizzleYields (g p : Nat) (s : State) : State :=
  if s.tileSched g then s
  else (s.modTile g (fun t => t.modPanel p (fun x => { x with drizzle := 0, drizzleLeft := 0, ramp := none }))).syncDrizzle g

/-- An operation leaves the stream queues of its panels. -/
def State.mxPop (g : Nat) (o : MxOp) (s : State) : State :=
  (s.modTile g (fun t => { t with panels := t.panels.map (fun p => { p with queue := p.queue.filter (fun x => x.seq != o.seq) }) })).syncMx g

/-- An operation leaves its read-out queue. -/
def State.mxReadPop (g : Nat) (o : MxOp) (s : State) : State :=
  (s.modTile g (fun t => { t with panels := t.panels.map (fun p => { p with readq := p.readq.filter (fun x => x.seq != o.seq) }) })).syncMx g

/-- ISAT of the matrix engine (R207). -/
def State.mxSat (g : Nat) (b : Bool) (s : State) : State := if b then s.set (Reg.TILE_MX_STATUS_ISAT g) 1 else s

/-- Automatic drizzle begins on each panel that finished a pass with nothing waiting for it (R56); a scheduled tenancy's tiles keep the level
of their load marks (R58). A tile whose panels then rest is back at Run-idle. -/
def State.autoDrizzle (g : Nat) (ps : List Nat) (s : State) : State :=
  let win := s.get Reg.PWR_DRIZZLE_WINDOW
  if s.tileSched g then s
  else
    let s1 := s.modTile g (fun t => ps.foldl (fun t p =>
      let x := t.panel p
      if !x.queue.isEmpty || !x.readq.isEmpty || win == 0 then t
      else t.modPanel p (fun x => { x with drizzle := s.get Reg.PWR_DRIZZLE_LEVEL, drizzleLeft := win, ramp := none })) t)
    (s1.syncDrizzle g).settleRate g

/-! ### MLOAD (R210, R216 to R218) -/

/-- Row `r` of the stationary operand as values. -/
def MxOp.loadRow (n : Nat) (t : Tile) (o : MxOp) (r : Nat) : List Num :=
  let c := o.cfg
  let es := fmtSize (cFb c)
  let len := cCells c * es
  let rd := fun (a : Nat) => t.engineRead (n + o.rowAddr a r) (o.rowAddr a r) len
  let x := rd o.aA
  let y := if mPre o.word = 0 then [] else rd o.aA2
  (List.range (cCells c)).map (fun i =>
    mxElem (cFb c) (mPiece o.word) (mPre o.word) (leAt x (i * es) es) (leAt y (i * es) es))

/-- The whole operand is loaded into its panels: in Gang-128 each takes its quarter (R199). -/
def MxOp.load (n : Nat) (o : MxOp) (t : Tile) : Tile :=
  let c := o.cfg
  let per := 64 * cCpe c
  let rows := (List.range (cCells c * cCpe c)).map (fun r => (o.loadRow n t r).map (statBits (cFb c)))
  o.loadPanels.foldl (fun t p =>
    let r0 := if cGang c = 2 then per * (p / 2) else 0
    let c0 := if cGang c = 2 then 64 * (p % 2) else 0
    t.modPanel p (fun x => { x with
      loaded := true, statPiece := mPiece o.word
      stat := (List.range per).flatMap (fun r => (List.range 64).filterMap (fun k =>
        let w := ((rows.getD (r0 + r) []).getD (c0 + k) 0)
        if w = 0 then none else some (64 * r + k, w))) })) t

/-- MLOAD_RUN (R210). -/
def execMloadRun (tile : Fin 64) (panel : Fin 4) (err : EngErr) (s : State) : Res :=
  let g := tile.val
  match s.mxHead g panel.val 2 with
  | none => .next s
  | some o =>
    let s0 := (List.range 4).foldl (fun s p => if o.loadPanels.contains p then s.drizzleYields g p else s) s
    match err with
    | .sram _ a =>
      let s1 := (s0.mxPop g o).modTile g (fun t =>
        o.loadPanels.foldl (fun t p => t.modPanel p (fun x => { x with loaded := false, stat := [], statPiece := 0 })) t)
      .next ((s1.syncMx g).engineSram g a)
    | _ =>
      let s1 := s0.modTile g (MxOp.load s0.free o)
      .next ((({ s1 with free := s1.free + 0x1000000 } : State).mxPop g o).engineCorrected g err)

/-! ### Passes -/

/-- The elements of row `i` of a plane, as words: broadcast or convolution rows, or the diagonal of a skewed stream (R203, R213, R214). -/
def MxOp.rowWords (n : Nat) (t : Tile) (o : MxOp) (d : List Byte) (i : Nat) : List Nat :=
  let c := o.cfg
  let es := fmtSize (cFa c)
  let elems := fun (bs : List Byte) (k : Nat) => (List.range k).map (fun j => leAt bs (j * es) es)
  if cFeed c && o.op == 3 then
    (List.range (cCells c)).flatMap (fun k =>
      let a := spAddr ((xBase d : Int) + (i + k : Nat) * xRstride d) + k * cCpe c * es
      elems (t.engineRead (n + a) a (cCpe c * es)) (cCpe c))
  else
    match streamAddr d i with
    | none => List.replicate (cK c) 0
    | some a => elems (t.engineRead (n + a) a (cRowBytes c)) (cK c)

/-- Row `i` of the streamed operand as values (R216, R217). -/
def MxOp.streamRow (n : Nat) (t : Tile) (o : MxOp) (i : Nat) : List Num :=
  let x := o.rowWords n t o.desc1 i
  let y := if o.desc2.isEmpty then [] else o.rowWords n t o.desc2 i
  (List.range (cK o.cfg)).map (fun k => mxElem (cFa o.cfg) (mPiece o.word) (mPre o.word) (x.getD k 0) (y.getD k 0))

/-- The stationary operand as rows of values. -/
def MxOp.statRows (t : Tile) (o : MxOp) : List (List Num) :=
  let c := o.cfg
  let per := 64 * cCpe c
  (List.range (cK c)).map (fun k => (List.range (cN c)).map (fun j =>
    let p := if cGang c = 2 then 2 * (k / per) + j / 64 else mPanel o.word
    statVal (cFb c) (spGet 0 (t.panel p).stat (64 * (k % per) + j % 64))))

/-- The upset of a column's chunk sum in a row. -/
def upsetOf (us : List (Nat × Nat × Int)) (i j : Nat) : Int :=
  us.foldl (fun a u => if u.1 = i ∧ u.2.1 = j then a + u.2.2 else a) 0

/-- What a row of a chunk gives: the columns' chunk sums and the compare. -/
def MxOp.rowChunks (o : MxOp) (us : List (Nat × Nat × Int)) (zeroWins : Bool) (i : Nat) (a : List Num) (b : List (List Num)) :
    List Chunk × Compare :=
  let c := o.cfg
  let acc := cAcc c
  let neg := mNeg o.word
  let col := fun (j : Nat) => b.map (fun r => r.getD j .zero)
  let chunk := fun (j : Nat) (col : List Num) => chunkOf acc neg ((a.zip col).map (fun e => mxProduct zeroWins e.1 e.2)) (upsetOf us i j)
  let cols := (List.range (cN c)).map (fun j => chunk j (col j))
  let w := b.map (checkWeight acc)
  (cols, compareRow acc a w cols (chunk (cN c) w))

/-- Chunk sums rounded into row `r` from column `c0` on, in every bank that the pass writes (R234). -/
def MxOp.roundRow (o : MxOp) (zero : Bool) (r c0 : Nat) (cols : List Chunk) (t : Tile) : Tile × Bool :=
  o.banks.foldl (fun x pb =>
    let mine := if cGang o.cfg = 2 then (cols.drop (64 * pb.1)).take 64 else cols
    let p := x.1.panel pb.1
    let key := fun (j : Nat) => 4096 * pb.2 + 64 * r + c0 + j
    let new := (mine.zipIdx).map (fun e => (key e.2, roundInto (cAcc o.cfg) zero (spGet 0 p.banks (key e.2)) e.1))
    (x.1.modPanel pb.1 (fun p => { p with banks := new.foldl (fun m e => spSet 0 m e.1 e.2.1) p.banks }),
     x.2 || new.any (fun e => e.2.2))) (t, false)

/-- A pass so far: the tile, ISAT, compares made, mismatches, the first mismatch (row, D, β). -/
structure PassRun where
  t : Tile
  isat : Bool := false
  made : Nat := 0
  bad : Nat := 0
  first : Option (Nat × Compare) := none

/-- A compare is counted; a first mismatch is kept. -/
def PassRun.count (row : Nat) (x : Compare) (r : PassRun) : PassRun :=
  { r with
    made := r.made + b2n x.made, bad := r.bad + b2n x.bad
    first := if r.first.isSome || !x.bad then r.first else some (row, x) }

/-- Row `i` of a sheet-mode pass (R201). After a mismatch no further row is written. -/
def MxOp.sheetRow (n : Nat) (us : List (Nat × Nat × Int)) (t0 : Tile) (b : List (List Num)) (o : MxOp) (i : Nat) (r : PassRun) : PassRun :=
  if r.first.isSome then r
  else
    let zeroWins := cFa o.cfg == 5 && !(mPiece o.word == 1 && (t0.panel (mPanel o.word)).statPiece == 1)
    let x := o.rowChunks us zeroWins i (o.streamRow n t0 i) b
    let w := o.roundRow (mZero o.word) i 0 x.1 r.t
    ({ r with t := w.1, isat := r.isat || w.2 } : PassRun).count i x.2

/-- The piece of B that a cube-mode pass of format code 5 takes: the one that the panel's last MLOAD names (R216), though nothing of its operand
is used (R202). DEDUCED: no other field names a piece of B. Where the panel holds none since MCFG, a free one. -/
def MxOp.cubePiece (n : Nat) (t : Tile) (o : MxOp) : Nat :=
  let x := t.panel (mPanel o.word)
  if cFb o.cfg ≠ 5 then 0 else if x.statPiece ≠ 0 then x.statPiece else Config.freeNat (n + 0x1000000) % 3 + 1

/-- The operands of K-step `k` in cube mode: 32 rows of 4 elements of A, 4 rows of 32 of B (R213). -/
def MxOp.cubeStep (n : Nat) (t : Tile) (o : MxOp) (k : Nat) : List (List Num) × List (List Num) :=
  let c := o.cfg
  let read := fun (d : List Byte) =>
    let a := spAddr ((xBase d : Int) + k * xRstride d)
    let e := fmtSize (cFa c)
    let bs := t.engineRead (n + a) a (128 * e)
    (List.range 128).map (fun j => leAt bs (j * e) e)
  let x := read o.desc1
  let y := if o.desc2.isEmpty then [] else read o.desc2
  let ba := spAddr ((xBbase o.desc1 : Int) + k * xBstride o.desc1)
  let eb := fmtSize (cFb c)
  let bb := t.engineRead (n + ba) ba (128 * eb)
  ((List.range 32).map (fun i => (List.range 4).map (fun j =>
      mxElem (cFa c) (mPiece o.word) (mPre o.word) (x.getD (4 * i + j) 0) (y.getD (4 * i + j) 0))),
   (List.range 4).map (fun j => (List.range 32).map (fun m => mxElem (cFb c) (o.cubePiece n t) 0 (leAt bb ((32 * j + m) * eb) eb) 0)))

/-- K-step `k` of a cube-mode pass into its quadrant (R202): its 32 rows are compared in one TCLK, and every mismatch is counted (R227). After a
mismatch no further step runs. -/
def MxOp.cubeRun (n : Nat) (us : List (Nat × Nat × Int)) (t0 : Tile) (o : MxOp) (k : Nat) (r : PassRun) : PassRun :=
  if r.first.isSome then r
  else
    let ab := o.cubeStep n t0 k
    let q := xQuad o.desc1
    let zeroWins := cFa o.cfg == 5 && !(mPiece o.word == 1 && o.cubePiece n t0 == 1)
    (List.range 32).foldl (fun r i =>
      let x := o.rowChunks us zeroWins (32 * k + i) (ab.1.getD i []) ab.2
      let w := o.roundRow (mZero o.word && k == 0) (32 * bits q 1 1 + i) (32 * bits q 0 1) x.1 r.t
      ({ r with t := w.1, isat := r.isat || w.2 } : PassRun).count (32 * bits q 1 1 + i) x.2) r

/-- Rows or steps that a pass has entered and not written, and those it never reached (R224): `m` is how many were written. -/
def MxOp.passTo (n : Nat) (us : List (Nat × Nat × Int)) (o : MxOp) (m : Nat) (t : Tile) : PassRun :=
  if cCube o.cfg then (List.range m).foldl (fun r k => o.cubeRun n us t k r) { t := t }
  else
    let b := o.statRows t
    (List.range m).foldl (fun r i => o.sheetRow n us t b i r) { t := t }

/-- How many rows or steps later than it enters a row or step is written (R224). -/
def MxOp.lag (o : MxOp) : Nat :=
  if cCube o.cfg then 8 else if o.op = 6 then 12
  else (if cGang o.cfg = 2 then 14 else 12) + (if cFeed o.cfg then cCells o.cfg - 1 else 0)

/-- The entries of rows `lo` to `hi` of a sheet-mode pass; of the whole quadrant in cube mode. -/
def MxOp.entriesOf (o : MxOp) (lo hi : Nat) : List (Nat × Nat) :=
  if cCube o.cfg then (if lo < hi then o.entries else [])
  else o.entries.filter (fun e => lo ≤ e.2 % 4096 / 64 && e.2 % 4096 / 64 < hi)

/-- A checksum mismatch stops the LAUNCH (R219): its event names the panel, bank, row and pass, with D and β. -/
def State.checksumStop (g : Nat) (o : MxOp) (row pass : Nat) (x : Compare) (s : State) : State :=
  let t := s.tileTen g
  let e : EvRec :=
    { kind := 0x03, cls := 2, status := stSdcChecksum, unit := 0x40 + g, tenancy := t
      body := [BitVec.ofNat 8 g, BitVec.ofNat 8 (mPanel o.word), BitVec.ofNat 8 (mBank o.word), BitVec.ofNat 8 row] ++
        leBytes 4 pass ++ leBytes 2 o.ba ++ zeros 6 ++ leBytes 8 (fmtB64.encode false x.d) ++ leBytes 8 (fmtB64.encode false x.beta) }
  let s1 := match s.launchOf g with
    | some (f, r, c) => s.logCmd f r c e
    | none => s.logEvent e
  (s1.raiseExc g 0x21 stSdcChecksum 0xF 0).countSdc g t

/-- MMUL_RUN (R201 to R204, R219): `tclk` is how many TCLK the pass adds to the streaming count, `upset` are disturbances of chunk sums
(row, column, counts of the window's lowest weight). On a tile at Run-idle of a program that is not scheduled the pass waits for the slew
grant of the rise to full rate (R52, R54). -/
def execMmulRun (tile : Fin 64) (panel : Fin 4) (err : EngErr) (upset : List (Nat × Nat × Int)) (tclk : Nat) (s : State) : Res :=
  let g := tile.val
  let p := panel.val
  match s.mxHead g p 3, s.rateUp g with
  | none, _ => .next s
  | some _, (false, s) => .next s
  | some o, (true, s) =>
    let rows := if cCube o.cfg then xKsteps o.desc1 else xRows o.desc1
    let s0 := (cPanels o.cfg p).foldl (fun s p => s.drizzleYields g p) s
    let entered := match err with
      | .sram k _ => min k rows
      | _ => rows
    let written := match err with
      | .sram _ _ => entered - o.lag
      | _ => rows
    let r := o.passTo s0.free upset written (s0.tile g)
    let pass := ((s0.tile g).panel p).passes
    let s1 := (({ s0 with free := s0.free + 0x2000000 } : State).modTile g (fun _ => r.t)).modTile g
      (fun t => t.modPanel p (fun x => { x with passes := x.passes + 1 }))
    let s2 := ((((s1.mxSat g r.isat).bump (Reg.TILE_MX_CSUM_COMPARES g) r.made).bump (Reg.TILE_MX_CSUM_MISMATCH g) r.bad).bump
      (Reg.TILE_MX_WORK_STREAMTCLK g) tclk).mxPop g o
    let lose := fun (lo hi : Nat) (s : State) =>
      (s.modTile g (fun t => t.freeEntries s.free (o.entriesOf lo hi))).draw
    match r.first with
    | some (row, x) => .next ((lose (row + 1) (min rows (row + 1 + o.lag)) s2).checksumStop g o row pass x)
    | none =>
      match err with
      | .sram _ a => .next ((lose written entered s2).engineSram g a)
      | .corrected a => .next ((s2.spCorrected g a).autoDrizzle g (cPanels o.cfg p))
      | _ => .next (s2.autoDrizzle g (cPanels o.cfg p))

/-- A moment pass over rows 0 to `m` − 1 (R243, R244). -/
def MxOp.moments (n : Nat) (o : MxOp) (m : Nat) (t : Tile) : Tile :=
  let rows := (List.range m).map (fun i => o.streamRow n t i)
  let b := mBank o.word
  t.modPanel (mPanel o.word) (fun p =>
    { p with
      banks := (List.range 64).foldl (fun bk j =>
        let old := (List.range 5).map (fun r => if mZero o.word then Num.zero else fmtA35.decode (spGet 0 p.banks (4096 * b + 64 * r + j)))
        let new := rows.foldl (fun st row => momentStep st (row.getD j .zero)) old
        (List.range 5).foldl (fun bk r => spSet 0 bk (4096 * b + 64 * r + j) (fmtA35.encode false (new.getD r .zero))) bk) p.banks })

/-- MMOM_RUN (R243, R244). -/
def execMmomRun (tile : Fin 64) (panel : Fin 4) (err : EngErr) (tclk : Nat) (s : State) : Res :=
  let g := tile.val
  let p := panel.val
  match s.mxHead g p 6, s.rateUp g with
  | none, _ => .next s
  | some _, (false, s) => .next s
  | some o, (true, s) =>
    let s0 := s.drizzleYields g p
    let s1 := (s0.bump (Reg.TILE_MX_WORK_STREAMTCLK g) tclk).mxPop g o
    match err with
    | .sram _ a =>
      .next (((s1.modTile g (fun t => t.freeEntries s1.free o.entries)).draw).engineSram g a)
    | _ =>
      let s2 := s1.modTile g (MxOp.moments s1.free o (xRows o.desc1))
      .next (((({ s2 with free := s2.free + 0x1000000 } : State)).engineCorrected g err).autoDrizzle g [p])

/-! ### Read-outs and spills -/

/-- Bank row `r` is read out to its scratchpad row (R235). -/
def MxOp.readRow (o : MxOp) (r : Nat) (t : Tile) : Tile × Bool :=
  let acc := cAcc o.cfg
  let ws := o.banks.flatMap (fun pb => (List.range 64).map (fun c => readOut acc (spGet 0 (t.panel pb.1).banks (4096 * pb.2 + 64 * r + c))))
  (t.spWrite (o.rowAddr o.aA r) (ws.flatMap (fun e => leBytes (readSize acc) e.1)), ws.any (·.2))

/-- Bank row `r` is added into its row of the wide buffer, and left at +0 (R237, R238). -/
def MxOp.spillRow (n : Nat) (o : MxOp) (r : Nat) (t : Tile) : Tile × Bool :=
  let acc := cAcc o.cfg
  let a := o.rowAddr o.aA r
  let old := t.engineRead (n + a) a o.outBytes
  let es := o.banks.flatMap (fun pb => (List.range 64).map (fun c => (pb.1, 4096 * pb.2 + 64 * r + c)))
  let ws := (es.zipIdx).map (fun e => spillInto acc (spGet 0 (t.panel e.1.1).banks e.1.2) (leAt old (8 * e.2) 8))
  let t1 := es.foldl (fun t e => t.modPanel e.1 (fun p => { p with banks := spSet 0 p.banks e.2 0 })) t
  (t1.spWrite a (ws.flatMap (fun e => leBytes 8 e.1)), ws.any (·.2))

/-- The first `m` rows of a read-out or a spill. -/
def MxOp.outTo (n : Nat) (o : MxOp) (m : Nat) (t : Tile) : Tile × Bool :=
  (List.range m).foldl (fun x r =>
    let y := if o.op = 5 then o.spillRow n r x.1 else o.readRow r x.1
    (y.1, x.2 || y.2)) (t, false)

/-- The rows of wide-buffer elements that two spills share: address and length (R252). -/
def MxOp.overlap (o x : MxOp) : List (Nat × Nat) :=
  o.outRows.flatMap (fun a => x.outRows.filterMap (fun b =>
    let lo := max a.1 b.1
    let hi := min (a.1 + a.2) (b.1 + b.2)
    if lo < hi then some (lo, hi - lo) else none))

/-- The spills that wait or run beside a spill: those of other banks, since the banks order the others (R222, R252). -/
def Tile.spillsBeside (t : Tile) (o : MxOp) : List MxOp :=
  if o.op = 5 then t.mxOps.filter (fun x => x.op == 5 && x.seq != o.seq && !x.banks.any (fun b => o.banks.contains b)) else []

/-- The elements that a spill shares with those beside it hold free values, and will when those have run (R252). -/
def Tile.blurSpills (n : Nat) (o : MxOp) (t : Tile) : Tile :=
  let beside := t.spillsBeside o
  let t1 := t.freeRows n (o.clash ++ beside.flatMap o.overlap)
  { t1 with panels := t1.panels.map (fun p => { p with
      readq := p.readq.map (fun x => if beside.any (fun y => y.seq == x.seq) then { x with clash := x.clash ++ o.overlap x } else x) }) }

/-- A read-out or spill runs: an error in row k leaves the rows from k on as they are. -/
def State.outRun (g p op : Nat) (err : EngErr) (s : State) : State :=
  match s.mxReadHead g p op with
  | none => s
  | some o =>
    let m := match err with
      | .sram k _ => if op = 5 then min k 64 else 64
      | .parity k => min k 64
      | _ => 64
    let x := o.outTo s.free m (s.tile g)
    let s1 := (((({ s with free := s.free + 0x2000000 } : State).modTile g (fun _ => x.1.blurSpills (s.free + 0x1000000) o)).mxSat g x.2).mxReadPop g o)
    match err with
    | .sram _ a => if op = 5 then s1.engineSram g a else s1
    | .parity k => s1.engineParity g (mPanel o.word) (mBank o.word) (min k 63)
    | _ => s1.engineCorrected g err

/-- MREAD_RUN (R235). -/
def execMreadRun (tile : Fin 64) (panel : Fin 4) (err : EngErr) (s : State) : Res := .next (s.outRun tile.val panel.val 4 err)

/-- MSPILL_RUN (R237, R238). -/
def execMspillRun (tile : Fin 64) (panel : Fin 4) (err : EngErr) (s : State) : Res := .next (s.outRun tile.val panel.val 5 err)

/-! ### Drizzle -/

/-- MDRZ_RUN (R220): explicit drizzle ran for `tclk` TCLK, at most COUNT: it ends earlier when a pass or a load is ready. TCLK
in which another panel drizzles too count once (R226). Its rise waits for a grant as a pass does (R54). -/
def execMdrzRun (tile : Fin 64) (panel : Fin 4) (tclk : Nat) (s : State) : Res :=
  let g := tile.val
  let p := panel.val
  match s.mxHead g p 7, s.rateUp g with
  | none, _ => .next s
  | some _, (false, s) => .next s
  | some o, (true, s) =>
    let s0 := s.drizzleYields g p
    let n := if mLevel o.word = 0 ∨ (s0.tile g).drizzleAt.isSome then 0 else min tclk (mCount o.word)
    let s1 := s0.modTile g (fun t => t.modPanel p (fun x => { x with queue := x.queue.drop 1 }))
    .next (((s1.bump (Reg.TILE_MX_WORK_DRIZZLE g) n).syncMx g).settleRate g)

/-- DRIZZLE_WINDOW_END (R56): the window of automatic drizzle is over, and the panel ramps down in its turn in its tenancy's share. -/
def execDrizzleWindowEnd (tile : Fin 64) (panel : Fin 4) (s : State) : Res :=
  let g := tile.val
  let x := (s.tile g).panel panel.val
  if x.drizzleLeft = 0 then .next s
  else
    let s1 := s.modTile g (fun t => t.modPanel panel.val (fun x => { x with drizzleLeft := 0 }))
    .next (s1.askGrant (s.domShare g) (.drizzle g panel.val) (drizzleQuantum x.drizzle))

end Sys2Proof.Machine
end

