-- ==== Sys2Proof/Machine/Power.lean ====
section
/-! DEFINITION. The power manager's tick (R114 to R119), the VT rails (R40), wakes (R109), the budget registers (R113, R125), power-on and
the loss of the always-on domain (R36, R49). -/

namespace Sys2Proof.Machine

/-- DOMAIN_WAKE (R109, R120): the exit begins, and what the domain lent is recalled at once. -/
def execDomainWake (dom : Fin 86) (s : State) : Res := .next (s.wakeDomain dom.val)

/-- RAIL_TARGET_REACHED (R40): a die's rail has reached its voltage; domains that waited for it take their steps. -/
def execRailTargetReached (die : Fin 4) (s : State) : Res :=
  let d := die.val
  if s.railMv d ≠ s.railGoal d then .next s
  else
    let s1 : State := { s with supply := { s.supply with rail := s.supply.rail.setIfInBounds (8 + d) (s.railGoal d)
                                                         railAt := s.supply.railAt.setIfInBounds d s.tick } }
    .next ((dieDomains d).foldl (fun s n =>
      match (s.dom n).want with
      | some k => if stepMv k ≤ s.railMv d then (s.set (Reg.PWR_DOM_STATE_STEP n) k).modDom n (fun x => { x with want := none }) else s
      | none => s) s1)

/-- One sample of the input (R56): the latest values, the extremes, the energy. -/
def State.sampleInput (vin iin pin vbank : Nat) (s : State) : State :=
  let e := s.supply.energy + pin
  let s1 := ((((s.set Reg.PWR_IN_SAMPLE_VIN vin).set Reg.PWR_IN_SAMPLE_IIN iin).set Reg.PWR_IN_SAMPLE_PIN pin).wrapAdd
    Reg.PWR_IN_SAMPLE_SEQ 1).set Reg.PWR_BANK_VBANK vbank
  let s2 := ((s1.set Reg.PWR_IN_EXTREMES_VMIN (min (s1.get Reg.PWR_IN_EXTREMES_VMIN) vin)).set Reg.PWR_IN_EXTREMES_VMAX
    (max (s1.get Reg.PWR_IN_EXTREMES_VMAX) vin)).set Reg.PWR_IN_EXTREMES_IPEAK (max (s1.get Reg.PWR_IN_EXTREMES_IPEAK) iin)
  ({ s2 with supply := { s2.supply with energy := e } } : State).set Reg.PWR_IN_ENERGY_UJ (e / 10)

/-- The domains' estimated draws of the last 1 µs, in mW, and their energies (R123). -/
def State.sampleDraws (draws : List Nat) (s : State) : State :=
  (List.range 86).foldl (fun s n =>
    let mw := draws.getD n 0
    let nj := (s.dom n).nj + mw
    ((s.set (Reg.PWR_DOM_STATE_EST n) (min (mw / 100) 65535)).set (Reg.PWR_DOM_ENERGY_UJ n) (nj / 1000)).modDom n
      (fun d => { d with nj := nj })) s

/-- At the 1 µs boundary the slew limit, the module cap and the reserve that were written last come into force (R57, R125). -/
def State.boundary (s : State) : State :=
  let s1 : State := { s with supply := { s.supply with
    slewNow := s.get Reg.PWR_SLEW_LIMIT, capNow := s.get Reg.PWR_BUDGET_MODCAP, reserveNow := s.get Reg.PWR_BUDGET_RESERVE } }
  s1.set Reg.PWR_IN_STATUS_BURST_OK (b2n s1.burstOk)

/-- The input power is averaged over windows of 1,000 samples (R41). A window above the sustained cap, outside the Dip band and with the burst
available, begins a burst; 100 ms later the burst is available again. -/
def State.samplePower (pin : Nat) (s : State) : State :=
  let p := s.supply
  if p.window < 999 then { s with supply := { p with pinSum := p.pinSum + pin } }
  else
    let avg := (p.pinSum + pin) / 1000
    let high := 100 * avg > s.sustainedMw && s.burstOk
    let fresh : Bool := match p.burstAt with
      | some a => decide (100000000 ≤ s.since a)
      | none => true
    { s with supply := { p with pinSum := 0, pinAvg := avg, burstAt := if high ∧ fresh then some s.tick else p.burstAt } }

/-- A 1 ms window of 1,000 samples goes on (R114, R117); at its end DRAW, SHARED, what the reserve is exceeded by and the excess of
pinned tenancies are known. -/
def State.sampleWindow (draws : List Nat) (s : State) : State :=
  let ts := (List.range 17).filter (fun t => s.tnState t != 0)
  let add := fun (l : List (Nat × Nat)) (t n : Nat) => spSet 0 l t (spGet 0 l t + n)
  let charge := ts.foldl (fun l t => add l t (s.tenCharge t)) s.supply.charge
  let meas := ts.foldl (fun l t =>
    add l t (((s.tenTiles t) ++ (bitList 4 (s.get (Reg.TN_CFG_RIME t))).map (68 + ·)).foldl (fun n g => n + draws.getD g 0) 0)) s.supply.measured
  let shared := s.supply.shared + ([64, 65, 66, 67] ++ (List.range 14).map (72 + ·)).foldl (fun n d => n + draws.getD d 0) 0
  if s.supply.window < 999 then
    { s with supply := { s.supply with window := s.supply.window + 1, charge := charge, measured := meas, shared := shared } }
  else
    let s1 : State := { s with supply := { s.supply with window := 0, charge := [], measured := [], shared := 0 } }
    let s2 := (List.range 17).foldl (fun s t =>
      let s1 := s.set (Reg.PWR_TNCAP_DRAW t) (min (spGet 0 charge t / 1000000000) 65535)
      s1.modTen t (fun x => { x with excess := if s.tnPinned t then spGet 0 meas t - s.capUw t else 0 })) s1
    let w := shared / 1000000
    let free := s.supply.capNow - s.supply.reserveNow - s.get Reg.PWR_BUDGET_STATUS_ASSIGNED
    (s2.set Reg.PWR_BUDGET_STATUS_SHARED (min w 65535)).set Reg.PWR_BUDGET_STATUS_RESERVE_OVER
      (b2n (shared > 1000000 * (s.supply.reserveNow + free)))

/-- POWER_MANAGER_TICK (R116): each 1 µs the input and the domains are sampled, pending writes take effect, loans, allowances and steps are
computed again. What the converters measure comes with the command. -/
def execPowerManagerTick (vin iin pin vbank : BitVec 16) (draws : List Nat) (s : State) : Res :=
  if s.phase = .dark then .next s
  else
    let s1 := (s.sampleInput vin.toNat iin.toNat pin.toNat vbank.toNat).boundary
    if s1.phase = .ready then .next (((s1.samplePower pin.toNat).sampleDraws draws).sampleWindow draws).rebudget else .next s1

/-- The word that PWR_BUDGET would take is refused (R113, R119, R125, R577). -/
def State.budgetRefused (s : State) (n : Nat) : Bool :=
  let cap := bits n 0 16
  let res := bits n 16 16
  let capNew := cap != s.get Reg.PWR_BUDGET_MODCAP || res != s.get Reg.PWR_BUDGET_RESERVE
  (cap != s.get Reg.PWR_BUDGET_MODCAP && (cap < 300 || 1100 < cap)) || (res != s.get Reg.PWR_BUDGET_RESERVE && (res < 100 || 400 < res)) ||
    (capNew && s.get Reg.PWR_BUDGET_STATUS_ASSIGNED + res > cap) || (bitAt n 32 && s.on Reg.TN_ISO_CLAIMED)

/-- The fields of PWR_BUDGET. -/
def budgetFields : List Fld := [Reg.PWR_BUDGET_MODCAP, Reg.PWR_BUDGET_RESERVE, Reg.PWR_BUDGET_XLEND, Reg.PWR_BUDGET_BURST_EN]

/-- A write of PWR_BUDGET: MODCAP and RESERVE read back at once and come into force at the next 1 µs boundary (R125); XLEND and BURST_EN take
effect at once (R22). -/
def State.writeBudget (func : Nat) (part : Part) (v : Word) (s : State) : State :=
  let n := partOf (s.wordOf budgetFields) part v
  if s.budgetRefused n then s.logRefused Reg.PWR_BUDGET_MODCAP.off func v.toNat else s.putWord budgetFields part v

/-- PWR_BUDGET_WRITE (R125). -/
def execPwrBudgetWrite (part : Part) (v : Word) (s : State) : Res := .next (s.whenReady (State.writeBudget 0 part v))

/-- A write of PWR_TNCAP[t] (R113, R23): refused while the tenancy is started, or where the caps would exceed MODCAP − RESERVE. -/
def State.writeTncap (func t : Nat) (part : Part) (v : Word) (s : State) : State :=
  let fs := [Reg.PWR_TNCAP_CAP t, Reg.PWR_TNCAP_MAXSTEP t]
  let old := s.get (Reg.PWR_TNCAP_CAP t)
  let cap := bits (partOf (s.wordOf fs) part v) 0 16
  let sum := s.get Reg.PWR_BUDGET_STATUS_ASSIGNED - old + cap
  if (s.tnStarted t ∧ s.changesRwl fs part v) ∨
      (cap ≠ old ∧ sum + s.get Reg.PWR_BUDGET_RESERVE > s.get Reg.PWR_BUDGET_MODCAP) then
    s.logRefused (Reg.PWR_TNCAP_CAP t).off func v.toNat
  else (s.putWord fs part v).set Reg.PWR_BUDGET_STATUS_ASSIGNED sum

/-- PWR_TNCAP_WRITE (R113). -/
def execPwrTncapWrite (t : Fin 17) (part : Part) (v : Word) (s : State) : Res := .next (s.whenReady (State.writeTncap 0 t.val part v))

/-- ALWAYS_ON_POWER_LOSS (R49): the controller, the time base and the TAP go dark; the store, the fuses and what the world outside was
sent stay. It comes after the stop record, for which the bank holds (R49). -/
def execAlwaysOnPowerLoss (s : State) : Res :=
  if s.phase = .startWait then
    .next { State.reset with
      phase := .dark, free := s.free, out := s.out, pending := s.pending, fuses := s.fuses
      store := { s.store with recQ := [] } }
  else .next s

/-- POWER_ON (R36): the bus powers the always-on converter, and the always-on domain comes up in Start wait with what the store says. DESIGN
CHOICE: a supply stop before the loss is forgotten, so that AUTO 0 holds the start after a stop only while the always-on domain kept its
power (R61 leaves it open). -/
def execPowerOn (s : State) : Res :=
  if s.phase ≠ .dark then .next s
  else
    let k := s.store.kept
    let s1 := (((((((s.set Reg.PWR_RESTART_AUTO k.auto).set Reg.PWR_RESTART_HOLDOFF k.holdoff).set Reg.BRU_CTL_FORCECOLD k.forceCold).set
      Reg.BRU_RETIRED_T_TILES k.tiles).set Reg.BRU_RETIRED_L_LINKS k.links).set Reg.PWR_SUPPLY_EVENT_CAUSE k.cause).set
      Reg.PWR_SUPPLY_EVENT_VATSTOP k.vatstop).set Reg.PWR_SUPPLY_EVENT_STOPS k.stops
    let s2 := (List.range 4).foldl (fun s i => s.set (Reg.MC_GRANWH_WITHHELD i) (k.withheld.getD i 0)) s1
    let boot := [Reg.CS_BOOT_ACTIVE, Reg.CS_BOOT_PREV, Reg.CS_BOOT_TRIAL, Reg.CS_BOOT_TRIES, Reg.CS_BOOT_REVCAUSE]
    let s2 := boot.foldl (fun s f => s.set f (bits k.bootWord f.lo f.width)) s2
    .next { s2 with
      phase := .startWait, startCount := k.starts, granPoison := k.granPoison
      boot := { s2.boot with lastExcluded := k.lastExcluded } }

end Sys2Proof.Machine
end

