-- ==== Sys2Proof/Machine/Mgmt.lean ====
section
/-! DEFINITION. MCTP control and PLDM types 0 and 2 (R509 to R514). The spec names the DMTF protocols without their formats: a request's fields
come as operands, and a reply is its message type, its command code, its completion code and its data. -/

namespace Sys2Proof.Machine

/-! ### When the endpoints answer (R151, R510) -/

/-- The number of a port among the messages that go out. -/
def portNum (p : MgmtPort) : Nat :=
  match p with
  | .vdm => 0
  | .i3c => 1
  | .doe => 2

/-- The controller runs: a failure of its lockstep or boot ROM in stage 1 stopped it (R156). -/
def State.ctrlRuns (s : State) : Bool :=
  match s.phase with
  | .bringUp | .halted | .recovery => 1 ≤ s.get Reg.BRU_STATUS_STAGE && s.get Reg.BRU_STATUS_FAILDETAIL / 256 != 9
  | .ready => true
  | _ => false

/-- An endpoint answers: I3C from stage 1, VDM and DOE from the end of stage 2 (R151); none in scan mode (R91). -/
def State.portUp (s : State) (p : MgmtPort) : Bool :=
  s.ctrlRuns && !s.pins.scanEn && match p with
    | .i3c => true
    | .vdm | .doe => s.hostUp

/-- The boot ROM answers on I3C: in Start wait after a supply stop with AUTO 0, and in Off (R158, R510). -/
def State.romUp (s : State) (p : MgmtPort) : Bool :=
  (match p with | .i3c => true | .vdm | .doe => false) &&
    (s.phase == .off || (s.phase == .startWait && s.boot.afterStop && !s.on Reg.PWR_RESTART_AUTO))

/-- A reply leaves by the port on which its request came. -/
def State.reply (p : MgmtPort) (bs : List Byte) (s : State) : State := s.emit (.message (portNum p) bs)

/-! ### MCTP control (R509) -/

/-- A control request is answered on VDM and I3C. -/
def State.mctp (p : MgmtPort) (cmd : Byte) (k : State → State × List Byte) (s : State) : State :=
  if p = .doe ∨ (!s.portUp p && !s.romUp p) then s
  else (k s).1.reply p ([0x00, cmd] ++ (k s).2)

/-- SET_ENDPOINT_ID: the bus owner assigns the endpoint ID of its binding; 0 and 0xFF are no endpoint IDs. -/
def execSetEndpointId (port : MgmtPort) (eid : Byte) (s : State) : Res :=
  .next (s.mctp port 0x01 (fun s =>
    if eid = 0 ∨ eid = 0xFF then (s, [0x02])
    else ({ s with mgmt := { s.mgmt with eids := spSet 0 s.mgmt.eids (portNum port) eid.toNat } }, [0x00, eid])))

/-- GET_ENDPOINT_ID. -/
def execGetEndpointId (port : MgmtPort) (s : State) : Res :=
  .next (s.mctp port 0x02 (fun s => (s, [0x00, BitVec.ofNat 8 (spGet 0 s.mgmt.eids (portNum port))])))

/-- GET_ENDPOINT_UUID: formed from the serial. -/
def execGetEndpointUuid (port : MgmtPort) (s : State) : Res :=
  .next (s.mctp port 0x03 (fun s => (s, 0x00 :: (Config.uuid (s.fuse 4)).toList)))

/-- GET_MCTP_VERSION_SUPPORT: base version 1.3, for the message types carried. -/
def execGetMctpVersionSupport (port : MgmtPort) (msgType : Byte) (s : State) : Res :=
  .next (s.mctp port 0x04 (fun s =>
    (s, if msgType = 0 ∨ msgType = 0xFF then [0x00, 1, 1, 3] else if msgType = 1 ∨ msgType = 5 then [0x00, 1] else [0x80])))

/-- GET_MESSAGE_TYPE_SUPPORT: control, PLDM and SPDM. -/
def execGetMessageTypeSupport (port : MgmtPort) (s : State) : Res := .next (s.mctp port 0x05 (fun s => (s, [0x00, 3, 0x00, 0x01, 0x05])))

/-! ### PLDM (R511, R512) -/

/-- A PLDM request: answered by `k` with its completion code and data, which starts the exit from Deep Frost (R122); ERROR_NOT_READY
before stage 8 unless `early` holds (R151). -/
def State.pldm (p : MgmtPort) (type cmd : Byte) (early : State → Bool) (k : State → State × List Byte) (s : State) : State :=
  if p = .doe ∨ !s.portUp p then s
  else if s.phase ≠ .ready ∧ s.get Reg.BRU_STATUS_STAGE < 8 ∧ !early s then s.reply p [0x01, type, cmd, 0x04]
  else (k s.wakeFrost).1.reply p ([0x01, type, cmd] ++ (k s.wakeFrost).2)

/-- No request but those of bring-up status comes early. -/
def notEarly (_ : State) : Bool := false

/-- GET_TID. -/
def execGetTid (port : MgmtPort) (s : State) : Res :=
  .next (s.pldm port 0 0x02 notEarly (fun s => (s, [0x00, BitVec.ofNat 8 s.mgmt.tid])))

/-- SET_TID. -/
def execSetTid (port : MgmtPort) (tid : Byte) (s : State) : Res :=
  .next (s.pldm port 0 0x01 notEarly (fun s =>
    if tid = 0 ∨ tid = 0xFF then (s, [0x02]) else ({ s with mgmt := { s.mgmt with tid := tid.toNat } }, [0x00])))

/-- GET_PLDM_VERSION: of types 0, 2 and 5. -/
def execGetPldmVersion (port : MgmtPort) (type : Byte) (s : State) : Res :=
  .next (s.pldm port 0 0x03 notEarly (fun s =>
    (s, if type = 0 ∨ type = 2 ∨ type = 5 then 0x00 :: leBytes 4 (Config.pldmVersion type.toNat).toNat else [0x83])))

/-- GET_PLDM_TYPES: 0, 2 and 5. -/
def execGetPldmTypes (port : MgmtPort) (s : State) : Res :=
  .next (s.pldm port 0 0x04 notEarly (fun s => (s, 0x00 :: leBytes 8 0x25)))

/-- The commands of each type (R511). -/
def pldmCommands (type : Nat) : Option (List Nat) :=
  match type with
  | 0 => some [0x01, 0x02, 0x03, 0x04, 0x05]
  | 2 => some [0x04, 0x0A, 0x0B, 0x0C, 0x0D, 0x11, 0x21, 0x31, 0x32, 0x39, 0x3A, 0x50, 0x51]
  | 5 => some [0x01, 0x02, 0x10, 0x13, 0x14, 0x15, 0x16, 0x17, 0x18, 0x1A, 0x1B, 0x1C, 0x1D]
  | _ => none

/-- GET_PLDM_COMMANDS: the commands of a type as a bit mask. -/
def execGetPldmCommands (port : MgmtPort) (type : Byte) (s : State) : Res :=
  .next (s.pldm port 0 0x05 notEarly (fun s =>
    (s, match pldmCommands type.toNat with
      | some cs => 0x00 :: leBytes 32 (maskOf cs)
      | none => [0x83])))

/-- The numeric sensors (R512): their registers. -/
def sensorField (id : Nat) : Option Fld :=
  match id with
  | 1 => some Reg.PWR_IN_SAMPLE_VIN
  | 2 => some Reg.PWR_IN_SAMPLE_IIN
  | 3 => some Reg.PWR_IN_SAMPLE_PIN
  | 4 => some Reg.PWR_IN_ENERGY_UJ
  | 5 => some Reg.PWR_THERMAL_TCD
  | 6 => some Reg.PWR_THERMAL_TBD
  | 7 => some Reg.PWR_THERMAL_THBM
  | 8 => some Reg.PWR_THERMAL_TIN
  | 9 => some Reg.PWR_THERMAL_TOUT
  | n => if 10 ≤ n ∧ n < 18 then some (Reg.MEM_STATUS_TEMP (n - 10)) else none

/-- The reading of a numeric sensor, in its unit: the energy in J. -/
def State.sensorValue (s : State) (id : Nat) : Option Nat :=
  (sensorField id).map (fun f => if id = 4 then s.get f / 1000000 else s.get f)

/-- GET_SENSOR_READING. -/
def execGetSensorReading (port : MgmtPort) (sensor : BitVec 16) (s : State) : Res :=
  .next (s.pldm port 2 0x11 notEarly (fun s =>
    (s, match s.sensorValue sensor.toNat with
      | some v => 0x00 :: leBytes 8 v
      | none => [0x80])))

/-- The bring-up sensor: 0 Start wait, 1 a running stage, 2 Ready, 3 halted, 4 recovery; then the stage. -/
def State.startSensor (s : State) : List Byte :=
  let st := BitVec.ofNat 8 (s.get Reg.BRU_STATUS_STAGE)
  match s.phase with
  | .bringUp | .scan => [1, st]
  | .ready => [2, st]
  | .halted => [3, st]
  | .recovery => [4, st]
  | _ => [0, 0]

/-- The state sensors (R512). -/
def State.stateSensor (s : State) (id : Nat) : Option (List Byte) :=
  match id with
  | 20 => some s.startSensor
  | 21 => some [BitVec.ofNat 8 (s.get Reg.PWR_THERMAL_STATE)]
  | 22 => some [BitVec.ofNat 8 (s.get Reg.PWR_IN_STATUS_BAND)]
  | 23 => some [BitVec.ofNat 8 s.domSensor]
  | 24 => some [BitVec.ofNat 8 (s.get Reg.MC_STATUS_LASTFAULT)]
  | _ => none

/-- GET_STATE_SENSOR_READINGS: that of bring-up is answered from stage 1 on, and by the boot ROM (R151, R510). -/
def execGetStateSensorReadings (port : MgmtPort) (sensor : BitVec 16) (s : State) : Res :=
  if s.romUp port then
    .next (if sensor = 20 then s.reply port ([0x01, 2, 0x21, 0x00] ++ s.startSensor) else s)
  else .next (s.pldm port 2 0x21 (fun _ => sensor == 20) (fun s =>
    (s, match s.stateSensor sensor.toNat with
      | some v => 0x00 :: v
      | none => [0x80])))

/-- SET_NUMERIC_EFFECTER_VALUE: effecter 31 is the module cap, under the checks of R125. -/
def execSetNumericEffecterValue (port : MgmtPort) (effecter : BitVec 16) (value : BitVec 32) (s : State) : Res :=
  .next (s.pldm port 2 0x31 notEarly (fun s =>
    let n := s.wordOf budgetFields / 65536 * 65536 + value.toNat % 65536
    if effecter ≠ 31 then (s, [0x80])
    else if value.toNat > 65535 ∨ s.budgetRefused n then (s, [0x02])
    else (s.putWord budgetFields .whole (BitVec.ofNat 64 n), [0x00])))

/-- GET_NUMERIC_EFFECTER_VALUE. -/
def execGetNumericEffecterValue (port : MgmtPort) (effecter : BitVec 16) (s : State) : Res :=
  .next (s.pldm port 2 0x32 notEarly (fun s =>
    (s, if effecter = 31 then 0x00 :: leBytes 2 (s.get Reg.PWR_BUDGET_MODCAP) else [0x80])))

/-- The power effecter (R512): 1 Run, 2 Deep Frost, 3 Off, 4 Restart, 5 Start; the state, and the completion code. -/
def State.setPower (st : Nat) (s : State) : State × List Byte :=
  let idle := s.phase == .ready || s.phase == .halted || s.phase == .recovery
  match st with
  | 1 => (s, [0x00])
  | 2 => if s.phase = .ready ∧ s.enterFrost.2 = stOK then (s.enterFrost.1, [0x00]) else (s, [0x01])
  | 3 =>
    if s.phase = .bringUp then ({ s with boot := { s.boot with offAsked := true } }, [0x00])
    else if idle && !s.ending then (s.askEnd true, [0x00]) else (s, [0x01])
  | 4 => if idle && !s.ending then (s.askEnd false, [0x00]) else (s, [0x01])
  | _ => (s, [0x02])

/-- A start is asked for (R158, R510): from Off the module enters Start wait. -/
def State.askStart (s : State) : State :=
  { s with phase := .startWait, boot := { s.boot with asked := true, startWaitAt := if s.phase = .startWait then s.boot.startWaitAt else s.tick } }

/-- SET_STATE_EFFECTER_STATES: effecter 30; Start by the boot ROM; a halted module restarts (R152). -/
def execSetStateEffecterStates (port : MgmtPort) (effecter : BitVec 16) (state : Byte) (s : State) : Res :=
  if s.romUp port then
    .next (if effecter = 30 ∧ state = 5 then s.askStart.reply port [0x01, 2, 0x39, 0x00] else s)
  else .next (s.pldm port 2 0x39 (fun s => effecter == 30 && state == 4 && s.phase != .bringUp) (fun s =>
    if effecter = 30 then s.setPower state.toNat else (s, [0x80])))

/-- GET_STATE_EFFECTER_STATES: Run, or Deep Frost. -/
def execGetStateEffecterStates (port : MgmtPort) (effecter : BitVec 16) (s : State) : Res :=
  let now : Byte := if s.frost = .awake then 1 else 2
  .next (s.pldm port 2 0x3A notEarly (fun s => (s, if effecter = 30 then [0x00, now] else [0x80])))

/-- GET_PDR_REPOSITORY_INFO: one record per sensor and effecter. -/
def execGetPdrRepositoryInfo (port : MgmtPort) (s : State) : Res :=
  .next (s.pldm port 2 0x50 notEarly (fun s => (s, 0x00 :: leBytes 4 24)))

/-- GET_PDR: a record of the repository in the active image. -/
def execGetPdr (port : MgmtPort) (handle : BitVec 32) (s : State) : Res :=
  .next (s.pldm port 2 0x51 notEarly (fun s =>
    let slot := s.get Reg.CS_BOOT_ACTIVE
    let repo := ((s.components slot).filter (fun c => leAt c 0 1 == 6)).flatMap (s.componentBytes slot)
    (s, if handle.toNat < 24 then 0x00 :: Config.pdr repo handle.toNat else [0x82])))

/-! ### Events (R513, R514) -/

/-- SET_EVENT_RECEIVER: events are sent on the binding that sets it, or no longer. -/
def execSetEventReceiver (port : MgmtPort) (enable : Bool) (s : State) : Res :=
  .next (s.pldm port 2 0x04 notEarly (fun s =>
    ({ s with mgmt := { s.mgmt with receiver := if enable then some (portNum port) else none } }, [0x00])))

/-- EVENT_MESSAGE_SUPPORTED: which of the events of R513 the module queues, as a mask. -/
def execEventMessageSupported (port : MgmtPort) (s : State) : Res :=
  .next (s.pldm port 2 0x0C notEarly (fun s => (s, [0x00, 0xFE])))

/-- EVENT_MESSAGE_BUFFER_SIZE: the module's own size is not given, so it is a free value. -/
def execEventMessageBufferSize (port : MgmtPort) (size : BitVec 16) (s : State) : Res :=
  let _ := size
  .next (s.pldm port 2 0x0D notEarly (fun s => (s.draw, 0x00 :: (Config.freeBytes s.free 2).toList)))

/-- An event is acknowledged; ALERT# is released with the last one. -/
def State.ackEvent (id : Nat) (s : State) : State :=
  let q := s.mgmt.events.filter (fun e => e.id != id)
  if q.length = s.mgmt.events.length then s
  else
    ({ s with mgmt := { s.mgmt with events := q }, pins := { s.pins with alert := s.pins.alert && !q.isEmpty } } : State).set
      Reg.MC_STATUS_EVENTS q.length

/-- POLL_FOR_PLATFORM_EVENT_MESSAGE: acknowledges an event by its ID (0 for none) and returns the oldest that is left. -/
def execPollForPlatformEventMessage (port : MgmtPort) (ack : BitVec 16) (s : State) : Res :=
  .next (s.pldm port 2 0x0B notEarly (fun s =>
    let s1 := s.ackEvent ack.toNat
    (s1, 0x00 :: match s1.mgmt.events with
      | [] => [0, 0]
      | e :: _ => leBytes 2 e.id ++ [BitVec.ofNat 8 e.kind, BitVec.ofNat 8 e.overflow] ++ e.data)))

end Sys2Proof.Machine
end

