-- ==== Sys2Proof/Machine/PinRows.lean ====
section
/-! DEFINITION. The pins and the sideband ports: the I3C target's addresses and status (R71, R156), the boundary-scan port (R89 to R93),
PERST# (R149, R433) and PCI Express configuration requests (R149, R394). -/

namespace Sys2Proof.Machine

/-! ### I3C -/

/-- The static address of the target (R71): 0x30 + GA, as GA was sampled when the module left Start wait. -/
def State.i3cStatic (s : State) : Nat := 0x30 + s.pins.ga.toNat

/-- I3C_SETDASA (R71): the target takes a dynamic address, where it has none and the request names its static address. -/
def execI3cSetdasa (static address : BitVec 7) (s : State) : Res :=
  if s.phase = .dark ∨ s.pins.i3c.isSome ∨ static.toNat ≠ s.i3cStatic then .next s
  else .next { s with pins := { s.pins with i3c := some address } }

/-- I3C_ENTDAA (R71): the target takes part in dynamic address assignment where it has no dynamic address. -/
def execI3cEntdaa (address : BitVec 7) (s : State) : Res :=
  if s.phase = .dark ∨ s.pins.i3c.isSome then .next s else .next { s with pins := { s.pins with i3c := some address } }

/-- The vendor byte of GETSTATUS (R156): the stage and its result while bring-up runs or is halted. -/
def State.statusByte (s : State) : Nat :=
  if s.phase = .bringUp ∨ s.phase = .halted ∨ s.phase = .recovery then
    let st := s.get Reg.BRU_STATUS_STAGE
    16 * st + s.get (Reg.BRU_REPORT0_RESULT st)
  else 0

/-- I3C_GETSTATUS (R156, R517): after a controller failure, until stage 0 begins again, the byte that it set, which the spec does not give: a
free value. -/
def execI3cGetstatus (s : State) : Res :=
  let failed := s.boot.ctrl ≠ 0 ∧ (s.phase = .stopping ∨ s.phase = .startWait ∨ s.phase = .charging ∨ s.phase = .thermalWait)
  let byte := if failed then Config.freeByte s.boot.ctrlDraw else BitVec.ofNat 8 s.statusByte
  if s.phase = .dark then .next s else .next (s.emit (.message 1 [0, byte]))

/-! ### Boundary scan -/

/-- The boundary-scan port works while the always-on domain is powered and TRST# is high (R90). -/
def State.tapRuns (s : State) : Bool := s.phase != .dark && s.pins.trst

/-- The boundary-scan port changed by `f`. -/
def State.modTap (f : Tap → Tap) (s : State) : State :=
  if s.tapRuns then { s with pins := { s.pins with tap := f s.pins.tap } } else s

/-- What TDO carries. -/
def State.tdo (bs : List Byte) (s : State) : State := if s.tapRuns then s.emit (.message 3 bs) else s

/-- The module is in scan mode (R91). -/
def State.inScan (s : State) : Bool := s.pins.scanEn && s.powered

/-- The boundary register drives the pins of the module (R92). -/
def State.tapDrives (s : State) : Bool := s.pins.tap.drive == 1 || 3 ≤ s.pins.tap.drive

/-- An open-drain pin pulls low (R92): as cell `c` of the boundary register says while it drives the pins, not at all in high impedance,
else as the module has it. -/
def State.pullsLow (s : State) (c : Nat) (own : Bool) : Bool :=
  if s.tapDrives then !s.pins.tap.cells.getLsbD c else s.pins.tap.drive != 2 && own

/-- ALERT# and THERMTRIP# at their pins (R72, R92). -/
def State.alertLow (s : State) : Bool := s.pullsLow 55 s.pins.alert
def State.thermtripLow (s : State) : Bool := s.pullsLow 56 s.pins.thermtrip

/-- What the boundary register drives onto transmit lane `i` (R92): cell 32 + i on PETp and its complement on PETn, while cell 48 enables the
transmit lanes. -/
def State.txDriven (s : State) (i : Nat) : Option (Bool × Bool) :=
  let c := s.pins.tap.cells
  if s.tapDrives && c.getLsbD 48 then some (c.getLsbD (32 + i), !c.getLsbD (32 + i)) else none

/-- What the boundary register captures (R92): the levels of the pins that the model holds, and of the others what `levels` says. -/
def State.capture (s : State) (levels : BitVec 58) : Nat :=
  let keep := levels.toNat - (levels.toNat &&& (2 ^ 49 + 2 ^ 55 + 2 ^ 56))
  keep + 2 ^ 49 * b2n (!s.pins.perst) + 2 ^ 55 * b2n (!s.alertLow) + 2 ^ 56 * b2n (!s.thermtripLow)

/-- TAP_RESET (R90): TRST# or Test-Logic-Reset selects IDCODE and gives the pins back. `trst` is the level of TRST# from now on; while it is
low the port does nothing. -/
def execTapReset (trst : Bool) (s : State) : Res :=
  if s.phase = .dark then .next { s with pins := { s.pins with trst := trst } }
  else .next { s with pins := { s.pins with trst := trst, tap := {} } }

/-- The bypass register is selected: a bit shifts in, and the one it held shifts out. -/
def State.bypassShift (tdi : Bool) (drive : Nat) (s : State) : State :=
  let old := s.pins.tap.ir == 0xFF && s.pins.tap.bypass
  (s.tdo [BitVec.ofNat 8 (b2n old)]).modTap (fun t => { t with ir := 0xFF, bypass := tdi, drive := drive })

/-- BYPASS (R89). -/
def execBypass (tdi : Bool) (s : State) : Res := .next (s.bypassShift tdi 0)

/-- IDCODE (R89): 0x1A36_C5AB. -/
def execIdcode (s : State) : Res := .next ((s.tdo (leBytes 4 0x1A36C5AB)).modTap (fun t => { t with ir := 0x01, drive := 0 }))

/-- SAMPLE_PRELOAD (R93): the pins are observed, and the boundary register is loaded; the pins keep their function. -/
def execSamplePreload (pins cells : BitVec 58) (s : State) : Res :=
  .next ((s.tdo (leBytes 8 (s.capture pins))).modTap (fun t => { t with ir := 0x02, cells := cells, drive := 0 }))

/-- An instruction that drives the pins from the boundary register: in scan mode only; outside it acts as BYPASS (R90). -/
def State.scanDrive (code drive : Nat) (pins cells : BitVec 58) (s : State) : State :=
  if s.inScan then (s.tdo (leBytes 8 (s.capture pins))).modTap (fun t => { t with ir := code, cells := cells, drive := drive })
  else s.bypassShift false 0

/-- EXTEST (R90). -/
def execExtest (pins cells : BitVec 58) (s : State) : Res := .next (s.scanDrive 0x00 1 pins cells)

/-- EXTEST_PULSE (R90). -/
def execExtestPulse (pins cells : BitVec 58) (s : State) : Res := .next (s.scanDrive 0x06 3 pins cells)

/-- EXTEST_TRAIN (R90). -/
def execExtestTrain (pins cells : BitVec 58) (s : State) : Res := .next (s.scanDrive 0x07 4 pins cells)

/-- CLAMP (R90): the outputs hold what the boundary register has, and the bypass register is selected. -/
def execClamp (s : State) : Res :=
  if s.inScan then .next ((s.tdo [0]).modTap (fun t => { t with ir := 0x04, bypass := false, drive := 1 })) else .next (s.bypassShift false 0)

/-- HIGHZ (R90): the outputs are high impedance, and the bypass register is selected. -/
def execHighz (s : State) : Res :=
  if s.inScan then .next ((s.tdo [0]).modTap (fun t => { t with ir := 0x05, bypass := false, drive := 2 })) else .next (s.bypassShift false 0)

/-! ### PERST# and configuration requests -/

/-- PERST_ASSERT (R433): the host port is reset; nothing else is. -/
def execPerstAssert (s : State) : Res :=
  let s1 : State := { s with pins := { s.pins with perst := true } }
  if s.pins.perst ∨ !s.hostUp then .next s1 else .next s1.conventionalReset

/-- PERST_DEASSERT (R149): the bound of R149 counts from here, or from the start of stage 0 where that comes later. -/
def execPerstDeassert (s : State) : Res :=
  let s1 : State := { s with pins := { s.pins with perst := false } }
  if s.pins.perst ∧ (s.phase = .bringUp ∨ s.phase = .ready ∨ s.phase = .halted ∨ s.phase = .recovery) then
    .next { s1 with boot := { s1.boot with perstAt := some s.tick, enumerated := false } }
  else .next s1

/-- The host port's link is up. -/
def State.pcieUp (s : State) : Bool := s.hostUp && s.get Reg.RING_HOST_SPEED != 0 && !s.pins.perst

/-- What a function's configuration space holds at a doubleword (R394). The places of the capability structures are the model's: power
management 0x40, MSI-X 0x50, PCI Express 0x70 (its Relaxed Ordering enable reads 1
until it is written), serial number 0x150, SR-IOV 0x160. -/
def State.cfgRead (s : State) (f off : Nat) : Nat :=
  let w := spGet 0 (s.func f).cfg off
  match off with
  | 0x000 => Config.vendorId.toNat + 65536 * (if f = 0 then 0xA36C else 0xA36D)
  | 0x008 => 0x120000B0
  | 0x010 => if f = 0 then w / 2 ^ 26 * 2 ^ 26 + 4 else 0
  | 0x014 => if f = 0 then w else 0
  | 0x034 => 0x40
  | 0x044 => if (s.func f).d3hot then 0xB else 0x8
  | 0x050 => 0x3F7011 + 2 ^ 30 * b2n (s.func f).msix.funcMask + 2 ^ 31 * b2n (s.func f).msix.enabled
  | 0x078 => w ^^^ 0x10
  | 0x154 => s.get Reg.ID_UNIT_SERIAL % 2 ^ 32
  | 0x158 => s.get Reg.ID_UNIT_SERIAL / 2 ^ 32
  | 0x168 => if f = 0 then w / 2 * 2 + b2n s.vfEnable else 0
  | _ => w

/-- The MSI-X messages that a function's pending bits hold are sent once nothing masks them (R400). -/
def State.flushMsix (f : Nat) (s : State) : State :=
  let x := (s.func f).msix
  if (s.func f).d3hot || !x.enabled || x.funcMask then s
  else
    (bitList 64 x.pending.toNat).foldl (fun s v =>
      if x.masked.getLsbD v then s
      else (s.modFunc f (fun h => { h with msix := { h.msix with pending := h.msix.pending &&& ~~~(BitVec.ofNat 64 (2 ^ v)) } })).emit (.msix f v)) s

/-- A write of a function's configuration space: it is held, and D3hot, the MSI-X controls and VF Enable act (R394, R400). -/
def State.cfgWrite (f off : Nat) (v : BitVec 32) (s : State) : State :=
  let s1 := s.modFunc f (fun h => { h with cfg := spSet 0 h.cfg off (v.toNat ^^^ (if off = 0x078 then 0x10 else 0)) })
  match off with
  | 0x044 => (s1.modFunc f (fun h => { h with d3hot := bits v.toNat 0 2 == 3 })).flushMsix f
  | 0x050 =>
    (s1.modFunc f (fun h => { h with msix := { h.msix with enabled := bitAt v.toNat 31, funcMask := bitAt v.toNat 30 } })).flushMsix f
  | 0x168 => if f = 0 then { s1 with vfEnable := bitAt v.toNat 0 } else s1
  | _ => s1

/-- CONFIG_REQUEST (R149): once the link is up, every configuration request is answered in full; a VF answers while VF Enable is 1. The
first answer sets BRU_TIMES.ENUMUS. -/
def execConfigRequest (func : Fin 17) (write : Bool) (off : BitVec 12) (v : BitVec 32) (s : State) : Res :=
  let f := func.val
  let o := off.toNat / 4 * 4
  if !s.pcieUp then .next s
  else
    let s1 := if s.boot.enumerated then s
      else
        let from' := s.boot.perstAt.getD s.boot.zeroAt
        ({ s with boot := { s.boot with enumerated := true } } : State).set Reg.BRU_TIMES_ENUMUS (s.since from' / 1000)
    if f ≠ 0 ∧ !s.vfEnable then .next (s1.emit (.completion f none))
    else if write then .next ((s1.cfgWrite f o v).emit (.completion f (some [])))
    else .next (s1.emit (.completion f (some (leBytes 4 (s1.cfgRead f o)))))

end Sys2Proof.Machine
end

