-- ==== Sys2Proof/Machine/Spdm.lean ====
section
/-! DEFINITION. SPDM 1.2 as a responder (R515, R516) and IDE_KM (R398). The spec names the protocol without its formats: a request's fields
come as operands, a reply is its response code and data; random numbers and signatures are free values. -/

namespace Sys2Proof.Machine

/-- An SPDM request on a port that answers. -/
def State.spdm (p : MgmtPort) (k : State → State × List Byte) (s : State) : State :=
  if s.portUp p then (k s).1.reply p (0x05 :: (k s).2) else s

/-- How far a port's connection is negotiated: 1 version, 2 capabilities, 3 algorithms. -/
def State.spdmLevel (s : State) (p : MgmtPort) : Nat := spGet 0 s.mgmt.conn (portNum p)

/-- A port's connection is negotiated up to a level. -/
def State.setLevel (p : MgmtPort) (n : Nat) (s : State) : State :=
  { s with mgmt := { s.mgmt with conn := spSet 0 s.mgmt.conn (portNum p) n } }

/-- The ERROR reply. -/
def spdmError (code : Byte) : List Byte := [0x7F, code]

/-- A request that needs a negotiated connection: ERROR UnexpectedRequest without. -/
def State.spdmAt (p : MgmtPort) (level : Nat) (k : State → State × List Byte) (s : State) : State :=
  s.spdm p (fun s => if s.spdmLevel p < level then (s, spdmError 0x04) else k s)

/-- GET_VERSION: 1.2; the connection begins again. -/
def execGetVersion (port : MgmtPort) (s : State) : Res :=
  .next (s.spdm port (fun s => (s.setLevel port 1, [0x04, 0x12])))

/-- GET_CAPABILITIES. -/
def execGetCapabilities (port : MgmtPort) (s : State) : Res :=
  .next (s.spdmAt port 1 (fun s => (s.setLevel port (max 2 (s.spdmLevel port)), [0x61])))

/-- NEGOTIATE_ALGORITHMS: `fit` says whether the requester offers ECDSA P-384, SHA-384, ECDHE on P-384 and AES-256-GCM. -/
def execNegotiateAlgorithms (port : MgmtPort) (fit : Bool) (s : State) : Res :=
  .next (s.spdmAt port 2 (fun s => if fit then (s.setLevel port 3, [0x63]) else (s, spdmError 0x01)))

/-- The certificate chain of slot 0. -/
def State.certs (s : State) : List Byte := Config.certChain (s.fuse 4)

/-- GET_DIGESTS: of slot 0. -/
def execGetDigests (port : MgmtPort) (s : State) : Res :=
  .next (s.spdmAt port 3 (fun s => (s, [0x01, 0x01] ++ sha384 s.certs)))

/-- GET_CERTIFICATE: a portion of the chain of slot 0, the only slot. -/
def execGetCertificate (port : MgmtPort) (slot : Byte) (off len : BitVec 16) (s : State) : Res :=
  .next (s.spdmAt port 3 (fun s =>
    (s, if slot = 0 then 0x02 :: (s.certs.drop off.toNat).take len.toNat else spdmError 0x01)))

/-- A nonce and a signature, as free values. -/
def State.signed (s : State) : List Byte := (Config.freeBytes s.free 128).toList

/-- CHALLENGE: signed by the key of slot 0. -/
def execChallenge (port : MgmtPort) (slot : Byte) (s : State) : Res :=
  .next (s.spdmAt port 3 (fun s =>
    if slot = 0 then (s.draw, [0x03] ++ sha384 s.certs ++ s.signed) else (s, spdmError 0x01)))

/-- The measurement blocks: six of this start and the debug state (R516). -/
def State.measurements (s : State) : List (List Byte) := s.mgmt.measured ++ [s.measure7]

/-- GET_MEASUREMENTS: index 0 asks for their number, 0xFF for all of them. -/
def execGetMeasurements (port : MgmtPort) (index : Byte) (signature : Bool) (s : State) : Res :=
  .next (s.spdmAt port 3 (fun s =>
    let i := index.toNat
    let blocks := if i = 0 then some [BitVec.ofNat 8 s.measurements.length]
      else if i = 0xFF then some (s.measurements.flatMap id)
      else (s.measurements[i - 1]?).map (fun b => index :: b)
    match blocks with
    | none => (s, spdmError 0x01)
    | some b => if signature then (s.draw, [0x60] ++ b ++ s.signed) else (s, 0x60 :: b)))

/-! ### Sessions -/

/-- The session of a port. -/
def State.session (s : State) (p : MgmtPort) (id : Byte) : Option Session :=
  s.mgmt.sessions.find? (fun x => x.port == portNum p && x.id == id.toNat)

/-- The sessions of a port other than one, with what replaces it. -/
def State.setSession (p : MgmtPort) (id : Byte) (new : Option Session) (s : State) : State :=
  { s with mgmt := { s.mgmt with
      sessions := s.mgmt.sessions.filter (fun x => !(x.port == portNum p && x.id == id.toNat)) ++ new.toList } }

/-- KEY_EXCHANGE: a session begins, of at most two on a transport. -/
def execKeyExchange (port : MgmtPort) (s : State) : Res :=
  .next (s.spdmAt port 3 (fun s =>
    match ([1, 2] : List Byte).find? (fun i => (s.session port i).isNone) with
    | none => (s, spdmError 0x0A)
    | some i => ((s.draw).setSession port i (some { port := portNum port, id := i.toNat }), [0x64, i] ++ s.signed)))

/-- FINISH: the handshake ends; `ok` is false where its proof does not hold, and the session is gone. -/
def execFinish (port : MgmtPort) (id : Byte) (ok : Bool) (s : State) : Res :=
  .next (s.spdmAt port 3 (fun s => match s.session port id with
    | some x =>
      if x.established then (s, spdmError 0x04)
      else if ok then (s.setSession port id (some { x with established := true }), [0x65]) else (s.setSession port id none, spdmError 0x06)
    | none => (s, spdmError 0x04)))

/-- A request inside an established session. -/
def State.inSession (p : MgmtPort) (id : Byte) (k : Session → State → State × List Byte) (s : State) : State :=
  s.spdmAt p 3 (fun s => match s.session p id with
    | some x => if x.established then k x s else (s, spdmError 0x04)
    | none => (s, spdmError 0x04))

/-- HEARTBEAT. -/
def execHeartbeat (port : MgmtPort) (id : Byte) (s : State) : Res := .next (s.inSession port id (fun _ s => (s, [0x68])))

/-- KEY_UPDATE: the session's keys are replaced. -/
def execKeyUpdate (port : MgmtPort) (id : Byte) (s : State) : Res :=
  .next (s.inSession port id (fun x s => (s.setSession port id (some { x with updates := x.updates + 1 }), [0x69])))

/-- END_SESSION. -/
def execEndSession (port : MgmtPort) (id : Byte) (s : State) : Res :=
  .next (s.inSession port id (fun _ s => (s.setSession port id none, [0x6C])))

/-- VENDOR_DEFINED_REQUEST (R398): IDE_KM on DOE only, in a session: 0 the keys of a function's stream are set, 1 they are put to use and the
stream is Secure, 2 the stream stops. Any other use is an unsupported request. -/
def execVendorDefinedRequest (port : MgmtPort) (id : Byte) (func : Fin 17) (op : Fin 3) (s : State) : Res :=
  let f := func.val
  if port ≠ .doe then .next (s.spdm port (fun s => (s, spdmError 0x07)))
  else .next (s.inSession port id (fun _ s =>
    if op = 0 then ({ s with mgmt := { s.mgmt with ideKeys := f :: s.mgmt.ideKeys.filter (· != f) } }, [0x7E, 0x01])
    else if op = 1 then
      if s.mgmt.ideKeys.contains f then (s.setSecure f true, [0x7E, 0x03]) else (s, spdmError 0x04)
    else (s.setSecure f false, [0x7E, 0x04])))

end Sys2Proof.Machine
end

