-- ==== Sys2Proof/Machine/Bundle.lean ====
section
/-! DEFINITION. One bundle at issue (R162 to R177): what enables a slot, what it faults on (R164, R167, R184, R576), what it stalls for
(R175), the results of its slots, its queue operation (R285 to R288, R307). -/

namespace Sys2Proof.Machine

/-! ### Slots -/

/-- The slot is enabled by its predicate (R161, R162). -/
def Tile.slotOn (t : Tile) (w : Nat) : Bool := t.pred (wPred w) != wPneg w

/-- A core register that a queued operation is still to write: a pooled PEEK, the V queue's operations (R174). -/
def Tile.awaited (t : Tile) : List CReg := t.peeks.map (fun e => .g e.2) ++ t.vq.flatMap (fun v => vLands v.word)

/-- The bundle waits for a register that some slot reads or writes, enabled or not (R162, R174). -/
def Tile.interlocked (t : Tile) (b : List Byte) : Bool :=
  (List.range 8).any (fun i =>
    (slotReads i (slotWord b i) ++ slotWrites i (slotWord b i)).any (fun r => t.awaited.contains r))

/-- The enabled slots' writes before slot `i`. -/
def Tile.earlierWrites (t : Tile) (b : List Byte) (i : Nat) : List CReg :=
  (List.range i).flatMap (fun k => if t.slotOn (slotWord b k) then slotWrites k (slotWord b k) else [])

/-- Slot `i` writes a register that an earlier slot, or itself, writes too (R164). -/
def Tile.conflicts (t : Tile) (b : List Byte) (i : Nat) : Bool :=
  let ws := slotWrites i (slotWord b i)
  !decide ws.Nodup || ws.any (fun r => (t.earlierWrites b i).contains r)

/-! ### The L slot -/

/-- The address of an access (R166). -/
def Tile.lAddr (t : Tile) (w : Nat) : Nat :=
  if lUpd w then (t.ar (lA w)).toNat else unsigned 48 ((t.ar (lA w)).toNat + lOff w)

/-- What aA becomes. -/
def Tile.lNext (t : Tile) (w : Nat) : BitVec 48 := BitVec.ofNat 48 (unsigned 48 ((t.ar (lA w)).toNat + lOff w))

/-- The bytes of an access within its word, as a mask. -/
def lMask (a n : Nat) : BitVec 8 := BitVec.ofNat 8 ((2 ^ n - 1) * 2 ^ (a % 8))

/-- The youngest entry that touches a byte of an access, with its place (R182). -/
def Tile.youngest (t : Tile) (a n : Nat) : Option (SbEntry × Nat) :=
  (t.sb.zipIdx.reverse.find? (fun e => e.1.word == a / 8 && e.1.mask &&& lMask a n != 0))

/-- The entry holds every byte of an access. -/
def SbEntry.covers (e : SbEntry) (a n : Nat) : Bool := e.mask &&& lMask a n == lMask a n

/-- A load is forwarded whole from the store buffer and reads no bank (R182). -/
def Tile.forwarded (t : Tile) (a n : Nat) : Bool := match t.youngest a n with | some e => e.1.covers a n | none => false

/-- The bytes that a load gives (R182); those that a queued vector operation writes are old or new (R273). -/
def Tile.loadBytes (n acc : Nat) (t : Tile) (a len : Nat) : List Byte :=
  ((t.drainAll.looseRead n acc a len).zipIdx).map (fun e => (t.sbByte (a + e.2)).getD e.1)

/-- The entries up to the deciding one drain before a load in the partial case reads the scratchpad (R182). -/
def Tile.drainFor (a n : Nat) (t : Tile) : Tile :=
  match t.youngest a n with
  | some e => if e.1.covers a n then t else { (t.sb.take (e.2 + 1)).foldl Tile.drainEntry t with sb := t.sb.drop (e.2 + 1) }
  | none => t

/-- The value that a load gives (R166). -/
def loadValue (op : Nat) (bs : List Byte) : Nat :=
  if 5 ≤ op ∧ op ≤ 7 then unsigned 64 (signed (8 * bs.length) (leNat bs)) else leNat bs

/-- A store enters the buffer (R181). -/
def Tile.sbStore (a : Nat) (bs : List Byte) (t : Tile) : Tile :=
  let n := bs.length
  let data := BitVec.ofNat 64 (leNat bs * 2 ^ (8 * (a % 8)))
  match t.sb.getLast? with
  | some e =>
    if e.word = a / 8 then
      { t with sb := t.sb.dropLast ++ [{ e with
          mask := e.mask ||| lMask a n
          data := BitVec.ofNat 64 (leNat (sbMerge (lMask a n) (leBytes 8 data.toNat) (leBytes 8 e.data.toNat))) }] }
    else { t with sb := t.sb ++ [{ word := a / 8, data := data, mask := lMask a n }] }
  | none => { t with sb := t.sb ++ [{ word := a / 8, data := data, mask := lMask a n }] }

/-- The bytes that a store stores. -/
def Tile.storeBytes (t : Tile) (w : Nat) : List Byte :=
  leBytes (lSize (wOp w)) (if wOp w = 0xD then (t.ar (lG w % 16)).toNat else (t.gr (lG w)).toNat)

/-- A store finds all eight entries full and may not merge (R181). DESIGN CHOICE: one that merges into the youngest entry needs no entry and
does not stall, though R181 says that a bundle whose store finds all eight full does. -/
def Tile.sbFull (t : Tile) (w : Nat) : Bool :=
  t.sb.length ≥ 8 && (match t.sb.getLast? with | some e => e.word != t.lAddr w / 8 | none => true)

/-- The exception of an L slot (R167, R184): code, status, address. -/
def Tile.lFault (t : Tile) (ecc : Secded) (w : Nat) : Option (Nat × Nat × Nat) :=
  let n := lSize (wOp w)
  let a := t.lAddr w
  if n = 0 then none
  else if a % n != 0 then some (3, stBounds, a)
  else if a ≥ 0x800000 then some (4, stBounds, a)
  else if lIsLoad (wOp w) && ecc == .uncorrectable && (t.youngest a n).isNone then some (7, stUncorrected, a)
  else none

/-! ### D and B slots -/

/-- The exception of a D slot (R168), with fault address 0 (TILE_FAULT_ADDR). -/
def Tile.dFault (t : Tile) (w : Nat) : Option (Nat × Nat × Nat) :=
  let a := (t.ar (dA w)).toNat
  if wOp w ≠ 1 then none
  else if a % 64 != 0 then some (3, stBounds, 0)
  else if a ≥ 0x800000 then some (4, stBounds, 0) else none

/-- The register that BRG or RET branches to. -/
def bReg (w : Nat) : Nat := if wOp w = 4 then 63 else bSA w

/-- The exception of a B slot (R172). -/
def Tile.bFault (t : Tile) (w : Nat) : Option (Nat × Nat × Nat) :=
  if (wOp w = 2 ∨ wOp w = 4) ∧ (t.gr (bReg w)).toNat ≥ 2048 then some (5, stBounds, (t.gr (bReg w)).toNat % 2 ^ 48) else none

/-- Where a taken branch goes. -/
def Tile.bTaken (t : Tile) (w : Nat) : Option Nat :=
  match wOp w with
  | 1 | 3 => some (bTgt w)
  | 2 | 4 => some ((t.gr (bReg w)).toNat)
  | 5 => if t.gr (bSA w) - 1 = 0 then none else some (bTgt w)
  | _ => none

/-! ### Exceptions of a bundle -/

/-- The exception of slot `i`, but for the queue's own (R184, R576): code, status, address. -/
def State.slotFault (s : State) (g : Nat) (ecc : TileEcc) (b : List Byte) (i : Nat) : Option (Nat × Nat × Nat) :=
  let t := s.tile g
  let w := slotWord b i
  if !slotLegal i w then some (1, stBadOpcode, 0)
  else if (i == 4 && !mLegal w) || (i == 5 && !(vLegal w && vShape w)) then some (8, stBadOpcode, 0)
  else if !t.slotOn w then none
  else if t.conflicts b i then some (2, stBadOpcode, 0)
  else match i with
    | 2 => t.lFault ecc.load w
    | 3 => t.dFault w
    | 4 => (s.mxCheck g w).map (fun e => (8, e.1, e.2))
    | 5 => (t.vxCheck (s.claim g) w).map (fun e => (8, e, 0))
    | 7 => t.bFault w
    | _ => none

/-- The first slot that faults, with its exception. -/
def State.bundleFault (s : State) (g : Nat) (ecc : TileEcc) (b : List Byte) : Option (Nat × Nat × Nat × Nat) :=
  (List.range 8).findSome? (fun i => (s.slotFault g ecc b i).map (fun e => (i, e)))

/-! ### Stalls -/

/-- An enabled slot waits for a resource (R169, R171, R175, R181, R222, R271). -/
def State.slotStall (s : State) (g : Nat) (b : List Byte) (i : Nat) : Bool :=
  let t := s.tile g
  let w := slotWord b i
  t.slotOn w &&
  (match i with
   | 2 => if wOp w = 0xE then !t.sb.isEmpty else lIsStore (wOp w) && t.sbFull w
   | 3 =>
     if wOp w = 1 then !t.sb.isEmpty || (t.chan (dCh w)).descs.length ≥ 4
     else wOp w == 2 && !(t.chan (dCh w)).descs.isEmpty
   | 4 => t.mxStall (s.mxCfg g) w
   | 5 => t.vxStall w
   | 6 =>
     if wOp w = 1 then !t.sb.isEmpty
     else wOp w == 3 && s.sleepDepth g (qDepth w) == 3 && !(t.mxOps.isEmpty && t.vq.isEmpty)
   | 7 => wOp w == 7 && (List.range 4).any (fun c => (t.chan c).descs.any (fun d => dDstSpace d.2 == 5))
   | _ => false)

/-! ### Scalar results (R165) -/

/-- The result of an operation that writes a general register. `old` is gDST. -/
def scalarValue (op : Nat) (a b imm old tick cyc : Word) (g : Nat) : Word :=
  match op with
  | 0x01 => a + b
  | 0x02 => a - b
  | 0x03 => a &&& b
  | 0x04 => a ||| b
  | 0x05 => a ^^^ b
  | 0x06 => a <<< (b.toNat % 64)
  | 0x07 => a >>> (b.toNat % 64)
  | 0x08 => a.sshiftRight (b.toNat % 64)
  | 0x09 => a * b
  | 0x0A => BitVec.ofNat 64 (a.toNat * b.toNat / 2 ^ 64)
  | 0x0B => if b = 0 then 0xFFFFFFFFFFFFFFFF else a / b
  | 0x0C => if a.slt b then a else b
  | 0x0D => if a.slt b then b else a
  | 0x10 => a + imm
  | 0x11 => a &&& imm
  | 0x12 => a ||| imm
  | 0x13 => a ^^^ imm
  | 0x14 => imm
  | 0x15 => BitVec.ofNat 64 (imm.toNat % 2 ^ 32 * 2 ^ 32 + old.toNat % 2 ^ 32)
  | 0x38 => tick
  | 0x39 => cyc
  | 0x3A => BitVec.ofNat 64 g
  | _ => 0

/-- The result of an operation that writes a predicate. -/
def scalarPred (op : Nat) (a b imm : Word) (p q : Bool) : Bool :=
  match op with
  | 0x20 => a == b
  | 0x21 => a.slt b
  | 0x22 => a.ult b
  | 0x23 => a == imm
  | 0x24 => p && q
  | 0x25 => p || q
  | _ => !p

/-- The result of an operation that writes an address register. -/
def scalarAddr (op : Nat) (ga gb : Word) (aa : BitVec 48) (imm : Word) : BitVec 48 :=
  match op with
  | 0x30 => BitVec.ofNat 48 ga.toNat
  | 0x32 => aa + BitVec.ofNat 48 imm.toNat
  | _ => aa + BitVec.ofNat 48 gb.toNat

/-- A result for a core register. -/
inductive RegWrite where
  | g (i : Nat) (v : Word)
  | a (i : Nat) (v : BitVec 48)
  | p (i : Nat) (v : Bool)

/-- A tile with a result written. -/
def RegWrite.apply (t : Tile) (r : RegWrite) : Tile :=
  match r with
  | .g i v => t.setG i v
  | .a i v => t.setA i v
  | .p i v => t.setP i v

/-- The result of S0 or S1. -/
def Tile.scalar (t : Tile) (tick cyc : Word) (g w : Nat) : List RegWrite :=
  let op := wOp w
  let a := t.gr (sA w)
  let b := t.gr (sB w)
  let imm : Word := BitVec.ofNat 64 (sImm w)
  match sUse op with
  | some (1, _, _, _) =>
    [.g (sDst w) (if op = 0x31 then BitVec.ofNat 64 (t.ar (sA w % 16)).toNat else scalarValue op a b imm (t.gr (sDst w)) tick cyc g)]
  | some (2, _, _, _) => [.p (sDst w % 16) (scalarPred op a b imm (t.pred (sA w % 16)) (t.pred (sB w % 16)))]
  | some (3, _, _, _) => [.a (sDst w % 16) (scalarAddr op a b (t.ar (sA w % 16)) imm)]
  | _ => []

/-- The results of the L slot: the load, and aA after a post-increment. -/
def Tile.loads (free acc : Nat) (t : Tile) (w : Nat) : List RegWrite :=
  let op := wOp w
  let n := lSize op
  if n = 0 then []
  else
    let v := loadValue op (t.loadBytes free acc (t.lAddr w) n)
    (if op = 0xC then [.a (lG w % 16) (BitVec.ofNat 48 v)] else if lIsLoad op then [.g (lG w) (BitVec.ofNat 64 v)] else []) ++
      (if lUpd w then [.a (lA w) (t.lNext w)] else [])

/-- The results of the D, M, V, Q (but a TAKE's and a pooled PEEK's) and B slots. -/
def Tile.otherResults (t : Tile) (ba i w : Nat) : List RegWrite :=
  match i with
  | 3 => if wOp w = 3 then [.g (dG w) (BitVec.ofNat 64 (t.chan (dCh w)).descs.length)] else []
  | 4 =>
    let p := t.panel (mPanel w)
    if wOp w = 9 then [.g (mG w) (BitVec.ofNat 64 (p.queue.length + p.readq.length))] else []
  | 5 => if wOp w = 0x39 then [.g (spIdx (vDst w)) (BitVec.ofNat 64 t.vq.length)] else []
  | 6 => if wOp w = 5 ∧ !qPool w then [.g (qG w) (BitVec.ofNat 64 (t.queue (qQueue w)).value.toNat)] else []
  | 7 =>
    if wOp w = 3 then [.g 63 (BitVec.ofNat 64 (ba + 1))]
    else if wOp w = 5 then [.g (bSA w) (t.gr (bSA w) - 1)] else []
  | _ => []

/-- Every core register result of a bundle, read before any is written (R162). -/
def Tile.results (free acc : Nat) (t : Tile) (tick cyc : Word) (g ba : Nat) (b : List Byte) : List RegWrite :=
  (List.range 8).flatMap (fun i =>
    let w := slotWord b i
    if !t.slotOn w then []
    else if i < 2 then t.scalar tick cyc g w
    else if i = 2 then t.loads free acc w
    else t.otherResults ba i w)

/-! ### The Q slot -/

/-- What becomes of a bundle's queue operation. -/
inductive QOut where
  /-- The bundle may issue; a TAKE's remaining value. -/
  | go (rest : Option Nat)
  /-- The tile waits, or raised QUEUE: the state after it. -/
  | held (s : State)

/-- The count of a queue operation (R170). -/
def Tile.qCountOf (t : Tile) (w : Nat) : Nat := if qUseg w then (t.gr (qG w)).toNat % 2 ^ 24 else qCount w

/-- A pooled queue lies in the tenancy's range (R280). -/
def State.inRange (s : State) (t q : Nat) : Bool :=
  t ≤ 16 && s.get (Reg.PQ_TNCFG_BASE t) ≤ q && q < s.get (Reg.PQ_TNCFG_BASE t) + s.get (Reg.PQ_TNCFG_COUNT t)

/-- An Isobar packet of a tile's Q slot (R283). -/
def State.qPacket (s : State) (g w : Nat) (kind : IsoKind) : Iso :=
  let t := s.tileTen g
  { kind := kind, pool := qPool w, queue := qQueue w, tile := g, src := .slot g, tenancy := t, count := (s.tile g).qCountOf w
    epoch := s.heldEpoch (if qPool w then 0xC0 + t else 0x40 + g) }

/-- A tile begins a wait (R286, R291, R308). -/
def State.beginWait (g w : Nat) (b : List Byte) (phase : WaitPhase) (s : State) : State :=
  let op := wOp w
  let depth := if op = 3 then s.sleepDepth g (qDepth w) else 0
  let s1 := s.modTile g (fun t => { t with wait := { phase := phase, bundle := b } })
  let s2 := (((((((s1.set (Reg.TILE_Q_WAIT_QUEUE g) (qQueue w)).set (Reg.TILE_Q_WAIT_POOL g) (b2n (qPool w))).set
    (Reg.TILE_Q_WAIT_OP g) op).set (Reg.TILE_Q_WAIT_DEPTH g) depth).set (Reg.TILE_Q_WAIT_ACTIVE g) 1).set
    (Reg.TILE_Q_WAIT_COUNT g) ((s.tile g).qCountOf w)).set (Reg.TILE_Q_WSTART_TICK g) s.tick.toNat).setRun g runWait
  if op = 3 then s2.waitSleep g depth else s2.set (Reg.PWR_DOM_STATE_WAITLULL g) 1

/-- The Q slot raises QUEUE at issue. -/
def State.qFault (s : State) (g w value flags status : Nat) : QOut :=
  .held (s.queueFault g (wOp w) (qQueue w + 4096 * b2n (qPool w)) ((s.tile g).qCountOf w)
    (if wOp w = 3 then s.sleepDepth g (qDepth w) else 0) s.tick.toNat value flags false status)

/-- WAIT, WAITS or TAKE at a local queue (R285, R287 to R289). -/
def State.localWait (s : State) (g w : Nat) (b : List Byte) : QOut :=
  let t := s.tile g
  let q := t.queue (qQueue w)
  let c := t.qCountOf w
  if q.ovf then s.qFault g w q.value.toNat q.flags stDrift
  else if c ≤ q.value.toNat then .go (if wOp w = 4 then some (q.value.toNat - c) else none)
  else if q.strict then s.qFault g w q.value.toNat q.flags stUnderflow
  else .held (s.beginWait g w b .atTile)

/-- A wait on the sweep queue (R304, R306, R307). -/
def State.sweepWait (s : State) (g w : Nat) (b : List Byte) : QOut :=
  let t := s.tile g
  let ten := s.tileTen g
  let q := s.pq (qQueue w)
  if wOp w = 4 ∨ t.qCountOf w ≠ s.get (Reg.PQ_TNSWEEP_N ten) ∨ !t.sweeper then s.qFault g w q.value.toNat q.flags stBadOpcode
  else if t.sweepDrift then
    State.qFault (s.modTile g (fun t => { t with sweepDrift := false })) g w q.value.toNat q.flags stDrift
  else if s.on (Reg.TILE_Q_WAIT_SWEEPLATCH g) then .go none
  else .held (s.beginWait g w b .atTile)

/-- The queue operation of a bundle before it issues. -/
def State.qGate (s : State) (g : Nat) (b : List Byte) : QOut :=
  let t := s.tile g
  let w := slotWord b 6
  let op := wOp w
  if !t.slotOn w || op = 0 then .go none
  else if qPool w && !s.inRange (s.tileTen g) (qQueue w) then s.qFault g w 0 0 stNotOwner
  else if op = 1 ∨ op = 5 then .go none
  else if !qPool w then s.localWait g w b
  else if s.isSweepQ (s.tileTen g) (qQueue w) then s.sweepWait g w b
  else
    let s1 := s.beginWait g w b .pooled
    let p := s.qPacket g w (if op = 4 then .take else .wait)
    .held (if s.isShadow g then s1 else s1.sendIso p)

end Sys2Proof.Machine
end

