-- ==== Sys2Proof/Machine/TileCore.lean ====
section
/-! DEFINITION. The tile core's commands: a bundle's issue (R162, R163, R185, R191), the store buffer's drain (R179, R181), the end of a halt
(R189), the provider's debug registers (R190 to R193). -/

namespace Sys2Proof.Machine

/-! ### Issue -/

/-- The tile may issue a bundle: it runs, is awake, its store is loaded, it has not halted and no wait holds it. -/
def State.canIssue (s : State) (g : Nat) : Bool :=
  let t := s.tile g
  s.run g == runRunning && s.domState g == 0 && !t.halting && t.loading.isNone && (t.wait.phase == .none || t.wait.phase == .released)

/-- An armed breakpoint names BA (R191). -/
def State.atBreakpoint (s : State) (g : Nat) : Bool :=
  let ba := s.get (Reg.TILE_STATE_BA g)
  s.on (Reg.TILE_DBG_CTL_ARM g) && !(s.tile g).pastBp && (s.tile g).wait.phase == .none &&
    ((s.on (Reg.TILE_DBG_BP_EN0 g) && s.get (Reg.TILE_DBG_BP_BP0 g) == ba) || (s.on (Reg.TILE_DBG_BP_EN1 g) && s.get (Reg.TILE_DBG_BP_BP1 g) == ba))

/-- The bundle at BA: what waits, or what is fetched, old or new where writes went by (R176). -/
def State.fetched (s : State) (g : Nat) : List Byte :=
  let t := s.tile g
  let ba := s.get (Reg.TILE_STATE_BA g)
  if t.wait.phase = .released then t.wait.bundle
  else
    let olds := (t.stale.filter (fun e => e.1 == ba)).map (fun e => e.2.2)
    (olds[Config.freeNat s.free % (olds.length + 1)]?).getD (t.bundle ba)

/-- The enabled L slot loads, and does not take all its bytes from the store buffer. -/
def Tile.readsBank (t : Tile) (w : Nat) : Bool :=
  t.slotOn w && lIsLoad (wOp w) && !t.forwarded (t.lAddr w) (lSize (wOp w))

/-- The enabled M slot reads a stream descriptor at issue. -/
def Tile.readsDesc (t : Tile) (w : Nat) : Bool := t.slotOn w && (wOp w == 3 || wOp w == 6)

/-- Corrected errors that the bundle met are counted (R177, R188). -/
def State.countIssue (g : Nat) (ecc : TileEcc) (b : List Byte) (s : State) : State :=
  let t := s.tile g
  let l := slotWord b 2
  let m := slotWord b 4
  let s1 := if ecc.fetch = .corrected then s.isCorrected g (64 * s.get (Reg.TILE_STATE_BA g)) else s
  let s2 := if ecc.load = .corrected ∧ t.readsBank l then s1.spCorrected g (t.lAddr l) else s1
  if ecc.desc = .corrected ∧ t.readsDesc m then s2.spCorrected g (t.ar (mA m)).toNat else s2

/-- The uncorrectable errors that the core's engine accesses behind an issued bundle find: the partial drain before its load (R181, R182), whose
word is lost, and the descriptor of its M slot. The address. -/
def State.issueAsync (s : State) (g : Nat) (ecc : TileEcc) (b : List Byte) : Option (Bool × Nat) :=
  let t := s.tile g
  let l := slotWord b 2
  let m := slotWord b 4
  if ecc.load = .uncorrectable ∧ t.readsBank l ∧ (t.youngest (t.lAddr l) (lSize (wOp l))).isSome then
    some (true, t.lAddr l / 8 * 8)
  else if ecc.desc = .uncorrectable ∧ t.readsDesc m then some (false, (t.ar (mA m)).toNat)
  else none

/-- The bundle that issues for a bundle with such an error: an M-slot operation whose descriptor is lost is not queued. -/
def issuedBundle (e : Option (Bool × Nat)) (b : List Byte) : List Byte :=
  match e with
  | some (false, _) => b.take 32 ++ zeros 8 ++ b.drop 40
  | _ => b

/-- The entry whose drain finds the error is dropped, those ahead of it drain (R181). -/
def State.dropEntry (g : Nat) (e : Option (Bool × Nat)) (b : List Byte) (s : State) : State :=
  let l := slotWord b 2
  match e with
  | some (true, _) =>
    match (s.tile g).youngest ((s.tile g).lAddr l) (lSize (wOp l)) with
    | some x => ((s.modTile g (fun t => { (t.sb.take x.2).foldl Tile.drainEntry t with sb := t.sb.drop (x.2 + 1) })).headDrained g).syncSb g
    | none => s
  | _ => s

/-- The asynchronous exception that follows the bundle (R186): its core results have landed, a load of the lost word a free value. -/
def State.raiseAsync (g : Nat) (e : Option (Bool × Nat)) (b : List Byte) (s : State) : State :=
  match e with
  | none => s
  | some (load, a) =>
    let l := slotWord b 2
    let v := loadValue (wOp l) ((List.range (lSize (wOp l))).map (fun i => Config.freeByte (s.free + i)))
    let s1 := if load then
        (s.modTile g (fun t => if wOp l = 0xC then t.setA (lG l % 16) (BitVec.ofNat 48 v) else t.setG (lG l) (BitVec.ofNat 64 v))).draw
      else s
    (s1.spUncorrected g a).raiseExc g 0x22 stUncorrected 0xF a

/-- The store buffer holds fewer entries than the `n` before: its head has drained. -/
def State.settleHead (g n : Nat) (s : State) : State := if (s.tile g).sb.length < n then s.headDrained g else s

/-- The L slot's accesses: what must drain for a load drains, a store enters the buffer (R181, R182). -/
def State.issueL (g w : Nat) (s : State) : State :=
  let n := lSize (wOp w)
  if n = 0 then s
  else
    (s.modTile g (fun t =>
      if lIsStore (wOp w) then t.sbStore (t.lAddr w) (t.storeBytes w) else t.drainFor (t.lAddr w) n)).settleHead g (s.tile g).sb.length |>.syncSb g

/-- The D slot queues a descriptor (R168); one whose bundle stores starts after the drain of that store (R183). DESIGN CHOICE: its 64 bytes are
read here, the bundle's own store included; the spec gives the reading no other time. -/
def State.issueD (g w : Nat) (s : State) : State :=
  if wOp w = 1 then
    (s.modTile g (fun t =>
      let a := (t.ar (dA w)).toNat
      let held := if t.sb.isEmpty then t.owedStarts else t.owedStarts ++ [dCh w]
      { t.modChan (dCh w) (fun c => { c with descs := c.descs ++ [(a, t.loadBytes s.free (s.get (Reg.TILE_MX_CFG_ACC g)) a 64)] }) with owedStarts := held })).syncDma g
  else s

/-- The V slot queues an operation (R262). -/
def State.issueV (g w : Nat) (s : State) : State :=
  let op := wOp w
  if op = 0 ∨ op = 0x38 ∨ op = 0x39 then s
  else
    let t := s.tile g
    let o : VxOp :=
      { seq := 2 * s.get (Reg.TILE_PERF_ISSUED g) + 1, word := w, claim := claimAfter (s.claim g) t.vq, args := t.vxArgs w }
    (s.modTile g (fun t => { t with vq := t.vq ++ [o] })).syncVx g

/-- The Q slot at issue: a SIGNAL departs, after the drain of a store of its own bundle (R163, R183); a pooled PEEK is sent, a sweep wait uses the sweep latch (R285, R307). -/
def State.issueQ (g w : Nat) (s : State) : State :=
  match wOp w with
  | 1 =>
    let p := s.qPacket g w .signal
    if (s.tile g).sb.isEmpty then s.departToken g p else s.modTile g (fun t => { t with owedTokens := t.owedTokens ++ [p] })
  | 3 =>
    let s1 := if qPool w && s.isSweepQ (s.tileTen g) (qQueue w) then s.set (Reg.TILE_Q_WAIT_SWEEPLATCH g) 0 else s
    if s.sleepDepth g (qDepth w) = 3 then ((s1.modTile g Tile.unload).releaseClaim g).syncTile g else s1
  | 2 => if qPool w && s.isSweepQ (s.tileTen g) (qQueue w) then s.set (Reg.TILE_Q_WAIT_SWEEPLATCH g) 0 else s
  | 5 =>
    if qPool w then
      let s1 := s.modTile g (fun t => { t with peeks := t.peeks ++ [(qQueue w, qG w)] })
      if s.isShadow g then s1 else s1.sendIso (s.qPacket g w .peek)
    else s
  | _ => s

/-- BA goes on: to the target of a taken branch, else to the next bundle; past bundle 2,047 it faults when it would issue (R177). DESIGN CHOICE:
BA then reads 0, its eleven bits having wrapped. An ISYNC leaves no bundle fetched ahead, and four bundles on none fetched before is left (R176). -/
def State.issueB (g : Nat) (on : Bool) (w : Nat) (target : Option Nat) (s : State) : State :=
  let ba := s.get (Reg.TILE_STATE_BA g)
  let s1 := s.modTile g (fun t =>
    { t with stale := if on && wOp w == 7 then []
               else t.stale.filterMap (fun e => if e.2.1 ≤ 1 then none else some (e.1, e.2.1 - 1, e.2.2)) })
  match (if on then target else none) with
  | some b => s1.set (Reg.TILE_STATE_BA g) b
  | none => (s1.set (Reg.TILE_STATE_BA g) ((ba + 1) % 2048)).modTile g (fun t => { t with pastEnd := ba == 2047 })

/-- Every effect of a bundle that issues, in slot order, sources read first (R162, R163). `rest` is what a TAKE leaves in its queue. -/
def State.bundleEffects (g dep mem other : Nat) (b : List Byte) (rest : Option Nat) (s : State) : State :=
  let t := s.tile g
  let ba := s.get (Reg.TILE_STATE_BA g)
  let cyc := t.cycle + BitVec.ofNat 64 (dep + mem + other)
  let q := slotWord b 6
  let fx := fun (i : Nat) (h : Nat → State → State) (s : State) =>
    if t.slotOn (slotWord b i) then h (slotWord b i) s else s
  let s1 := fx 6 (State.issueQ g) (fx 5 (State.issueV g) (fx 4 (State.mxIssue g) (fx 3 (State.issueD g) (fx 2 (State.issueL g) s))))
  let take := match rest with
    | some v => [RegWrite.g (qG q) (BitVec.ofNat 64 v)]
    | none => []
  let s2 := s1.modTile g (fun u => (t.results s.free (s.get (Reg.TILE_MX_CFG_ACC g)) s.tick cyc g ba b ++ take).foldl RegWrite.apply u)
  let s3 := s2.issueB g (t.slotOn (slotWord b 7)) (slotWord b 7) (t.bTaken (slotWord b 7))
  let s4 := ((s3.bump (Reg.TILE_STALL_DEP g) dep).bump (Reg.TILE_STALL_MEM g) mem).wrapAdd (Reg.TILE_PERF_ISSUED g) 1
  { s4 with free := s4.free + 0x2000000 } |>.modTile g (fun t =>
    { t with cycle := cyc + 1, pastBp := false, wait := {} }) |>.set (Reg.TILE_Q_WAIT_ACTIVE g) 0

/-- What follows a bundle that issued: HALT, an armed BRK, a step, or what a served TAKE held up (R189, R191, R310). `on`: its B slot was enabled
when it issued (R162). A HALT leaves a debug halt nothing to stop; an exception or a stop that waited for the TAKE is taken all the same. -/
def State.afterIssue (g : Nat) (on : Bool) (b : List Byte) (after : AfterCancel) (s : State) : State :=
  let w := slotWord b 7
  let halt := on && wOp w == 6
  if after ≠ .none ∧ !(halt ∧ after = .debugHalt) then s.performAfter g after
  else if halt then s.modTile g (fun t => { t with halting := true, stepping := false, debugPending := false })
  else if (s.tile g).stepping || (on && wOp w == 8 && s.on (Reg.TILE_DBG_CTL_ARM g) && !s.tilePinned g) then
    (s.modTile g (fun t => { t with stepping := false })).setRun g runDebug
  else s

/-- A tile issues its bundle, faults, begins its wait or halts at a breakpoint; none where it stalls (R162). -/
def State.tryIssue (g dep mem other : Nat) (ecc : TileEcc) (s : State) : Option State :=
  let ba := s.get (Reg.TILE_STATE_BA g)
  let after := (s.tile g).wait.after
  if !s.canIssue g then none
  else if s.atBreakpoint g && !s.tilePinned g then some (s.debugHaltNow g)
  else
    let s : State := if s.atBreakpoint g then s.logRefused (Reg.TILE_DBG_BP_BP0 g).off 0 ba else s
    if (s.tile g).pastEnd then some (s.raiseExc g 5 stBounds 0 2048)
    else if ecc.fetch = .uncorrectable then some ((s.isUncorrected g (64 * ba)).raiseExc g 6 stUncorrected 0 ba)
    else
      let b := s.fetched g
      let f := s.bundleFault g ecc b
      let upTo := match f with | some e => e.1 | none => 8
      if (s.tile g).interlocked b || (List.range upTo).any (s.slotStall g b) then none
      else
        let fault := fun (e : Nat × Nat × Nat × Nat) (s : State) =>
          let s1 := s.countIssue g ecc b
          let s2 := if e.2.1 = 7 then s1.spUncorrected g e.2.2.2 else s1
          s2.raiseExc g e.2.1 e.2.2.1 e.1 e.2.2.2
        let gate := if (s.tile g).wait.phase = .released then
            QOut.go (if wOp (slotWord b 6) = 4 then some (s.tile g).wait.result.toNat else none)
          else s.qGate g b
        let issue := fun (rest : Option Nat) =>
          let lost := s.issueAsync g ecc b
          let s0 := (s.countIssue g ecc b).dropEntry g lost b
          let s1 := match rest with
            | some v => if (s.tile g).wait.phase = WaitPhase.released then s0
                else s0.modTile g (fun t => t.setLq (qQueue (slotWord b 6))
                  { t.queue (qQueue (slotWord b 6)) with value := BitVec.ofNat 24 v })
            | none => s0
          let on := (s.tile g).slotOn (slotWord b 7)
          ((s1.bundleEffects g dep mem other (issuedBundle lost b) rest).afterIssue g on b after).raiseAsync g lost b
        match f, gate with
        | some e, .held s1 => if e.1 > 6 && s1.run g == runFaulted then some s1 else some (fault e s)
        | some e, .go _ => some (fault e s)
        | none, .held s1 => some s1
        | none, .go rest => some (issue rest)

/-- The twin pair that holds a tile. -/
def State.pairOf (s : State) (g : Nat) : Option Twin := s.twins.find? (fun w => w.primary == g || w.shadow == g)

/-- No error. -/
def TileEcc.clean : TileEcc := ⟨.clean, .clean, .clean⟩

/-- A tile's commit hash at a compare (R527, R541): a free value, since the spec numbers no kind of commit item. -/
def State.setTwinHash (g v : Nat) (s : State) : State :=
  (s.set (Reg.TILE_TWIN_HASH_HASH g) v).modTile g (fun t => { t with twinHash := BitVec.ofNat 64 v })

/-- A twin pair's hashes, or its exceptions (`divergence` 1), differ (R530, R532, R537): both tiles raise SDC with SDC_TWIN, what the pair
still holds never leaves it, one record is written, and the event counts toward both. The hashes are free values. -/
def State.twinFault (w : Twin) (divergence : Nat) (s : State) : State :=
  let g := w.primary
  let t := s.tileTen g
  let hash := fun (n : Nat) => (Config.freeBytes n 8).toList
  let e : EvRec :=
    { kind := 0x04, cls := 2, status := stSdcTwin, unit := 0x40 + g, tenancy := t
      body := [BitVec.ofNat 8 g, BitVec.ofNat 8 w.shadow, BitVec.ofNat 8 divergence, 0] ++ leBytes 4 w.window ++ leBytes 8 (64 * w.window) ++
        hash s.free ++ hash (s.free + 1) }
  let s0 := (s.setTwinHash g (leNat (hash s.free))).setTwinHash w.shadow (leNat (hash (s.free + 1)))
  let s1 := match s0.launchOf g with
    | some (f, r, c) => s0.draw.draw.logCmd f r c e
    | none => s0.draw.draw.logEvent e
  let s2 : State := { s1 with twins := s1.twins.map (fun v => if v.primary = g then { v with heldFlits := [], heldTokens := [] } else v) }
  let s3 := ((s2.recordFault w.shadow 0x21 stSdcTwin 0xF 0).quenchTile w.shadow).setRun w.shadow runFaulted
  ((s3.raiseExc g 0x21 stSdcTwin 0xF 0).countSdc g t).countSdc w.shadow t

/-- The fault of a tile that faulted just now: code, slot, bundle address, address. -/
def State.faultOf (s : State) (g : Nat) : List Nat :=
  [s.get (Reg.TILE_FAULT_INFO_CODE g), s.get (Reg.TILE_FAULT_INFO_SLOT g), s.get (Reg.TILE_FAULT_INFO_BA g), s.get (Reg.TILE_FAULT_ADDR_ADDR g)]

/-- A twin pair issues (R526, R530): together, or not at all. An asynchronous exception of either stops both; a synchronous one raised alike is
reported as the primary's; one raised by one of them only, or differently, is a divergence. -/
def State.pairIssue (w : Twin) (dep mem other : Nat) (ecc : Nat → TileEcc) (s : State) : State :=
  let p := w.primary
  let q := w.shadow
  match s.tryIssue p dep mem other (ecc p), s.tryIssue q dep mem other (ecc q) with
  | some sp, some sq =>
    let fp := sp.run p == runFaulted
    let fq := sq.run q == runFaulted
    if fp && sp.get (Reg.TILE_FAULT_INFO_SLOT p) == 0xF then sp
    else if fq && sq.get (Reg.TILE_FAULT_INFO_SLOT q) == 0xF then sq
    else if fp && fq && sp.faultOf p == sq.faultOf q then
      (sp.recordFault q (sq.get (Reg.TILE_FAULT_INFO_CODE q)) (sq.get (Reg.TILE_FAULT_INFO_STATUS q)) (sq.get (Reg.TILE_FAULT_INFO_SLOT q))
        (sq.get (Reg.TILE_FAULT_ADDR_ADDR q))).setRun q runFaulted
    else if fp || fq then s.twinFault w 1
    else if sp.canIssue q then (sp.tryIssue q dep mem other (ecc q)).getD s
    else sp
  | _, _ => s

/-- BUNDLE_ISSUE (R162): the tile issues its next bundle, after it lost `dep` TCLK to interlocks and branches, `mem` to the store buffer, the
core port and banks, `other` to what is not counted. A twin pair issues together (R526). -/
def execBundleIssue (tile : Fin 64) (dep mem other : Nat) (ecc : TileEcc) (s : State) : Res :=
  let g := tile.val
  match s.pairOf g with
  | none => .next ((s.tryIssue g dep mem other ecc).getD s)
  | some w => .next (s.pairIssue w dep mem other (fun h => if h = g then ecc else TileEcc.clean))

/-! ### Twin compares (R528) -/

/-- The compare passes: what the pair held up to its window leaves it. -/
def State.twinPass (w : Twin) (s : State) : State :=
  let hash := leNat (Config.freeBytes s.free 8).toList
  let out := fun (e : Nat) => decide (e ≤ w.window)
  let s0 := (w.heldTokens.filter (fun e => out e.1)).foldl (fun s e => s.sendIso e.2) s.draw
  let s1 := [w.primary, w.shadow].foldl (fun s g =>
    (s.bump (Reg.TILE_TWIN_WINDOWS g) 1).setTwinHash g hash) s0
  { s1 with
    flits := s1.flits ++ (w.heldFlits.filter (fun e => out e.1)).map (·.2)
    twins := s1.twins.map (fun v => if v.primary = w.primary then
      { v with window := w.window + 1, heldFlits := v.heldFlits.filter (fun e => !out e.1)
               heldTokens := v.heldTokens.filter (fun e => !out e.1) } else v) }

/-- TWIN_COMPARE (R528, R530): 8 TCLK after a window's end the hashes of a pair are compared. Whether they are equal comes with the event; a
parity failure of the compare path is a mismatch. While the pair issues, the window must have ended on its cycle counter. A pair that has
stopped compares no more: what it held never leaves it (R530, R543; after a stop by another tile's fault a DESIGN CHOICE, the spec being silent). -/
def execTwinCompare (tile : Fin 64) (equal : Bool) (s : State) : Res :=
  match s.pairOf tile.val with
  | none => .next s
  | some w =>
    let stopped := fun (g : Nat) => s.run g == runFaulted || s.run g == runStopped
    if stopped w.primary ∨ stopped w.shadow ∨ (s.canIssue w.primary ∧ (s.tile w.primary).cycle.toNat < 64 * w.window + 72) then .next s
    else if equal then .next (s.twinPass w)
    else .next (s.twinFault w 0)

/-! ### Store buffer -/

/-- The head entry drains; a partial drain that finds an uncorrectable error drops it (R181). -/
def State.drainHead (g : Nat) (ecc : Secded) (s : State) : State :=
  match (s.tile g).sb with
  | [] => s
  | e :: l =>
    let a := 8 * e.word
    let reads := e.mask != 0xFF
    if reads && ecc == .uncorrectable then
      let s1 := s.modTile g (fun t => { t with sb := l })
      (((s1.headDrained g).syncSb g).spUncorrected g a).raiseExc g 0x22 stUncorrected 0xF a
    else
      let s1 := s.modTile g (fun t => { t.drainEntry e with sb := l })
      ((if reads && ecc == .corrected then s1.spCorrected g a else s1).headDrained g).syncSb g

/-- STORE_BUFFER_DRAIN (R181): the core port drains the head entry. -/
def execStoreBufferDrain (tile : Fin 64) (ecc : Secded) (s : State) : Res :=
  if s.domState tile.val = 0 then .next (s.drainHead tile.val ecc) else .next s

/-- CORE_PORT_RESCUE (R179): an access of the core port that waited 16 TCLK is served ahead of every other requester: the head entry
drains. A load reads within its bundle's issue. -/
def execCorePortRescue (tile : Fin 64) (ecc : Secded) (s : State) : Res :=
  if s.domState tile.val = 0 then .next (s.drainHead tile.val ecc) else .next s

/-! ### Halt -/

/-- Everything that a halt waits for is done (R189); of a twin pair, the compare of the window of its last commit too (R529). -/
def State.haltDone (s : State) (g : Nat) : Bool :=
  let t := s.tile g
  t.halting && t.sb.isEmpty && t.chans.all (fun c => c.descs.isEmpty) && t.mxOps.isEmpty && t.vq.isEmpty && t.peeks.isEmpty && t.owedTokens.isEmpty &&
    !s.twins.any (fun w => (w.primary == g || w.shadow == g) &&
      (w.window ≤ s.window w.primary || !w.heldFlits.isEmpty || !w.heldTokens.isEmpty))

/-- HALT_COMPLETE (R189). -/
def execHaltComplete (tile : Fin 64) (s : State) : Res :=
  let g := tile.val
  if s.haltDone g then .next ((s.modTile g (fun t => { t with halting := false })).setRun g runHalted) else .next s

/-! ### Debug registers (R190 to R193) -/

/-- A debug action of the provider on a tile, under the permission of its tenancy; one that would stop a pinned tenancy's tile is ignored
and logged (R190, R192). -/
def State.debugRow (g off v : Nat) (stops : Bool) (act : State → State) (s : State) : State :=
  if !s.tileMapped g then s
  else if !s.providerDebug g || (stops && s.tilePinned g) then s.logRefused off 0 v
  else act s

/-- TILE_DBG_HALT (R191): TILE_DBG_CTL.HALT is written 1. -/
def execTileDbgHalt (tile : Fin 64) (s : State) : Res :=
  .next (s.whenReady (State.debugRow tile.val (Reg.TILE_DBG_CTL_HALT tile.val).off 1 true (State.debugHalt tile.val)))

/-- TILE_DBG_RESUME (R191): TILE_DBG_CTL.RESUME is written 1. -/
def execTileDbgResume (tile : Fin 64) (s : State) : Res :=
  .next (s.whenReady (State.debugRow tile.val (Reg.TILE_DBG_CTL_HALT tile.val).off 2 false (State.debugGo tile.val false)))

/-- TILE_DBG_STEP (R191): TILE_DBG_CTL.STEP is written 1. -/
def execTileDbgStep (tile : Fin 64) (s : State) : Res :=
  .next (s.whenReady (State.debugRow tile.val (Reg.TILE_DBG_CTL_HALT tile.val).off 4 true (State.debugGo tile.val true)))

/-- OFFSET advances by one word where AUTOINC is 1. -/
def State.dbgAdvance (g : Nat) (s : State) : State :=
  if s.on (Reg.TILE_DBG_SEL_AUTOINC g) then s.wrapAdd (Reg.TILE_DBG_SEL_OFFSET g) 1 else s

/-- TILE_DBG_DATA is read or written (R193): the word that TILE_DBG_SEL selects, while the tile stands still. DESIGN CHOICE: an access that is
refused does not advance OFFSET. -/
def State.dbgData (g : Nat) (write : Bool) (part : Part) (v : Word) (s : State) : State :=
  let sel := s.get (Reg.TILE_DBG_SEL_SPACE g)
  let o := 8 * s.get (Reg.TILE_DBG_SEL_OFFSET g)
  let off := (Reg.TILE_DBG_DATA_DATA g).off
  let answer := fun (x : Nat) (s : State) => s.emit (.completion 0 (some (leBytes 8 x)))
  if !s.tileMapped g then (if write then s else answer 0 s)
  else if !s.providerDebug g || !s.debugReadable g then (if write then s.logRefused off 0 v.toNat else answer 0 s)
  else if write then (s.writeDebug g sel o (partOf (s.debugWord g sel o) part v)).dbgAdvance g
  else (answer (s.debugWord g sel o) s).dbgAdvance g

/-- TILE_DBG_DATA_ACCESS (R193). -/
def execTileDbgDataAccess (tile : Fin 64) (write : Bool) (part : Part) (v : Word) (s : State) : Res :=
  .next (s.whenReady (State.dbgData tile.val write part v))

end Sys2Proof.Machine
end

