-- ==== Sys2Proof/Machine/Update.lean ====
section
/-! DEFINITION. PLDM firmware update (R511, R563): an image into the inactive slot. -/

namespace Sys2Proof.Machine

/-- The update under way changed by `f`. -/
def State.setUpd (u : Option Update) (s : State) : State := { s with mgmt := { s.mgmt with upd := u } }

/-- A type 5 request. -/
def State.fw (p : MgmtPort) (cmd : Byte) (k : State → State × List Byte) (s : State) : State := s.pldm p 5 cmd notEarly k

/-- A request of an update in one of its phases: NOT_IN_UPDATE_MODE without an update, INVALID_STATE_FOR_COMMAND in another phase. -/
def State.inUpdate (p : MgmtPort) (cmd : Byte) (ok : Update → Bool) (k : Update → State → State × List Byte) (s : State) : State :=
  s.fw p cmd (fun s => match s.mgmt.upd with
    | none => (s, [0x80])
    | some u => if ok u then k u s else (s, [0x84]))

/-- QUERY_DEVICE_IDENTIFIERS: vendor, part and revision. -/
def execQueryDeviceIdentifiers (port : MgmtPort) (s : State) : Res :=
  .next (s.fw port 0x01 (fun s =>
    (s, 0x00 :: leBytes 2 Config.vendorId.toNat ++ leBytes 2 (s.get Reg.ID_PART_PART) ++ [BitVec.ofNat 8 (s.get Reg.ID_COMPAT_REV)])))

/-- GET_FIRMWARE_PARAMETERS: AVER as active and, after an activation not yet started, the staged version as pending. -/
def execGetFirmwareParameters (port : MgmtPort) (s : State) : Res :=
  .next (s.fw port 0x02 (fun s =>
    let pending := if s.store.aver = s.get Reg.CS_ACTIVE_IMGVER then 0 else s.store.aver
    (s, 0x00 :: leBytes 4 s.store.aver ++ leBytes 4 pending)))

/-- REQUEST_UPDATE: RETRY_REQUEST_UPDATE in a trial, or while an image request or a store command runs; from then on the update holds the
store. -/
def execRequestUpdate (port : MgmtPort) (s : State) : Res :=
  .next (s.fw port 0x10 (fun s =>
    if s.mgmt.upd.isSome then (s, [0x81])
    else if s.on Reg.CS_BOOT_TRIAL || s.slotBusy || s.store.op.isSome || (s.mbx.map (·.1)) == some 0x56 then (s, [0x8E])
    else ((s.setUpd (some { slot := 1 - s.get Reg.CS_BOOT_ACTIVE })).set Reg.CS_BOOT_PLDMUPD 1, [0x00])))

/-- PASS_COMPONENT_TABLE: the one component is 0x0001. -/
def execPassComponentTable (port : MgmtPort) (ident : BitVec 16) (s : State) : Res :=
  .next (s.inUpdate port 0x13 (fun u => u.phase == .learn) (fun u s =>
    if ident = 1 then (s.setUpd (some { u with phase := .readyXfer }), [0x00, 0x00]) else (s, [0x00, 0x01])))

/-- UPDATE_COMPONENT: the inactive slot is erased; the module then asks for the image. -/
def execUpdateComponent (port : MgmtPort) (ident : BitVec 16) (s : State) : Res :=
  .next (s.inUpdate port 0x14 (fun u => u.phase == .readyXfer) (fun u s =>
    if ident = 1 then ((s.startErase u.slot).setUpd (some { u with phase := .download, done := 0, applied := false }), [0x00, 0x00])
    else (s, [0x00, 0x01])))

/-- The end of the transfer: TOTAL of the manifest, once its first piece is there. -/
def State.updTotal (s : State) (u : Update) : Nat := if u.done = 0 then 4096 else min (manTotal (s.manifest u.slot)) 0x1800000

/-- REQUEST_FIRMWARE_DATA: the module asks for a piece of 4,096 bytes, which arrives and is programmed. -/
def execRequestFirmwareData (port : MgmtPort) (data : List Byte) (s : State) : Res :=
  match s.mgmt.upd with
  | none => .next s
  | some u =>
    if port = .doe ∨ !s.portUp port ∨ s.frost ≠ .awake ∨ u.phase ≠ .download ∨ s.store.erase.isSome ∨ s.updTotal u ≤ u.done ∨
        data.length ≠ 4096 then .next s
    else
      let a := 0x1800000 * u.slot + u.done
      let s1 := (s.reply port ([0x01, 5, 0x15] ++ leBytes 4 u.done ++ leBytes 4 4096)).unverify a 4096
      .next ((s1.modStore (fun t => t.program a data)).setUpd (some { u with done := u.done + 4096 }))

/-- A message that the module sends of itself when its update has come to a point. -/
def State.fwTell (port : MgmtPort) (cmd : Byte) (ok : Update → Bool) (k : Update → State → State × List Byte) (s : State) : State :=
  match s.mgmt.upd with
  | none => s
  | some u =>
    if port = .doe ∨ !s.portUp port ∨ s.frost ≠ .awake ∨ !ok u then s
    else (k u s).1.reply port ([0x01, 5, cmd] ++ (k u s).2)

/-- TRANSFER_COMPLETE: TOTAL is reached. -/
def execTransferComplete (port : MgmtPort) (s : State) : Res :=
  .next (s.fwTell port 0x16 (fun u => u.phase == .download && u.done != 0 && s.updTotal u ≤ u.done) (fun u s =>
    (s.setUpd (some { u with phase := .verify }), [0x00])))

/-- VERIFY_COMPLETE: the outcome of VERIFY; an image that fails must be transferred again. -/
def execVerifyComplete (port : MgmtPort) (s : State) : Res :=
  .next (s.fwTell port 0x17 (fun u => u.phase == .verify) (fun u s =>
    let (s1, v) := s.verifySlot u.slot
    (s1.setUpd (some { u with phase := if v = stOK then .apply else .readyXfer }), [BitVec.ofNat 8 v])))

/-- APPLY_COMPLETE: the image stands in its slot. -/
def execApplyComplete (port : MgmtPort) (s : State) : Res :=
  .next (s.fwTell port 0x18 (fun u => u.phase == .apply) (fun u s =>
    (s.setUpd (some { u with phase := .readyXfer, applied := true }), [0x00])))

/-- The update ends and holds the store no longer. -/
def State.endUpdate (s : State) : State := (s.setUpd none).set Reg.CS_BOOT_PLDMUPD 0

/-- ACTIVATE_FIRMWARE: ACTIVATE with RESTART as self-contained activation asks; what refuses ACTIVATE refuses it. -/
def execActivateFirmware (port : MgmtPort) (selfContained : Bool) (s : State) : Res :=
  .next (s.inUpdate port 0x1A (fun u => u.phase == .readyXfer && u.applied) (fun u s =>
    if (s.activateRefusal u.slot false).isSome then (s, [0x85])
    else
      let s1 := (s.activateSlot u.slot).endUpdate
      (if selfContained && !s1.ending then s1.askEnd false else s1, [0x00])))

/-- The phase of an update as GET_STATUS reports it: idle, learn, ready, download, verify, apply. -/
def updCode : Option Update → Byte
  | none => 0
  | some u => match u.phase with
    | .learn => 1
    | .readyXfer => 2
    | .download => 3
    | .verify => 4
    | .apply => 5

/-- GET_STATUS. -/
def execGetStatus (port : MgmtPort) (s : State) : Res :=
  .next (s.fw port 0x1B (fun s => (s, [0x00, updCode s.mgmt.upd])))

/-- A cancelled transfer leaves the slot partly written and not VERIFIED; the sector that is being erased completes. -/
def State.dropTransfer (u : Update) (s : State) : State :=
  let s1 := match s.store.erase with
    | some (slot, k) => (s.modStore (fun t => t.eraseSector (384 * slot + k))).endErase
    | none => s
  s1.set (verFld u.slot) 0

/-- CANCEL_UPDATE_COMPONENT. -/
def execCancelUpdateComponent (port : MgmtPort) (s : State) : Res :=
  .next (s.inUpdate port 0x1C (fun u => u.phase == .download || u.phase == .verify || u.phase == .apply) (fun u s =>
    ((s.dropTransfer u).setUpd (some { u with phase := .readyXfer, applied := false }), [0x00])))

/-- CANCEL_UPDATE. -/
def execCancelUpdate (port : MgmtPort) (s : State) : Res :=
  .next (s.inUpdate port 0x1D (fun _ => true) (fun u s => ((s.dropTransfer u).endUpdate, [0x00])))

end Sys2Proof.Machine
end

