-- ==== Sys2Proof/Machine/RegWrite.lean ====
section
/-! DEFINITION. Accesses to BAR0: the register at an offset (R568 to R573), what a read of it returns, what a write of it does, the pages of the
virtual functions (R396, R569), the MSI-X tables (R400), wide requests (R572). -/

namespace Sys2Proof.Machine

/-! ### The register at an offset -/

/-- The copy of a row's register that stands at an offset. -/
def RegRow.at (r : RegRow) (off : Nat) : Option (RegRow × Nat × Nat) :=
  if off < r.base then none
  else
    let d := off - r.base
    let i := if r.stride = 0 then 0 else d / r.stride
    let e := d - i * r.stride
    let j := if r.stride2 = 0 then 0 else e / r.stride2
    if i < r.count ∧ j < r.count2 ∧ e = j * r.stride2 then some (r, i, j) else none

/-- The register that the index names at a PF0 offset, a multiple of 8 (R573). -/
def regAt (off : Nat) : Option (RegRow × Nat × Nat) := regTable.findSome? (fun r => r.at off)

/-- The PF0 offset that an offset of a VF's page reaches (R569). -/
def vfOffset (n x : Nat) : Option Nat :=
  if x < 0x1000 then some (0x201000 + 0x10000 * n + x)
  else if 0x8000 ≤ x ∧ x < 0x9000 then some (0x200000 + 0x10000 * n + x)
  else none

/-- The offset lies in the block of an absent unit: a tile that is not mapped (R195), a fused-off stack (R350), a fused-off port (R389), an
excluded Rime engine (R485). Such a block reads 0. -/
def State.absentBlock (s : State) (off : Nat) : Bool :=
  (0x400000 ≤ off && off < 0x800000 && !s.tileMapped ((off - 0x400000) / 0x10000)) ||
  (0x800000 ≤ off && off < 0x880000 && bitAt (s.fuse 2) ((off - 0x800000) / 0x10000)) ||
  (0x900000 ≤ off && off < 0x940000 && bitAt (s.fuse 3) ((off - 0x900000) / 0x1000)) ||
  (0xA00000 ≤ off && off < 0xA40000 && s.excluded.contains (0x10 + (off - 0xA00000) / 0x10000))

/-- The offsets that read as defined before Ready (R150); in recovery hold the store window too. -/
def State.earlyRead (s : State) (off : Nat) : Bool :=
  off < 0x480 || off == 0x1000 || (0x100000 ≤ off && off < 0x100018) || (0x100100 ≤ off && off < 0x100300) ||
  (s.phase == .recovery && 0xD00000 ≤ off && off < 0xD02000)

/-- The offsets that take a write before Ready (R150). -/
def State.earlyWrite (s : State) (off : Nat) : Bool :=
  off == 0x110 || off == 0x118 || off == 0x120 || off == 0x100000 || off == 0x100008 || (0x100100 ≤ off && off < 0x100200) ||
  (s.phase == .recovery && (off == 0xD00000 || off == 0xD00008 || off == 0xD00010 || (0xD01000 ≤ off && off < 0xD02000)))

/-! ### Reads -/

/-- An entry of a slot table, as its window shows it; a slot past the end of the table reads 0. -/
def State.slotTile (s : State) (g : Nat) : Nat :=
  (spGet 0 s.slotsJ ((g * 8 + s.get (Reg.TILE_JS_SLOTSEL_OUTPORT g)) * 1024 + s.get (Reg.TILE_JS_SLOTSEL_SLOT g))).toNat
def State.slotMem (s : State) (k : Nat) : Nat :=
  let i := s.get (Reg.MEM_SLOTSEL_SLOT k)
  if i < 384 then s.memEntry k (s.get (Reg.MEM_SLOTSEL_PCS k)) i else 0
def State.slotBase (s : State) : Nat :=
  let p := s.get Reg.MEM_BSW_SLOTSEL_OUTPORT
  if p < 85 then (spGet 0 s.slotsB ((s.get Reg.MEM_BSW_SLOTSEL_QUAD * 85 + p) * 1024 + s.get Reg.MEM_BSW_SLOTSEL_SLOT)).toNat else 0
/-- An entry of a link's table, with RSV (R375). -/
def State.slotLink (s : State) (j : Nat) : Nat :=
  let i := s.get (Reg.LNK_SLOTSEL_SLOT j)
  if i < 150 then (spGet 0 s.slotsL (150 * j + i)).toNat ||| 2 ^ 14 * b2n ([0, 38, 75, 113].contains i) else 0

/-- Bit j of word k is 1 for granule 64k + j of those that `p` picks. -/
def granWord (k : Nat) (p : Nat → Bool) : Nat := maskOf ((List.range 64).filter (fun j => p (64 * k + j)))

/-- The buffer that TN_BUFQ names passes the checks for its tenancy (R460). -/
def State.bufqCheck (s : State) (t : Nat) : Option Nat := s.handleCheck t (s.get (Reg.TN_BUFQ_HANDLE t)) false

/-- What a register holds: its fields, or what it shows of another part of the state. -/
def State.regRead (s : State) (r : RegRow) (i j : Nat) : Nat :=
  let b := r.base
  if b = Reg.row_PQ_VAL.base then (s.pq i).value.toNat
  else if b = Reg.row_PQ_SET.base then (s.pq i).word
  else if b = Reg.row_TILE_JS_SLOTDATA.base then s.slotTile i
  else if b = Reg.row_MEM_SLOTDATA.base then s.slotMem i
  else if b = Reg.row_MEM_BSW_SLOTDATA.base then s.slotBase
  else if b = Reg.row_LNK_SLOTDATA.base then s.slotLink i
  else if b = Reg.row_TN_ISO.base then
    s.wordOf [Reg.TN_ISO_CLAIM, Reg.TN_ISO_CLAIMED, Reg.TN_ISO_REFUSED] + 4 * b2n s.isoC1 + 8 * b2n s.isoC2 + 16 * b2n s.isoC3
  else if b = Reg.row_TN_VIEW_STATE.base then s.wordOf (Reg.row_TN_STATE.fields i 0)
  else if b = Reg.row_TN_VIEW_TILES.base then s.get (Reg.TN_TILES_MAP i)
  else if b = Reg.row_TN_VIEW_CFG.base then s.wordOf (Reg.row_TN_CFG.fields i 0)
  else if b = Reg.row_TN_VIEW_PQ.base then s.wordOf (Reg.row_PQ_TNCFG.fields i 0)
  else if b = Reg.row_TN_VIEW_GMAP.base then granWord j (fun G => s.granOwner G == i)
  else if b = Reg.row_TN_BUFQ_MAP.base then
    if (s.bufqCheck i).isNone then granWord j (fun G => (s.handleGrans (s.get (Reg.TN_BUFQ_HANDLE i))).contains G) else 0
  else if b = Reg.row_TN_BUFQ_STATUS.base then (s.bufqCheck i).getD stOK
  else if b = Reg.row_TILE_MX_WORK.base then
    (s.bump (Reg.TILE_MX_WORK_DRIZZLE i) (s.drizzleOpen i)).wordOf (Reg.row_TILE_MX_WORK.fields i 0)
  else if b = Reg.row_PWR_TN_MIRROR.base then s.wordOf (Reg.row_PWR_TNCAP.fields i 0)
  else s.wordOf ((r.fields i j).filter (fun f => f.acc != .wo))

/-- What a read at a PF0 offset returns, TILE_DBG_DATA apart. -/
def State.busRead (s : State) (off : Nat) : Nat :=
  if s.absentBlock off || (s.phase != .ready && !s.earlyRead off) then 0
  else match regAt off with
    | some (r, i, j) => s.regRead r i j
    | none => 0

/-! ### MSI-X tables (R400) -/

/-- Word `k` of a function's MSI-X table: an entry's address, or its data with the mask bit of its vector control. -/
def Msix.word (x : Msix) (k : Nat) : Nat := spGet 0 x.table k + (if k % 2 = 1 then 2 ^ 32 * b2n (x.masked.getLsbD (k / 2)) else 0)

/-- A write of a word of the table. A vector that it unmasks sends the message that its pending bit holds. -/
def State.writeMsix (f k : Nat) (part : Part) (v : Word) (s : State) : State :=
  let x := (s.func f).msix
  let new := partOf (x.word k) part v
  if k % 2 = 0 then s.modFunc f (fun h => { h with msix := { h.msix with table := spSet 0 h.msix.table k (new / 4 * 4) } })
  else
    let bit : Word := BitVec.ofNat 64 (2 ^ (k / 2))
    (s.modFunc f (fun h => { h with
      msix := { h.msix with
        table := spSet 0 h.msix.table k (new % 2 ^ 32)
        masked := if bitAt new 32 then h.msix.masked ||| bit else h.msix.masked &&& ~~~bit } })).flushMsix f

/-- Where a function's MSI-X table and its pending-bit array stand (R396, R397). -/
def msixBase (f : Nat) : Nat := if f = 0 then 0xE00000 else 0xE000
def pbaBase (f : Nat) : Nat := if f = 0 then 0xE01000 else 0xF000

/-! ### Writes -/

/-- A write of a debug register of a tile (R190, R191): under the tenancy's permission; HALT and STEP of a pinned tenancy's tile are
refused (R192). DESIGN CHOICE: of HALT with RESUME or STEP in one write the halt comes first, and STEP goes before RESUME. -/
def State.writeDbgCtl (g : Nat) (part : Part) (v : Word) (s : State) : State :=
  let n := partOf 0 part v
  s.debugRow g (Reg.TILE_DBG_CTL_HALT g).off v.toNat (bitAt n 0 || bitAt n 2) (fun s =>
    let s1 := s.putWord [Reg.TILE_DBG_CTL_ARM g, Reg.TILE_DBG_CTL_LHALT g] part v
    let s2 := if bitAt n 0 then s1.debugHalt g else s1
    if bitAt n 2 then s2.debugGo g true else if bitAt n 1 then s2.debugGo g false else s2)

/-- The value of a pooled queue: refused with no owner and while the owner is started (R308). -/
def State.writePqVal (func q : Nat) (part : Part) (v : Word) (s : State) : State :=
  let x := s.pq q
  let new := bits (partOf x.value.toNat part v) 0 24
  let o := x.owner.toNat
  if o > 16 ∨ (s.tnStarted o ∧ new ≠ x.value.toNat) then s.logRefused (Reg.PQ_VAL_VALUE q).off func v.toNat
  else s.setPq q { x with value := BitVec.ofNat 24 new }

/-- The settings word of a pooled queue (R279, R289): OVF by W1C, the rest refused while the owner is started. -/
def State.writePqSet (func q : Nat) (part : Part) (v : Word) (s : State) : State :=
  let x := s.pq q
  let new := partOf x.word part v
  let changes := new % 2 ^ 26 != x.word % 2 ^ 26
  let o := x.owner.toNat
  if changes && (o > 16 || s.tnStarted o) then s.logRefused (Reg.PQ_SET_REST q).off func v.toNat
  else s.setPq q { x with
    rest := BitVec.ofNat 24 new
    strict := bitAt new 24
    sweep := bitAt new 25
    ovf := x.ovf && !bitAt (partOf 0 part v) 26 }

/-- The owner of a register with RWL fields is started: a ring by its STATE (R429), a tenancy by its own (R441), a domain by its
tenancy. A register without RWL fields has none. -/
def State.regStarted (s : State) (b i j : Nat) : Bool :=
  if 0x208000 ≤ b ∧ b < 0x209000 then s.ringState i j != ringOff
  else if b = Reg.row_PWR_DOM_CTL.base then s.domOwner i ≤ 16 && s.tnStarted (s.domOwner i)
  else i ≤ 16 && s.tnStarted i

/-- A register's own rule refuses the value that a write would leave: MEM_SCRUB.PERIOD 0 (R350), RING_IRQ.COUNT 0, LNK_DOM_DESC while EN is 1
(R390, R577). -/
def State.valueRefused (s : State) (b i : Nat) (fs : List Fld) (part : Part) (v : Word) : Bool :=
  let old := s.wordOf fs
  let new := partOf old part v
  (b == Reg.row_MEM_SCRUB.base && bits new 0 8 == 0) || (b == Reg.row_RING_IRQ.base && bits new 0 8 == 0) ||
  (b == (Reg.row_LNK_DOM_DESC.base) && s.on Reg.LNK_DOM_CFG_EN && new != old && i < 8)

/-- RING_IRQ.COUNT was written: completions that wait to be announced may reach it now (R426). -/
def State.recount (f r : Nat) (s : State) : State :=
  if s.on (Reg.RING_CTL_IRQEN f r) ∧ (s.ring f r).unannounced ≠ 0 ∧ (s.ring f r).unannounced ≥ s.get (Reg.RING_IRQ_COUNT f r) ∧
      !s.ideBlocked f r then s.ringMsix f r else s

/-- A write of a register that has no rule of its own beyond its access codes (R22, R577). -/
def State.plainWrite (func off : Nat) (r : RegRow) (i j : Nat) (part : Part) (v : Word) (s : State) : State :=
  let fs := r.fields i j
  if (s.regStarted r.base i j && s.changesRwl fs part v) || s.valueRefused r.base i fs part v then s.logRefused off func v.toNat
  else if r.base = Reg.row_RING_IRQ.base then (s.putWord fs part v).recount i j
  else s.putWord fs part v

/-- A write of a register that does more than take a value, where the register is one: the power manager's and the link engines', then
the controller's, then the rings' and the tenancies'. -/
def State.writePower (func b i : Nat) (part : Part) (v : Word) (s : State) : Option State :=
  if b = Reg.row_PWR_SLEW.base then some (s.writeSlew func part v)
  else if b = Reg.row_PWR_DRIZZLE.base then some (s.writeDrizzle func part v)
  else if b = Reg.row_PWR_IN_EXTREMES.base then some (s.writeExtremes (BitVec.ofNat 64 (partOf 0 part v)))
  else if b = Reg.row_PWR_RESTART.base then some (s.writeRestart part v)
  else if b = Reg.row_PWR_BUDGET.base then some (s.writeBudget func part v)
  else if b = Reg.row_PWR_TNCAP.base then some (s.writeTncap func i part v)
  else if b = Reg.row_PWR_DOM_REQ.base then some (s.writeDomReq func i (BitVec.ofNat 64 (partOf 0 part v)))
  else if b = Reg.row_LNK_CTL.base then some (s.writeLnkCtl func i part v)
  else if b = Reg.row_LNK_DOM_CFG.base then some (s.writeDomCfg func part v)
  else if b = Reg.row_MEM_GROUPMODE.base then some (s.writeGroupMode func (partOf (s.get Reg.MEM_GROUPMODE_LOCAL) part v))
  else none

def State.writeController (func b i : Nat) (part : Part) (v : Word) (s : State) : Option State :=
  if b = Reg.row_BRU_CTL.base then some (s.writeBruCtl part v)
  else if b = Reg.row_BRU_RETIRED_T.base then some (s.undoRetired false part v)
  else if b = Reg.row_BRU_RETIRED_L.base then some (s.undoRetired true part v)
  else if b = Reg.row_MC_MBX_CTL.base then some (s.writeMbxCtl func part v)
  else if b = Reg.row_MC_GRANWH.base then some (s.undoWithheld i part v)
  else if b = Reg.row_MC_EVR_CTL.base then some (s.writeEvrCtl func 0 part v)
  else if b = Reg.row_MC_EVR_BASE.base then some (s.writeEvrAddr func 0 Reg.MC_EVR_BASE_ADDR part v)
  else if b = Reg.row_MC_EVR_DBADDR.base then some (s.writeEvrAddr func 0 Reg.MC_EVR_DBADDR_ADDR part v)
  else if b = Reg.row_TN_EVR_CTL.base then some (s.writeEvrCtl func (i + 1) part v)
  else if b = Reg.row_TN_EVR_BASE.base then some (s.writeEvrAddr func (i + 1) (Reg.TN_EVR_BASE_ADDR i) part v)
  else if b = Reg.row_TN_EVR_DBADDR.base then some (s.writeEvrAddr func (i + 1) (Reg.TN_EVR_DBADDR_ADDR i) part v)
  else if b = Reg.row_CS_CMD.base then some (s.storeCmd func (BitVec.ofNat 64 (partOf 0 part v)))
  else none

def State.writeTenancy (func b i j : Nat) (part : Part) (v : Word) (s : State) : Option State :=
  let n := partOf 0 part v
  if b = Reg.row_TN_CTL.base then some (if part = .high then s else s.writeTnCtl func i (bits n 0 3) (bits n 4 2) v)
  else if b = Reg.row_TN_TILES.base then some (s.writeTiles func i part v)
  else if b = Reg.row_TN_CFG.base then some (s.writeTnCfg func i part v)
  else if b = Reg.row_TN_SLOTQ.base then some (s.writeSlotq func i part v)
  else if b = Reg.row_TN_SAVE.base then some (s.writeSave func i part v)
  else if b = Reg.row_TN_ISO.base then some (if part = .high then s else s.writeIso func v)
  else if b = Reg.row_TN_BUFQ.base then some (s.writeBufq i part v)
  else if b = Reg.row_PQ_TNCFG.base then some (s.writeTncfg func i part v)
  else if b = Reg.row_PQ_VAL.base then some (s.writePqVal func i part v)
  else if b = Reg.row_PQ_SET.base then some (s.writePqSet func i part v)
  else if b = Reg.row_PQ_SNAP_CTL.base then some (if bitAt n 0 then s.takeSnapshot else s)
  else if b = Reg.row_RING_CTL.base then some (s.writeRingCtl func i j part v)
  else if b = Reg.row_TILE_DBG_CTL.base then some (s.writeDbgCtl i part v)
  else if b = Reg.row_TILE_DBG_BP.base then
    some (s.debugRow i (Reg.TILE_DBG_BP_BP0 i).off v.toNat false (State.putWord (Reg.row_TILE_DBG_BP.fields i 0) part v))
  else if b = Reg.row_TILE_DBG_SEL.base then
    some (s.debugRow i (Reg.TILE_DBG_SEL_SPACE i).off v.toNat false (State.putWord (Reg.row_TILE_DBG_SEL.fields i 0) part v))
  else if b = Reg.row_TILE_DBG_DATA.base then some (s.dbgData i true part v)
  else none

/-- A write at a PF0 offset, by a function, after Ready or where R150 lets it take effect. PF0 writes no ring block of TN1 to TN16 (R397);
an offset that the index does not name takes none (R568): both are logged. -/
def State.regWrite (func off : Nat) (part : Part) (v : Word) (s : State) : State :=
  let ringBlock := 0x208000 ≤ off && off < 0x310000 && 8 ≤ off / 0x1000 % 16 && off / 0x1000 % 16 < 9
  if func = 0 ∧ ringBlock ∧ 0x210000 ≤ off then s.logRefused off func v.toNat
  else match regAt off with
    | none => if off < 0x4000000 then s.logRefused off func v.toNat else s
    | some (r, i, j) =>
      if s.absentBlock off then s
      else match (s.writePower func r.base i part v).orElse (fun _ =>
          (s.writeController func r.base i part v).orElse (fun _ => s.writeTenancy func r.base i j part v)) with
        | some s1 => s1
        | none => s.plainWrite func off r i j part v

/-- A request at the host port wakes its domain from L1; it is served after the exit's 20 ns (R100), which the model does not show. -/
def State.hostWake (s : State) : State := if s.domState 84 = 1 then s.wakeDomain 84 else s

/-- One access of a function to its BAR0, a write: an aligned register or half of one. -/
def State.busWrite (func off : Nat) (part : Part) (v : Word) (s : State) : State :=
  if s.phase ≠ .ready then
    if func = 0 ∧ s.hostUp ∧ s.earlyWrite off then s.regWrite 0 off part v else s.whenReady id
  else if msixBase func ≤ off ∧ off < msixBase func + 1024 then s.writeMsix func ((off - msixBase func) / 8) part v
  else if func = 0 then s.regWrite 0 off part v
  else match vfOffset func off with
    | some x => s.regWrite func x part v
    | none => s

/-- One access of a function to its BAR0, a read: what it returns, and the state after it (TILE_DBG_DATA advances its offset). -/
def State.busGet (func off : Nat) (s : State) : Nat × State :=
  let page := fun (x : Nat) => match regAt x with
    | some (r, i, _) =>
      if r.base = Reg.row_TILE_DBG_DATA.base ∧ s.phase = .ready ∧ !s.absentBlock x then
        if s.providerDebug i && s.debugReadable i then
          (s.debugWord i (s.get (Reg.TILE_DBG_SEL_SPACE i)) (8 * s.get (Reg.TILE_DBG_SEL_OFFSET i)), s.dbgAdvance i)
        else (0, s)
      else (s.busRead x, s)
    | none => (0, s)
  if s.phase = .ready ∧ msixBase func ≤ off ∧ off < msixBase func + 1024 then
    ((s.func func).msix.word ((off - msixBase func) / 8), s)
  else if s.phase = .ready ∧ off = pbaBase func then ((s.func func).msix.pending.toNat, s)
  else if func = 0 then page off
  else match vfOffset func off with
    | some x => page x
    | none => (0, s)

/-! ### The rows -/

/-- A request of a size or alignment that R572 does not allow: a write is dropped and logged, or counted before Ready (R150). -/
def State.dropWrite (func off v : Nat) (s : State) : State := s.whenReady (State.logRefused off func v)

/-- REGISTER_WRITE (R22, R577): a 64-bit write, or a 32-bit write of one half, of a register at a function's BAR0 offset. -/
def execRegisterWrite (func : Fin 17) (off : Nat) (part : Part) (v : Word) (s : State) : Res :=
  if off % 8 ≠ 0 then .next (s.hostWake.dropWrite func.val off v.toNat) else .next (s.hostWake.busWrite func.val off part v)

/-- The 8-byte accesses of a wide request, ascending: the bytes a read returns, and the state after it. -/
def State.wideRead (func off : Nat) : Nat → State → List Byte × State
  | 0, s => ([], s)
  | n + 1, s =>
    let (x, s1) := s.busGet func off
    let (bs, s2) := s1.wideRead func (off + 8) n
    (leBytes 8 x ++ bs, s2)

/-- The 8-byte accesses of a wide write. -/
def State.wideWrite (func off : Nat) (data : List Byte) (n : Nat) (s : State) : State :=
  (List.range n).foldl (fun s i => s.busWrite func (off + 8 * i) .whole (BitVec.ofNat 64 (leAt data (8 * i) 8))) s

/-- BAR_WIDE_REQUEST (R19, R572): a memory request of 4 or 8 bytes is one access; a naturally aligned one of 16, 32 or 64 bytes is carried out
as 8-byte accesses; any other is refused. -/
def execBarWideRequest (func : Fin 17) (write : Bool) (off len : Nat) (data : List Byte) (s : State) : Res :=
  let f := func.val
  let s := s.hostWake
  if !s.hostUp then .next s
  else if len = 4 ∧ off % 4 = 0 then
    let high := off % 8 = 4
    if write then .next (s.busWrite f (off / 8 * 8) (if high then .high else .low) (BitVec.ofNat 64 (leAt data 0 4)))
    else
      let (x, s1) := s.busGet f (off / 8 * 8)
      .next (s1.emit (.completion f (some (leBytes 4 (if high then x / 2 ^ 32 else x % 2 ^ 32)))))
  else if (len = 8 ∨ len = 16 ∨ len = 32 ∨ len = 64) ∧ off % len = 0 then
    if write then .next (s.wideWrite f off data (len / 8))
    else
      let (bs, s1) := s.wideRead f off (len / 8)
      .next (s1.emit (.completion f (some bs)))
  else if write then .next (s.dropWrite f off (leAt data 0 8))
  else .next (s.emit (.completion f none))

end Sys2Proof.Machine
end

