-- ==== Sys2Proof/Machine/Thermal.lean ====
section
/-! DEFINITION. Temperatures (R82 to R85): the warn, throttle and critical thresholds with their 5 K of hysteresis, PWR_THERMAL, the
hardware trip. -/

namespace Sys2Proof.Machine

/-- The highest of some readings and its place; 0 where there is none. -/
def hottest (ts : List (BitVec 8)) : Nat × Nat :=
  (ts.zip (List.range ts.length)).foldl (fun m e => if e.1.toNat > m.1 then (e.1.toNat, e.2) else m) (0, 0)

/-- A level with hysteresis: it begins at its threshold and ends 5 K below. -/
def thermalOn (was : Bool) (temp threshold : Nat) : Bool := temp ≥ threshold || (was && temp > threshold - 5)

/-- A group: its bit, its code in records, what it reads and where, its warn, throttle and critical thresholds. -/
structure ThermalGroup where
  bit : Nat
  code : Nat
  index : Nat
  temp : Nat
  warn : Nat
  hot : Nat
  crit : Nat

/-- The groups of R82 for one reading of every sensor. The difference of outlet and inlet only warns; no coolant sensor trips. -/
def thermalGroups (dies base hbmStacks : List (BitVec 8)) (inlet outlet : Nat) : List ThermalGroup :=
  (List.range 4).map (fun d =>
      ⟨d, 0, d, max (hottest ((dies.drop (16 * d)).take 16)).1 (((dies[64 + d]?).getD 0).toNat), 95, 100, 110⟩) ++
    [⟨4, 1, (hottest base).2, (hottest base).1, 95, 100, 110⟩, ⟨5, 2, (hottest hbmStacks).2, (hottest hbmStacks).1, 85, 95, 105⟩,
     ⟨6, 3, 0, inlet, 45, 50, 1000⟩, ⟨7, 3, 1, outlet - inlet, 20, 1000, 1000⟩]

/-- A thermal record (R537, R540). -/
def thermalRecord (g : ThermalGroup) (st : Nat) : EvRec :=
  { kind := 0x0A, body := [BitVec.ofNat 8 g.code, BitVec.ofNat 8 g.index, BitVec.ofNat 8 (min g.temp 255), BitVec.ofNat 8 st] }

/-- One group is judged: its warn and throttle levels, and a record where one of them begins. -/
def State.judgeGroup (g : ThermalGroup) (s : State) : State :=
  let was := (bitAt s.supply.warm g.bit, bitAt s.supply.heat g.bit)
  let now := (thermalOn was.1 g.temp g.warn, thermalOn was.2 g.temp g.hot)
  let put := fun (m : Nat) (b : Bool) => if b then m ||| 2 ^ g.bit else m - (m &&& 2 ^ g.bit)
  let s1 : State := { s with supply := { s.supply with warm := put s.supply.warm now.1, heat := put s.supply.heat now.2 } }
  if now.2 ∧ !was.2 then s1.logEvent (thermalRecord g 2)
  else if now.1 ∧ !was.1 then s1.logEvent (thermalRecord g 1)
  else s1

/-- A compute die at its critical threshold (R83): its tile and Rime switches open, as a unit-class event. It ends at the next start. -/
def State.dieCritical (d : Nat) (g : ThermalGroup) (s : State) : State :=
  let us := (0x10 + d) :: (List.range 16).map (fun i => 0x40 + 16 * d + i)
  let s1 : State := { s with supply := { s.supply with tripped := s.supply.tripped ||| 2 ^ d } }
  ((dieDomains d).foldl (fun s n => s.switchOff n) s1).contain us { thermalRecord g 3 with unit := 4 + d }

/-- THERMAL_SENSOR_READ (R82): each 100 µs the controller reads every sensor; the stacks' temperatures decide how they refresh
(R323, R350), and a change of state is a management event (R513). A critical trip within 100 ns of a supply stop is listed in its record
(R93). -/
def execThermalSensorRead (dies base hbmStacks : List (BitVec 8)) (inlet outlet : BitVec 8) (s : State) : Res :=
  if s.phase = .dark ∨ s.phase = .startWait then .next s
  else
    let gs := thermalGroups dies base hbmStacks inlet.toNat outlet.toNat
    let s1 := gs.foldl (fun s g => s.judgeGroup g) s
    let s2 := ((((s1.set Reg.PWR_THERMAL_TCD (hottest (dies.take 68)).1).set Reg.PWR_THERMAL_TBD (hottest base).1).set Reg.PWR_THERMAL_THBM
      (hottest hbmStacks).1).set Reg.PWR_THERMAL_TIN inlet.toNat).set Reg.PWR_THERMAL_TOUT outlet.toNat
    let s2 := (hbmStacks.zip (List.range 8)).foldl (fun s e =>
      (s.set (Reg.MEM_STATUS_TEMP e.2) e.1.toNat).set (Reg.MEM_STATUS_HOT e.2) (b2n (e.1.toNat ≥ 85))) s2
    let crit := gs.filter (fun g => g.temp ≥ g.crit)
    let dead := s.supply.tripped != 0 || !crit.isEmpty || s.get Reg.PWR_THERMAL_STATE == 3
    let hot := (gs.filter (fun g => g.bit < 4 && g.temp ≥ g.warn)).map (·.bit)
    let level := if dead then 3 else if s2.supply.heat != 0 then 2 else if s2.supply.warm != 0 then 1 else 0
    let s3 := (if s.get Reg.PWR_THERMAL_STATE = 4 then s2 else s2.set Reg.PWR_THERMAL_STATE level).set Reg.PWR_THERMAL_HOTDIE
      (maskOf hot)
    let s3 := if s3.get Reg.PWR_THERMAL_STATE = s.get Reg.PWR_THERMAL_STATE ∨ !s.powered then s3
      else s3.pldmEvent 3 [BitVec.ofNat 8 (s3.get Reg.PWR_THERMAL_STATE)]
    if s.phase = .stopping ∧ s.since s.supply.stopAt ≤ 100 ∧ !crit.isEmpty then
      .next ((({ s3 with supply := { s3.supply with stopRecord := s3.supply.stopRecord ++ crit.flatMap (fun g => 0x0A :: (thermalRecord g 3).body) } } : State).set
        Reg.PWR_THERMAL_STATE 3).keepRecords (crit.map (fun g => { thermalRecord g 3 with cls := 4, status := stInternal })))
    else if !s.powered then .next s3
    else
      match crit.find? (fun g => g.bit ≥ 4) with
      | some g => .next (s3.moduleEvent (thermalRecord g 3))
      | none =>
        let s4 := (crit.filter (fun g => !bitAt s3.supply.tripped g.bit)).foldl (fun s g => s.dieCritical g.bit g) s3
        .next (if s4.phase = .ready then s4.rebudget else s4)

/-- HARDWARE_THERMAL_TRIP (R84): every switched domain opens at once, without the orderly sequence and with no completion. In Start wait no
domain is open, and the trip asserts THERMTRIP# and is latched all the same. During an orderly stop the cause first latched is kept, and no
further completion is written (R93). DESIGN CHOICE: the stop record of such a trip says 0xFF, which the spec leaves open, after what the
record of a stop under way says. -/
def execHardwareThermalTrip (s : State) : Res :=
  if s.phase = .dark then .next s
  else
    let latch := fun (s : State) => { s with pins := { s.pins with thermtrip := true }, boot := { s.boot with trip := true } }
    if s.phase = .startWait then .next (latch s)
    else if s.phase = .stopping then
      .next (latch { s with supply := { s.supply with stopRecord := s.supply.stopRecord ++ [0xFF], dueOut := none } })
    else .next (latch (s.blowStarted.cutStore.loseAll.latchStop [0xFF]))

end Sys2Proof.Machine
end

