-- ==== Sys2Proof/Machine/Vector.lean ====
section
/-! DEFINITION. The vector engine's operations as they run (R256 to R274): the head of the V queue, with the errors it meets (R184). -/

namespace Sys2Proof.Machine

/-- The head of the V queue, when it can start (R262, R272). -/
def State.vxHead (s : State) (g : Nat) : Option VxOp :=
  match (s.tile g).vq with
  | [] => none
  | o :: _ => if !(s.tile g).vxBlocked o ∧ s.domState g = 0 then some o else none

/-- The head of the V queue is over. -/
def State.vxPop (g : Nat) (s : State) : State := (s.modTile g (fun t => { t with vq := t.vq.drop 1 })).syncVx g

/-- ISAT, EMPTY and the counts of vector work (R260, R266, R271, R275): `lanes` TCLK in which a vector was processed. -/
def State.vxCount (g lanes : Nat) (r : VxRun) (s : State) : State :=
  let s1 := if r.isat then s.set (Reg.TILE_VX_STATUS_ISAT g) 1 else s
  let s2 := if r.empties = 0 then s1 else (s1.set (Reg.TILE_VX_STATUS_EMPTY g) 1).bump (Reg.TILE_VX_WORK_EMPTYROWS g) r.empties
  s2.bump (Reg.TILE_VX_WORK_LANETCLK g) lanes

/-- A word of which each bit is that of one of two words (R276). -/
def mixBits (n old new : Nat) : Nat :=
  (List.range 64).foldl (fun w i => w + (if (if Config.freeBool (n + i) then bitAt new i else bitAt old i) then 2 ^ i else 0)) 0

/-- The scratchpad of a tile after each write that is under way on it: of its own copies, and of write flits addressed to it. -/
def State.writesUnderWay (s : State) (g : Nat) : List Tile :=
  let t := s.tile g
  (t.chans.toList.filterMap (fun c => match c.descs with
    | (_, d) :: _ => if c.active && dmaLocal d then some (t.localRun d (dmaRows d) 0 (dmaPieceCount d)) else none
    | [] => none)) ++
  ((s.flits.filter (fun f => f.typ == .write && f.dest == 0x40 + g)).map (fun f => t.spWrite f.addr f.data))

/-- The operation as it runs: the words of its mask stream that a DMA write is changing have each bit old or new (R276). -/
def State.vxMasked (s : State) (g n : Nat) (o : VxOp) : VxOp :=
  let a := o.args.getD 3 0
  let after := s.writesUnderWay g
  let word := fun (t : Tile) (k : Nat) => leNat (t.spRead (a + 8 * k) 8)
  let ks := List.range (vCount o.word)
  let old := s.tile g
  if vMmode o.word = 2 ∧ ks.any (fun k => after.any (fun t => word t k != word old k)) then
    { o with args := o.args ++ ks.map (fun k => (after.zipIdx).foldl (fun w e =>
        if word e.1 k = word old k then w else mixBits (n + 64 * (64 * e.2 + k)) w (word e.1 k)) (word old k)) }
  else o

/-- What a finished operation lands in a core register. -/
def VxOp.land (n acc : Nat) (o : VxOp) (old : Tile) (t : Tile) : Tile :=
  let v := BitVec.ofNat 64 (o.landed
    (fun _ => reduceRow (vSub o.word) (fmtIsInt (vFmt o.word)) (old.vxRow n acc o)) (fun _ => old.vxCompare n acc o))
  (vLands o.word).foldl (fun t r =>
    match r with
    | .g i => t.setG i v
    | .m i => t.setM i v
    | _ => t) t

/-- VECTOR_OP_RUN (R262 to R270): the head of the V queue runs to its end, or to the error that stops its LAUNCH: its first `step`
vectors are read and counted, those in flight hold free values. A parity error is one of a row of a bank (R184): an operation that reads no
bank meets none. -/
def execVectorOpRun (tile : Fin 64) (err : EngErr) (s : State) : Res :=
  let g := tile.val
  match s.vxHead g with
  | none => .next s
  | some o' =>
    let o := s.vxMasked g (s.free + 0x1000000) o'
    let w := o.word
    let acc := s.get (Reg.TILE_MX_CFG_ACC g)
    let n := s.free
    let s0 : State := { s with free := n + 0x2000000 }
    if wOp w = 1 then
      .next ((((s0.set (Reg.TILE_VX_STATUS_CLAIMED g) 1).set (Reg.TILE_VX_STATUS_CPANEL g) (vAccp w)).set
        (Reg.TILE_VX_STATUS_CBANK g) (vAccb w)).vxPop g)
    else if wOp w = 2 then .next ((s0.releaseClaim g).vxPop g)
    else if !vArith (wOp w) then .next ((s0.modTile g (fun t => o.land n acc t t)).vxPop g)
    else
      let t := s.tile g
      let stopped := fun (k : Nat) =>
        let m := min k (vCount w)
        if wOp w = 0x20 ∨ wOp w = 0x22 ∨ wOp w = 0x0D then
          ((s0.modTile g (fun t => (t.freeEntries n o.entries).freeRows n o.outRows)).vxCount g m { t := t }).vxPop g
        else
          let p := o.part n acc m t
          (((s0.vxCount g m p.2).modTile g (fun _ => p.2.t)).modTile g (fun t =>
            (t.freeEntries n (o.entries.filter (fun e => p.1.any (fun x => spIdx (vDst w) + x.1 == e.2 % 4096 / 64)))).freeRows n
              (if spKind (vDst w) = 3 then p.1.map (fun x => (o.args.getD 0 0 + 64 * x.1 * vDstSize w, 64 * vDstSize w)) else []))).vxPop g
      let whole :=
        let r := o.run n acc t
        let s1 := s0.modTile g (fun _ => o.land n acc t r.t)
        ((s1.vxCount g (if wOp w = 0x22 then 2 * vCount w else vCount w) r).vxPop g).engineCorrected g err
      match err with
      | .sram k a => .next ((stopped k).engineSram g a)
      | .parity k =>
        match o.bankRow k with
        | some (p, b, r) => .next ((stopped k).engineParity g p b r)
        | none => .next whole
      | _ => .next whole

end Sys2Proof.Machine
end

