-- ==== Sys2Proof/Machine/Dispatch.lean ====
section
/-! DEFINITION. The dispatch of a command to its meaning, one arm per constructor. -/

namespace Sys2Proof.Machine

/-- The effect of a command on everything but the queue of waiting commands. -/
def exec (i : Instr) (s : State) : Host.Outcome State Fault Refusal :=
  match i with
  | .registerWrite func off part v => Sys2Proof.Machine.execRegisterWrite func off part v s
  | .barWideRequest func write off len data => Sys2Proof.Machine.execBarWideRequest func write off len data s
  | .startWaitExit ga scanEn vin held => Sys2Proof.Machine.execStartWaitExit ga scanEn vin held s
  | .bankCharged vbank vin => Sys2Proof.Machine.execBankCharged vbank vin s
  | .thermalWaitEnd inlet hottest => Sys2Proof.Machine.execThermalWaitEnd inlet hottest s
  | .dipEntry vin => Sys2Proof.Machine.execDipEntry vin s
  | .dipExit vin => Sys2Proof.Machine.execDipExit vin s
  | .unpinnedStepDown => Sys2Proof.Machine.execUnpinnedStepDown s
  | .unpinnedStepUp => Sys2Proof.Machine.execUnpinnedStepUp s
  | .sag vin => Sys2Proof.Machine.execSag vin s
  | .surgeEntry vin => Sys2Proof.Machine.execSurgeEntry vin s
  | .surgeLong vin => Sys2Proof.Machine.execSurgeLong vin s
  | .overvolt vin => Sys2Proof.Machine.execOvervolt vin s
  | .overcurrent vin => Sys2Proof.Machine.execOvercurrent vin s
  | .ripple on => Sys2Proof.Machine.execRipple on s
  | .stopRecordWrite => Sys2Proof.Machine.execStopRecordWrite s
  | .powerConnectorPull vin => Sys2Proof.Machine.execPowerConnectorPull vin s
  | .vtRailFault die mv => Sys2Proof.Machine.execVtRailFault die mv s
  | .otherRailFault rail mv => Sys2Proof.Machine.execOtherRailFault rail mv s
  | .slewGrant share => Sys2Proof.Machine.execSlewGrant share s
  | .pwrSlewWrite part v => Sys2Proof.Machine.execPwrSlewWrite part v s
  | .prewarm func ring index => Sys2Proof.Machine.execPrewarm func ring index s
  | .pinnedCommonStart func ring index => Sys2Proof.Machine.execPinnedCommonStart func ring index s
  | .loadMark tile => Sys2Proof.Machine.execLoadMark tile s
  | .drizzleWindowEnd tile panel => Sys2Proof.Machine.execDrizzleWindowEnd tile panel s
  | .pwrDrizzleWrite part v => Sys2Proof.Machine.execPwrDrizzleWrite part v s
  | .pwrInExtremesClear v => Sys2Proof.Machine.execPwrInExtremesClear v s
  | .pwrRestartWrite part v => Sys2Proof.Machine.execPwrRestartWrite part v s
  | .i3cSetdasa static address => Sys2Proof.Machine.execI3cSetdasa static address s
  | .i3cEntdaa address => Sys2Proof.Machine.execI3cEntdaa address s
  | .i3cGetstatus => Sys2Proof.Machine.execI3cGetstatus s
  | .thermalSensorRead dies base hbmStacks inlet outlet => Sys2Proof.Machine.execThermalSensorRead dies base hbmStacks inlet outlet s
  | .hardwareThermalTrip => Sys2Proof.Machine.execHardwareThermalTrip s
  | .tapReset trst => Sys2Proof.Machine.execTapReset trst s
  | .bypass tdi => Sys2Proof.Machine.execBypass tdi s
  | .idcode => Sys2Proof.Machine.execIdcode s
  | .samplePreload pins cells => Sys2Proof.Machine.execSamplePreload pins cells s
  | .extest pins cells => Sys2Proof.Machine.execExtest pins cells s
  | .clamp => Sys2Proof.Machine.execClamp s
  | .highz => Sys2Proof.Machine.execHighz s
  | .extestPulse pins cells => Sys2Proof.Machine.execExtestPulse pins cells s
  | .extestTrain pins cells => Sys2Proof.Machine.execExtestTrain pins cells s
  | .perstAssert => Sys2Proof.Machine.execPerstAssert s
  | .perstDeassert => Sys2Proof.Machine.execPerstDeassert s
  | .configRequest func write off v => Sys2Proof.Machine.execConfigRequest func write off v s
  | .pwrDomReq dom v => Sys2Proof.Machine.execPwrDomReq dom v s
  | .domainWake dom => Sys2Proof.Machine.execDomainWake dom s
  | .domainExitDone dom => Sys2Proof.Machine.execDomainExitDone dom s
  | .exitTimeout dom => Sys2Proof.Machine.execExitTimeout dom s
  | .shadowCopyDone tile => Sys2Proof.Machine.execShadowCopyDone tile s
  | .contextSaveDone tile ok => Sys2Proof.Machine.execContextSaveDone tile ok s
  | .rimeIdleTimeout die => Sys2Proof.Machine.execRimeIdleTimeout die s
  | .fabricIdleTimeout dom => Sys2Proof.Machine.execFabricIdleTimeout dom s
  | .waitDeepen tile => Sys2Proof.Machine.execWaitDeepen tile s
  | .powerManagerTick vin iin pin vbank draws => Sys2Proof.Machine.execPowerManagerTick vin iin pin vbank draws s
  | .railTargetReached die => Sys2Proof.Machine.execRailTargetReached die s
  | .pwrBudgetWrite part v => Sys2Proof.Machine.execPwrBudgetWrite part v s
  | .pwrTncapWrite t part v => Sys2Proof.Machine.execPwrTncapWrite t part v s
  | .powerDeepFrostEnter tag => Sys2Proof.Machine.execPowerDeepFrostEnter tag s
  | .powerDeepFrostLeave tag => Sys2Proof.Machine.execPowerDeepFrostLeave tag s
  | .deepFrostWake => Sys2Proof.Machine.execDeepFrostWake s
  | .deepFrostExitDone => Sys2Proof.Machine.execDeepFrostExitDone s
  | .powerOff tag => Sys2Proof.Machine.execPowerOff tag s
  | .powerRestart tag => Sys2Proof.Machine.execPowerRestart tag s
  | .bringupStage0 vin capacity vaonOk coolantOk bad inlet hot => Sys2Proof.Machine.execBringupStage0 vin capacity vaonOk coolantOk bad inlet hot s
  | .bringupStage1 lockstepOk romOk sramOk sense => Sys2Proof.Machine.execBringupStage1 lockstepOk romOk sramOk sense s
  | .bringupStage2 ok phyUs => Sys2Proof.Machine.execBringupStage2 ok phyUs s
  | .bringupStage3 => Sys2Proof.Machine.execBringupStage3 s
  | .bringupStage4 bad => Sys2Proof.Machine.execBringupStage4 bad s
  | .bringupStage5 hbmStacks => Sys2Proof.Machine.execBringupStage5 hbmStacks s
  | .bringupStage6 badTiles badRime badFabric => Sys2Proof.Machine.execBringupStage6 badTiles badRime badFabric s
  | .bringupStage7 badLinks => Sys2Proof.Machine.execBringupStage7 badLinks s
  | .bringupStage8 ok => Sys2Proof.Machine.execBringupStage8 ok s
  | .bringupStage9 => Sys2Proof.Machine.execBringupStage9 s
  | .linkLightDetect link serial => Sys2Proof.Machine.execLinkLightDetect link serial s
  | .linkTrainDone link rx laneOrder verified flight lambda => Sys2Proof.Machine.execLinkTrainDone link rx laneOrder verified flight lambda s
  | .linkTrainTimeout link => Sys2Proof.Machine.execLinkTrainTimeout link s
  | .linkQualWindowEnd link => Sys2Proof.Machine.execLinkQualWindowEnd link s
  | .linkQualError link => Sys2Proof.Machine.execLinkQualError link s
  | .trainingRecordWrite item device body => Sys2Proof.Machine.execTrainingRecordWrite item device body s
  | .bruDiscard v => Sys2Proof.Machine.execBruDiscard v s
  | .bruForcecoldWrite part v => Sys2Proof.Machine.execBruForcecoldWrite part v s
  | .retirementUndo links part v => Sys2Proof.Machine.execRetirementUndo links part v s
  | .retirementRecordWrite => Sys2Proof.Machine.execRetirementRecordWrite s
  | .bundleIssue tile dep mem other ecc => Sys2Proof.Machine.execBundleIssue tile dep mem other ecc s
  | .storeBufferDrain tile ecc => Sys2Proof.Machine.execStoreBufferDrain tile ecc s
  | .corePortRescue tile ecc => Sys2Proof.Machine.execCorePortRescue tile ecc s
  | .haltComplete tile => Sys2Proof.Machine.execHaltComplete tile s
  | .tileDbgHalt tile => Sys2Proof.Machine.execTileDbgHalt tile s
  | .tileDbgResume tile => Sys2Proof.Machine.execTileDbgResume tile s
  | .tileDbgStep tile => Sys2Proof.Machine.execTileDbgStep tile s
  | .tileDbgDataAccess tile write part v => Sys2Proof.Machine.execTileDbgDataAccess tile write part v s
  | .istoreLoadDone tile => Sys2Proof.Machine.execIstoreLoadDone tile s
  | .mloadRun tile panel err => Sys2Proof.Machine.execMloadRun tile panel err s
  | .mmulRun tile panel err upset tclk => Sys2Proof.Machine.execMmulRun tile panel err upset tclk s
  | .mreadRun tile panel err => Sys2Proof.Machine.execMreadRun tile panel err s
  | .mspillRun tile panel err => Sys2Proof.Machine.execMspillRun tile panel err s
  | .mmomRun tile panel err tclk => Sys2Proof.Machine.execMmomRun tile panel err tclk s
  | .mdrzRun tile panel tclk => Sys2Proof.Machine.execMdrzRun tile panel tclk s
  | .vectorOpRun tile err => Sys2Proof.Machine.execVectorOpRun tile err s
  | .tokenApply k more => Sys2Proof.Machine.execTokenApply k more s
  | .pqWaitArrive k more => Sys2Proof.Machine.execPqWaitArrive k more s
  | .pqReplyArrive k => Sys2Proof.Machine.execPqReplyArrive k s
  | .pqCancelArrive k => Sys2Proof.Machine.execPqCancelArrive k s
  | .waitTimeout unit => Sys2Proof.Machine.execWaitTimeout unit s
  | .isobarCrcError k station => Sys2Proof.Machine.execIsobarCrcError k station s
  | .isobarResend k => Sys2Proof.Machine.execIsobarResend k s
  | .sweepCheckEnd t => Sys2Proof.Machine.execSweepCheckEnd t s
  | .sweepRelease t => Sys2Proof.Machine.execSweepRelease t s
  | .pqSnapGo v => Sys2Proof.Machine.execPqSnapGo v s
  | .pqSnapDone => Sys2Proof.Machine.execPqSnapDone s
  | .pqTncfgWrite t part v => Sys2Proof.Machine.execPqTncfgWrite t part v s
  | .flitForward k port half waited ecc => Sys2Proof.Machine.execFlitForward k port half waited ecc s
  | .jsWrite k => Sys2Proof.Machine.execJsWrite k s
  | .jsRead k ecc => Sys2Proof.Machine.execJsRead k ecc s
  | .jsRdata k => Sys2Proof.Machine.execJsRdata k s
  | .jsWack k => Sys2Proof.Machine.execJsWack k s
  | .jsIswrite k => Sys2Proof.Machine.execJsIswrite k s
  | .memorySlot hc pcs busy ecc => Sys2Proof.Machine.execMemorySlot hc pcs busy ecc s
  | .hbmDynamicAccess hc pcs j ecc => Sys2Proof.Machine.execHbmDynamicAccess hc pcs j ecc s
  | .hbmCorrectedRewrite hc pcs => Sys2Proof.Machine.execHbmCorrectedRewrite hc pcs s
  | .scrubRead hc ecc => Sys2Proof.Machine.execScrubRead hc ecc s
  | .memGroupmodeWrite part v => Sys2Proof.Machine.execMemGroupmodeWrite part v s
  | .breezeCmd k => Sys2Proof.Machine.execBreezeCmd k s
  | .breezeEpoch k => Sys2Proof.Machine.execBreezeEpoch k s
  | .breezeReport k => Sys2Proof.Machine.execBreezeReport k s
  | .breezeCtrl k => Sys2Proof.Machine.execBreezeCtrl k s
  | .breezeCrcError k unit => Sys2Proof.Machine.execBreezeCrcError k unit s
  | .breezeResend k => Sys2Proof.Machine.execBreezeResend k s
  | .dmaDescriptorStart tile chan ecc => Sys2Proof.Machine.execDmaDescriptorStart tile chan ecc s
  | .dmaDescriptorDone tile chan => Sys2Proof.Machine.execDmaDescriptorDone tile chan s
  | .linkFlitReceive link flit uncorr fecsym frame slot => Sys2Proof.Machine.execLinkFlitReceive link flit uncorr fecsym frame slot s
  | .linkFlitRelease link => Sys2Proof.Machine.execLinkFlitRelease link s
  | .linkLossOfLock link => Sys2Proof.Machine.execLinkLossOfLock link s
  | .linkRetryTimer link loopOk => Sys2Proof.Machine.execLinkRetryTimer link loopOk s
  | .qual link part body => Sys2Proof.Machine.execQual link part body s
  | .ident link part body => Sys2Proof.Machine.execIdent link part body s
  | .digest link part body => Sys2Proof.Machine.execDigest link part body s
  | .time link part body stamp => Sys2Proof.Machine.execTime link part body stamp s
  | .upmap link part body => Sys2Proof.Machine.execUpmap link part body s
  | .fenceControlWord link part body => Sys2Proof.Machine.execFenceControlWord link part body s
  | .down link part body => Sys2Proof.Machine.execDown link part body s
  | .map link part body => Sys2Proof.Machine.execMap link part body s
  | .frameBoundary => Sys2Proof.Machine.execFrameBoundary s
  | .linkEnableWrite link en => Sys2Proof.Machine.execLinkEnableWrite link en s
  | .linkRetrain link => Sys2Proof.Machine.execLinkRetrain link s
  | .spareConfigWrite v => Sys2Proof.Machine.execSpareConfigWrite v s
  | .domainEnWrite part v => Sys2Proof.Machine.execDomainEnWrite part v s
  | .domainRejoin => Sys2Proof.Machine.execDomainRejoin s
  | .doorbellPoll func ring => Sys2Proof.Machine.execDoorbellPoll func ring s
  | .doorbellReadDone func ring res => Sys2Proof.Machine.execDoorbellReadDone func ring res s
  | .descriptorFetchDone func ring res => Sys2Proof.Machine.execDescriptorFetchDone func ring res s
  | .commandDispatch func ring => Sys2Proof.Machine.execCommandDispatch func ring s
  | .nop func ring index => Sys2Proof.Machine.execNop func ring index s
  | .launch func ring index => Sys2Proof.Machine.execLaunch func ring index s
  | .abort func ring index => Sys2Proof.Machine.execAbort func ring index s
  | .alloc func ring index failed => Sys2Proof.Machine.execAlloc func ring index failed s
  | .free func ring index => Sys2Proof.Machine.execFree func ring index s
  | .copyin func ring index => Sys2Proof.Machine.execCopyin func ring index s
  | .copyout func ring index => Sys2Proof.Machine.execCopyout func ring index s
  | .signalq func ring index => Sys2Proof.Machine.execSignalq func ring index s
  | .waitq func ring index => Sys2Proof.Machine.execWaitq func ring index s
  | .dbgctlHalt func ring index => Sys2Proof.Machine.execDbgctlHalt func ring index s
  | .dbgctlResume func ring index => Sys2Proof.Machine.execDbgctlResume func ring index s
  | .dbgctlStep func ring index => Sys2Proof.Machine.execDbgctlStep func ring index s
  | .dbgctlArm func ring index => Sys2Proof.Machine.execDbgctlArm func ring index s
  | .dbgctlDisarm func ring index => Sys2Proof.Machine.execDbgctlDisarm func ring index s
  | .dbgread func ring index => Sys2Proof.Machine.execDbgread func ring index s
  | .dbgwrite func ring index => Sys2Proof.Machine.execDbgwrite func ring index s
  | .rkeyload func ring index => Sys2Proof.Machine.execRkeyload func ring index s
  | .rrefresh func ring index => Sys2Proof.Machine.execRrefresh func ring index s
  | .rlinear func ring index => Sys2Proof.Machine.execRlinear func ring index s
  | .launchComplete func ring index => Sys2Proof.Machine.execLaunchComplete func ring index s
  | .copyDone func ring index => Sys2Proof.Machine.execCopyDone func ring index s
  | .waitqPoll func ring index => Sys2Proof.Machine.execWaitqPoll func ring index s
  | .irqTimer func ring => Sys2Proof.Machine.execIrqTimer func ring s
  | .ringEnable func ring part v => Sys2Proof.Machine.execRingEnable func ring part v s
  | .ringDisable func ring part v => Sys2Proof.Machine.execRingDisable func ring part v s
  | .ideStateChange func secure => Sys2Proof.Machine.execIdeStateChange func secure s
  | .msixUnmask func vector => Sys2Proof.Machine.execMsixUnmask func vector s
  | .flrVf func => Sys2Proof.Machine.execFlrVf func s
  | .flrPf0 => Sys2Proof.Machine.execFlrPf0 s
  | .hotReset => Sys2Proof.Machine.execHotReset s
  | .uncommandedLinkDown => Sys2Proof.Machine.execUncommandedLinkDown s
  | .create t perm => Sys2Proof.Machine.execCreate t perm s
  | .start t => Sys2Proof.Machine.execStart t s
  | .stop t => Sys2Proof.Machine.execStop t s
  | .tenancyStopDone t => Sys2Proof.Machine.execTenancyStopDone t s
  | .destroy t => Sys2Proof.Machine.execDestroy t s
  | .tnTilesWrite t part v => Sys2Proof.Machine.execTnTilesWrite t part v s
  | .tnCfgWrite t part v => Sys2Proof.Machine.execTnCfgWrite t part v s
  | .tnSlotqWrite t part v => Sys2Proof.Machine.execTnSlotqWrite t part v s
  | .tnSaveWrite t part v => Sys2Proof.Machine.execTnSaveWrite t part v s
  | .tileScrubDone tile => Sys2Proof.Machine.execTileScrubDone tile s
  | .scrubTimeout tile => Sys2Proof.Machine.execScrubTimeout tile s
  | .tnIsoClaimWrite v => Sys2Proof.Machine.execTnIsoClaimWrite v s
  | .tnBufqWrite t part v => Sys2Proof.Machine.execTnBufqWrite t part v s
  | .rimeCommandStart die => Sys2Proof.Machine.execRimeCommandStart die s
  | .rimeKeyLoadDone die => Sys2Proof.Machine.execRimeKeyLoadDone die s
  | .rimeWaveDone die ecc mem => Sys2Proof.Machine.execRimeWaveDone die ecc mem s
  | .quiesceFence unit => Sys2Proof.Machine.execQuiesceFence unit s
  | .quiesceDrainEnd unit => Sys2Proof.Machine.execQuiesceDrainEnd unit s
  | .quiesceResetDone unit => Sys2Proof.Machine.execQuiesceResetDone unit s
  | .quiesceDrainTimeout unit => Sys2Proof.Machine.execQuiesceDrainTimeout unit s
  | .epochAudit wrong => Sys2Proof.Machine.execEpochAudit wrong s
  | .status tag => Sys2Proof.Machine.execStatus tag s
  | .epochread tag unit => Sys2Proof.Machine.execEpochread tag unit s
  | .tenancy tag t op perm => Sys2Proof.Machine.execTenancy tag t op perm s
  | .quiesceResetRelease tag unit => Sys2Proof.Machine.execQuiesceResetRelease tag unit s
  | .quiesceFenceHold tag unit => Sys2Proof.Machine.execQuiesceFenceHold tag unit s
  | .quiesceReleaseHeld tag unit => Sys2Proof.Machine.execQuiesceReleaseHeld tag unit s
  | .snapshot tag => Sys2Proof.Machine.execSnapshot tag s
  | .controllerFailure cause => Sys2Proof.Machine.execControllerFailure cause s
  | .setEndpointId port eid => Sys2Proof.Machine.execSetEndpointId port eid s
  | .getEndpointId port => Sys2Proof.Machine.execGetEndpointId port s
  | .getEndpointUuid port => Sys2Proof.Machine.execGetEndpointUuid port s
  | .getMctpVersionSupport port msgType => Sys2Proof.Machine.execGetMctpVersionSupport port msgType s
  | .getMessageTypeSupport port => Sys2Proof.Machine.execGetMessageTypeSupport port s
  | .getTid port => Sys2Proof.Machine.execGetTid port s
  | .setTid port tid => Sys2Proof.Machine.execSetTid port tid s
  | .getPldmVersion port type => Sys2Proof.Machine.execGetPldmVersion port type s
  | .getPldmTypes port => Sys2Proof.Machine.execGetPldmTypes port s
  | .getPldmCommands port type => Sys2Proof.Machine.execGetPldmCommands port type s
  | .getSensorReading port sensor => Sys2Proof.Machine.execGetSensorReading port sensor s
  | .getStateSensorReadings port sensor => Sys2Proof.Machine.execGetStateSensorReadings port sensor s
  | .setNumericEffecterValue port effecter value => Sys2Proof.Machine.execSetNumericEffecterValue port effecter value s
  | .getNumericEffecterValue port effecter => Sys2Proof.Machine.execGetNumericEffecterValue port effecter s
  | .setStateEffecterStates port effecter state => Sys2Proof.Machine.execSetStateEffecterStates port effecter state s
  | .getStateEffecterStates port effecter => Sys2Proof.Machine.execGetStateEffecterStates port effecter s
  | .getPdrRepositoryInfo port => Sys2Proof.Machine.execGetPdrRepositoryInfo port s
  | .getPdr port handle => Sys2Proof.Machine.execGetPdr port handle s
  | .setEventReceiver port enable => Sys2Proof.Machine.execSetEventReceiver port enable s
  | .eventMessageSupported port => Sys2Proof.Machine.execEventMessageSupported port s
  | .eventMessageBufferSize port size => Sys2Proof.Machine.execEventMessageBufferSize port size s
  | .pollForPlatformEventMessage port ack => Sys2Proof.Machine.execPollForPlatformEventMessage port ack s
  | .queryDeviceIdentifiers port => Sys2Proof.Machine.execQueryDeviceIdentifiers port s
  | .getFirmwareParameters port => Sys2Proof.Machine.execGetFirmwareParameters port s
  | .requestUpdate port => Sys2Proof.Machine.execRequestUpdate port s
  | .passComponentTable port ident => Sys2Proof.Machine.execPassComponentTable port ident s
  | .updateComponent port ident => Sys2Proof.Machine.execUpdateComponent port ident s
  | .requestFirmwareData port data => Sys2Proof.Machine.execRequestFirmwareData port data s
  | .transferComplete port => Sys2Proof.Machine.execTransferComplete port s
  | .verifyComplete port => Sys2Proof.Machine.execVerifyComplete port s
  | .applyComplete port => Sys2Proof.Machine.execApplyComplete port s
  | .activateFirmware port selfContained => Sys2Proof.Machine.execActivateFirmware port selfContained s
  | .getStatus port => Sys2Proof.Machine.execGetStatus port s
  | .cancelUpdateComponent port => Sys2Proof.Machine.execCancelUpdateComponent port s
  | .cancelUpdate port => Sys2Proof.Machine.execCancelUpdate port s
  | .getVersion port => Sys2Proof.Machine.execGetVersion port s
  | .getCapabilities port => Sys2Proof.Machine.execGetCapabilities port s
  | .negotiateAlgorithms port fit => Sys2Proof.Machine.execNegotiateAlgorithms port fit s
  | .getDigests port => Sys2Proof.Machine.execGetDigests port s
  | .getCertificate port slot off len => Sys2Proof.Machine.execGetCertificate port slot off len s
  | .challenge port slot => Sys2Proof.Machine.execChallenge port slot s
  | .getMeasurements port index signature => Sys2Proof.Machine.execGetMeasurements port index signature s
  | .keyExchange port => Sys2Proof.Machine.execKeyExchange port s
  | .finish port id ok => Sys2Proof.Machine.execFinish port id ok s
  | .heartbeat port id => Sys2Proof.Machine.execHeartbeat port id s
  | .keyUpdate port id => Sys2Proof.Machine.execKeyUpdate port id s
  | .endSession port id => Sys2Proof.Machine.execEndSession port id s
  | .vendorDefinedRequest port id func op => Sys2Proof.Machine.execVendorDefinedRequest port id func op s
  | .eventRecordWrite ring ok => Sys2Proof.Machine.execEventRecordWrite ring ok s
  | .evrDoorbellPoll ring res => Sys2Proof.Machine.execEvrDoorbellPoll ring res s
  | .evrMsix ring => Sys2Proof.Machine.execEvrMsix ring s
  | .evrCtlWrite ring part v => Sys2Proof.Machine.execEvrCtlWrite ring part v s
  | .twinCompare tile equal => Sys2Proof.Machine.execTwinCompare tile equal s
  | .granuleWithholdUndo k part v => Sys2Proof.Machine.execGranuleWithholdUndo k part v s
  | .read len => Sys2Proof.Machine.execRead len s
  | .program len => Sys2Proof.Machine.execProgram len s
  | .erase len => Sys2Proof.Machine.execErase len s
  | .storeOpDone ok => Sys2Proof.Machine.execStoreOpDone ok s
  | .unitRecordWrite => Sys2Proof.Machine.execUnitRecordWrite s
  | .slotinfo tag => Sys2Proof.Machine.execSlotinfo tag s
  | .eraseslot tag slot => Sys2Proof.Machine.execEraseslot tag slot s
  | .eraseSectorDone ok => Sys2Proof.Machine.execEraseSectorDone ok s
  | .verify tag slot => Sys2Proof.Machine.execVerify tag slot s
  | .activate tag slot flags => Sys2Proof.Machine.execActivate tag slot flags s
  | .confirm tag => Sys2Proof.Machine.execConfirm tag s
  | .revert tag => Sys2Proof.Machine.execRevert tag s
  | .commitsvn tag => Sys2Proof.Machine.execCommitsvn tag s
  | .fuseBitBlown ok => Sys2Proof.Machine.execFuseBitBlown ok s
  | .ownerkey tag key sig => Sys2Proof.Machine.execOwnerkey tag key sig s
  | .surgeExit vin => Sys2Proof.Machine.execSurgeExit vin s
  | .powerOn => Sys2Proof.Machine.execPowerOn s
  | .alwaysOnPowerLoss => Sys2Proof.Machine.execAlwaysOnPowerLoss s
  | .pcieLinkUp speed width flit => Sys2Proof.Machine.execPcieLinkUp speed width flit s
  | .hostReadCompletion func ring index res => Sys2Proof.Machine.execHostReadCompletion func ring index res s
  | .hostCompletionTimeout func ring index => Sys2Proof.Machine.execHostCompletionTimeout func ring index s
  | .linkSlot link => Sys2Proof.Machine.execLinkSlot link s
  | .storeReadDone => Sys2Proof.Machine.execStoreReadDone s

end Sys2Proof.Machine
end

