-- ==== Sys2Proof/Machine/Idle.lean ====
section
/-! DEFINITION. What happens when no command waits: the time base ticks, and what only time or the end of other work had held back takes
place. -/

namespace Sys2Proof.Machine

/-- The time of a stack's scrub pass counts: its stack is present, scrub is on, its domain is in neither L3 nor L4, the module not in
Deep Frost (R340). -/
def State.scrubCounts (s : State) (k : Nat) : Bool :=
  s.on (Reg.MEM_STATUS_PRESENT k) && s.on (Reg.MEM_SCRUB_EN k) && s.domState (72 + k) != 3 && s.domState (72 + k) != 4 &&
    s.frost == .awake

/-- A nanosecond of every scrub pass whose time counts. -/
def State.scrubTime (s : State) : State :=
  { s with scrubs := Vector.ofFn (fun (k : Fin 8) =>
      if s.scrubCounts k.val then { s.scrubs[k] with ns := s.scrubs[k].ns + 1 } else s.scrubs[k]) }

/-- A step with no command: queues serve what reached them in the KCLK that ends (R287); the time base goes on by 1 ns while the always-on domain has power (R31); scrub passes age (R340); counted events
whose millisecond is over are recorded (R536); a stop writes the completions that it held for 100 ns (R93); units whose exclusion waited for their command leave service (R538); a mailbox request that
nothing holds any more is taken (R122, R505). -/
def State.idleStep (s : State) : State :=
  if s.phase = .dark then s
  else
    let s0 := ({ s.settleQueues with touched := [] } : State).idle.scrubTime
    let s1 := if s0.phase = .stopping ∧ s0.since s0.supply.stopAt > 100 then s0.flushStop else s0
    if s1.phase = .ready then s1.flushCoalesced.settleExclusions.mbxResume else s1

end Sys2Proof.Machine
end

