-- ==== Sys2Proof/Safety.lean ====
section
/-! DEFINITION. What counts as a safe run: no step stops with a fault or a refusal. -/

namespace Sys2Proof.Safety

open Sys2Proof.Machine

/-- The outcome goes on: it is a next state. -/
def goesOn (o : Host.Outcome State Fault Refusal) : Prop := ∃ t, o = .next t

/-- A state from which the next `k` steps go on. -/
def runs : Nat → State → Prop
  | 0, _ => True
  | k + 1, s => ∃ t, Sys2Proof.Machine.step s = .next t ∧ runs k t

end Sys2Proof.Safety
end

