-- ==== Sys2Proof/Certificates/Slice0/Obligations.lean ====
section
/-! DEFINITION. The statements for the provers. Where a statement names a command under conditions on the state and the operands, its
conclusion is the next state that `exec` answers: a state written out with the named operations of the model, or what holds of it. -/

open Sys2Proof Sys2Proof.Machine

/-- The command answers a next state of which `P` holds. -/
def Sys2Proof.Answers (c : Instr) (s : State) (P : State → Prop) : Prop := ∃ t, exec c s = .next t ∧ P t

/-- Every register field that is none of the listed ones reads as before. -/
def Sys2Proof.KeepsRegs (fs : List Fld) (s t : State) : Prop := ∀ x : Fld, (∀ f ∈ fs, x.key ≠ f.key) → t.get x = s.get x

/-! ### The queue -/

/-- A step takes the command at the front of the queue. -/
def Obligations.StepRunsFront : Prop :=
  ∀ (c : Instr) (cs : List Instr) (s : State), s.pending = c :: cs → step s = exec c { s with pending := cs }

/-- With no command waiting, a step is 1 ns of the time base and what falls due by itself (the model's own choice, log entry 3). -/
def Obligations.EmptyQueueTicks : Prop :=
  ∀ s : State, s.pending = [] → step s = .next s.idleStep

/-- A step takes exactly the front command off the queue, whatever that command does. -/
def Obligations.QueueIsFifo : Prop :=
  ∀ s t : State, step s = .next t → t.pending = s.pending.tail

/-- Every command is served in every state: `exec` answers a next state, and no step of the block stops. -/
def Obligations.NoStepStops : Prop :=
  (∀ (c : Instr) (s : State), ∃ t, exec c s = .next t) ∧ ∀ s : State, ∃ t, step s = .next t

/-- A fuse bit that is blown stays blown over every step (R130, R557). -/
def Obligations.BlownFusesStayBlown : Prop :=
  ∀ (s t : State) (i n : Nat), step s = .next t → bitAt (s.fuse i) n = true → bitAt (t.fuse i) n = true

/-- No step lowers an anti-rollback counter (R557). -/
def Obligations.RollbackNeverFalls : Prop :=
  ∀ (s t : State) (i : Nat), i < 2 → step s = .next t → s.rollback i ≤ t.rollback i

/-- The bytes of HBM keep their one canonical form over every step: addresses rise, and no listed byte is zero. -/
def Obligations.MemoryStaysCanonical : Prop :=
  ∀ s t : State, spWf ramByte s.hbm = true → step s = .next t → spWf ramByte t.hbm = true

/-! ### The input, the supply and the rails -/

/-- A supply trip: its cause and voltage are latched, and every switched domain has lost what it held (R36, R47, R48, R58). A second cause
within 100 ns joins the first, and the lowest code stands in CAUSE (R60). -/
def Sys2Proof.Part.SupplyTripStopsModule : Prop :=
  ∀ (cause vin : Nat) (s : State), cause < 16 → vin < 65536 →
    (s.powered = true → s.supply.stopped = false →
      (s.supplyTrip cause vin).phase = .stopping ∧ (s.supplyTrip cause vin).get Reg.PWR_SUPPLY_EVENT_CAUSE = cause ∧
      (s.supplyTrip cause vin).get Reg.PWR_SUPPLY_EVENT_VATSTOP = vin ∧ (s.supplyTrip cause vin).get Reg.PWR_IN_STATUS_BAND = 4 ∧
      (s.supplyTrip cause vin).supply.isolated = true ∧ (s.supplyTrip cause vin).supply.causes = [cause] ∧
      (s.supplyTrip cause vin).hbm = [] ∧ (s.supplyTrip cause vin).tiles = Vector.replicate 64 {} ∧
      (s.supplyTrip cause vin).pqs = [] ∧ (s.supplyTrip cause vin).tens = Vector.replicate 17 {}) ∧
    (s.phase = .stopping → s.since s.supply.stopAt ≤ 100 → s.supply.causes.contains cause = false →
      (s.supplyTrip cause vin).supply.causes = s.supply.causes ++ [cause] ∧
      (s.supplyTrip cause vin).get Reg.PWR_SUPPLY_EVENT_CAUSE = (s.supply.causes ++ [cause]).foldl min cause) ∧
    (s.phase = .stopping → 100 < s.since s.supply.stopAt → s.supplyTrip cause vin = s)

/-- Which events trip, and with which cause code (R36, R42, R58, R66). -/
def Sys2Proof.Part.TripEventsByCause : Prop :=
  ∀ (vin : BitVec 16) (s : State),
    (vin.toNat < 3600 → exec (.sag vin) s = .next (s.supplyTrip 1 vin.toNat)) ∧
    (s.powered = true → exec (.overcurrent vin) s =
      .next { s.supplyTrip 2 vin.toNat with supply := { (s.supplyTrip 2 vin.toNat).supply with inputOpen := true } }) ∧
    (s.powered = true → 6800 < vin.toNat → exec (.overvolt vin) s =
      .next { s.supplyTrip 3 vin.toNat with supply := { (s.supplyTrip 3 vin.toNat).supply with inputOpen := true } }) ∧
    (s.get Reg.PWR_IN_STATUS_BAND = 3 → 100000000 ≤ s.since s.supply.bandAt → exec (.surgeLong vin) s = .next (s.supplyTrip 4 vin.toNat)) ∧
    (s.phase ≠ .stopping → exec (.powerConnectorPull vin) s =
      .next { s.supplyTrip 1 vin.toNat with pins := { (s.supplyTrip 1 vin.toNat).pins with prsntP := false } }) ∧
    (s.phase = .stopping → exec (.powerConnectorPull vin) s = .next { s with pins := { s.pins with prsntP := false } })

/-- The bands that the input moves between while the module goes on (R36, R38, R44, R46). -/
def Sys2Proof.Part.InputBandsFollowVoltage : Prop :=
  ∀ (vin : BitVec 16) (s : State), s.powered = true →
    (s.get Reg.PWR_IN_STATUS_BAND = 1 ∨ s.get Reg.PWR_IN_STATUS_BAND = 2 → 6000 < vin.toNat → Answers (.surgeEntry vin) s (fun t =>
      t.get Reg.PWR_IN_STATUS_BAND = 3 ∧ t.get Reg.PWR_IN_STATUS_DIP_OVERLOAD = 0 ∧ t.supply = { s.supply with bandAt := s.tick } ∧
      KeepsRegs [Reg.PWR_IN_STATUS_BAND, Reg.PWR_IN_STATUS_DIP_OVERLOAD, Reg.PWR_IN_STATUS_BURST_OK] s t)) ∧
    (s.get Reg.PWR_IN_STATUS_BAND = 3 → vin.toNat ≤ 6000 → exec (.surgeExit vin) s = .next (s.setBand 1)) ∧
    (s.get Reg.PWR_IN_STATUS_BAND = 1 ∨ s.get Reg.PWR_IN_STATUS_BAND = 3 → 3600 ≤ vin.toNat → vin.toNat < 4000 →
      exec (.dipEntry vin) s = .next ((s.setBand 2).set Reg.PWR_IN_SAMPLE_VIN vin.toNat).rebudget) ∧
    (s.get Reg.PWR_IN_STATUS_BAND = 2 → 4100 ≤ vin.toNat →
      exec (.dipExit vin) s =
        .next (((s.set Reg.PWR_IN_SAMPLE_VIN vin.toNat).setBand 1).set Reg.PWR_IN_STATUS_DIP_OVERLOAD 0).rebudget) ∧
    exec (.ripple false) s = .next (s.set Reg.PWR_IN_STATUS_RIPPLE 0) ∧
    exec (.ripple true) s = .next ((s.set Reg.PWR_IN_STATUS_RIPPLE 1).supplyWarning 0 0xFF 31) ∧
    ∀ b < 8, (s.setBand b).get Reg.PWR_IN_STATUS_BAND = b ∧
      KeepsRegs [Reg.PWR_IN_STATUS_BAND, Reg.PWR_IN_STATUS_BURST_OK] s (s.setBand b)

/-- A dip or a throttle steps each tile that it may step by exactly one, and out of the dip lifts what it took by one (R44, R46, R83, R93). -/
def Sys2Proof.Part.ThrottleStepsByOne : Prop :=
  ∀ (s : State) (g : Nat), g < 64 → s.phase = .ready →
    (s.throttled = true → Answers .unpinnedStepDown s (fun t =>
      (t.dom g).forced = if s.steppable g && !s.steppedLately g && decide ((s.dom g).held + (s.dom g).forced < 3) then (s.dom g).forced + 1
        else (s.dom g).forced)) ∧
    (s.throttled = false → exec .unpinnedStepDown s = .next s) ∧
    (s.throttled = false → s.get Reg.PWR_IN_STATUS_BAND ≠ 2 → Answers .unpinnedStepUp s (fun t =>
      (t.dom g).forced = if decide (0 < (s.dom g).forced) && !s.steppedLately g then (s.dom g).forced - 1 else (s.dom g).forced)) ∧
    (s.throttled = true ∨ s.get Reg.PWR_IN_STATUS_BAND = 2 → exec .unpinnedStepUp s = .next s)

/-- The end of a stop, and the always-on domain's loss and return (R36, R48, R49, R59, R146, R546). -/
def Sys2Proof.Part.StopEndsInStartWait : Prop :=
  ∀ s : State,
    (s.phase = .stopping → Answers .stopRecordWrite s (fun t =>
      t.phase = .startWait ∧ t.supply.stopped = false ∧ t.supply.stopWritten = true ∧ t.get Reg.PWR_IN_STATUS_BAND = 0 ∧ t.hbm = s.hbm ∧
      (s.supply.dueOut = none → t.out = s.out) ∧ ∀ o p, s.supply.dueOut = some (o, p) → t.out = s.out ++ o)) ∧
    (s.phase = .startWait → Answers .alwaysOnPowerLoss s (fun t =>
      t.phase = .dark ∧ t.regs = [] ∧ t.tick = 0 ∧ t.fuses = s.fuses ∧ t.out = s.out ∧ t.pins = {} ∧ t.store.cells = s.store.cells ∧
      t.store.kept = s.store.kept)) ∧
    (s.phase = .dark → Answers .powerOn s (fun t =>
      t.phase = .startWait ∧ t.get Reg.PWR_RESTART_AUTO = s.store.kept.auto % 2 ∧ t.get Reg.PWR_RESTART_HOLDOFF = s.store.kept.holdoff % 256 ∧
      t.get Reg.BRU_CTL_FORCECOLD = s.store.kept.forceCold % 2 ∧ t.get Reg.PWR_SUPPLY_EVENT_CAUSE = s.store.kept.cause % 16 ∧
      t.get Reg.PWR_SUPPLY_EVENT_VATSTOP = s.store.kept.vatstop % 2 ^ 16 ∧ t.startCount = s.store.kept.starts))

/-- A rail out of its ±3 %: that of a die takes the die's units out; any other stops the module. A rail that has reached its voltage lets the
steps take place that waited for it (R39, R40, R521, R540). -/
def Sys2Proof.Part.RailFaultsContained : Prop :=
  ∀ (mv : BitVec 16) (s : State),
    (∀ die : Fin 4, s.phase = .ready ∨ s.phase = .bringUp → s.railGoal die.val ≠ 0 → offRail mv.toNat (s.railMv die.val) = true →
      Answers (.vtRailFault die mv) s (fun t => (0x10 + die.val) ∈ t.excluded ∧ ∀ i < 16, 0x40 + 16 * die.val + i ∈ t.excluded)) ∧
    (∀ rail : Fin 16, s.powered = true → s.supply.stopped = false → (rail.val < 8 ∨ rail.val = 12) → s.railAtRest rail.val ≠ 0 →
      offRail mv.toNat (s.railAtRest rail.val) = true →
      Answers (.otherRailFault rail mv) s (fun t => t.phase = .stopping ∧ t.supply.stopRecord =
        [0x09, 0xFF, 0, BitVec.ofNat 8 (s.get Reg.PWR_IN_STATUS_BAND)] ++ leBytes 2 (s.get Reg.PWR_IN_SAMPLE_VIN) ++ [BitVec.ofNat 8 rail.val])) ∧
    (∀ die : Fin 4, s.railMv die.val = s.railGoal die.val → Answers (.railTargetReached die) s (fun t =>
      ∀ n ∈ dieDomains die.val, ∀ k < 4, (s.dom n).want = some k → stepMv k ≤ s.railGoal die.val →
        t.get (Reg.PWR_DOM_STATE_STEP n) = k ∧ (t.dom n).want = none))

/-- The slew governor's grants run one after another within a share, each for its current over the share's rate (R51 to R53). -/
def Sys2Proof.Part.SlewGrantsRunInTurn : Prop :=
  ∀ (share : Fin 18) (s : State) (g : Nat × Quantum × Nat),
    s.supply.grants.find? (fun g => g.1 == share.val) = some g → s.shareFree share.val = true → 0 < s.shareRate share.val →
    Answers (.slewGrant share) s (fun t =>
      t.supply.busy = (share.val, s.tick + BitVec.ofNat 64 (rampNs g.2.2 (s.shareRate share.val))) ::
        s.supply.busy.filter (fun e => e.1 != share.val) ∧
      (∀ n < 86, g.2.1 = .wake n → (s.dom n).exiting.isSome = true →
        (t.dom n).granted = some s.tick ∧ t.regs = s.regs ∧ t.supply.grants = s.supply.grants.erase g) ∧
      (∀ n < 86, g.2.1 = .full n →
        (t.dom n).rate = some (s.tick + BitVec.ofNat 64 (rampNs g.2.2 (s.shareRate share.val))) ∧ t.regs = s.regs ∧
        t.supply.grants = s.supply.grants.erase g) ∧
      (∀ n, g.2.1 = .fall n → t.regs = s.regs ∧ t.doms = s.doms ∧ t.supply.grants = s.supply.grants.erase g))

/-- A write of PWR_SLEW.LIMIT outside 25 to 400 or below SCHED / 0.9 is ignored and logged; one that is accepted reads back at once, and the
governor takes it at its next 1 µs boundary (R57, R577). -/
def Sys2Proof.Part.SlewLimitWritesChecked : Prop :=
  ∀ (part : Part) (v : Word) (n : Nat) (s : State), s.phase = .ready → n = partOf (s.get Reg.PWR_SLEW_LIMIT) part v % 65536 →
    (n = s.get Reg.PWR_SLEW_LIMIT → exec (.pwrSlewWrite part v) s = .next s) ∧
    (n ≠ s.get Reg.PWR_SLEW_LIMIT → n < 25 ∨ 400 < n ∨ 9 * n < 10 * s.get Reg.PWR_SLEW_SCHED →
      exec (.pwrSlewWrite part v) s = .next (s.logRefused 0xB08020 0 v.toNat)) ∧
    (n ≠ s.get Reg.PWR_SLEW_LIMIT → 25 ≤ n → n ≤ 400 → 10 * s.get Reg.PWR_SLEW_SCHED ≤ 9 * n → Answers (.pwrSlewWrite part v) s (fun t =>
      t.get Reg.PWR_SLEW_LIMIT = n ∧ KeepsRegs [Reg.PWR_SLEW_LIMIT] s t ∧ t.supply.slewNow = s.supply.slewNow ∧ t.boundary.supply.slewNow = n))

/-- The registers of the supply that software writes (R23, R56, R58, R59). -/
def Sys2Proof.Part.SupplyRegisterWrites : Prop :=
  ∀ (v : Word) (s : State), s.phase = .ready →
    (s.startedTens.any (fun t => s.on (Reg.TN_CFG_MODE t)) = false → Answers (.pwrDrizzleWrite .whole v) s (fun t =>
      t.get Reg.PWR_DRIZZLE_WINDOW = v.toNat % 65536 ∧ t.get Reg.PWR_DRIZZLE_LEVEL = v.toNat / 65536 % 16 ∧
      KeepsRegs [Reg.PWR_DRIZZLE_WINDOW, Reg.PWR_DRIZZLE_LEVEL] s t)) ∧
    (s.startedTens.any (fun t => s.on (Reg.TN_CFG_MODE t)) = true → v.toNat % 65536 ≠ s.get Reg.PWR_DRIZZLE_WINDOW →
      exec (.pwrDrizzleWrite .whole v) s = .next (s.logRefused 0xB08028 0 v.toNat)) ∧
    (bitAt v.toNat 63 = true → Answers (.pwrInExtremesClear v) s (fun t =>
      t.get Reg.PWR_IN_EXTREMES_VMIN = 0xFFFF ∧ t.get Reg.PWR_IN_EXTREMES_VMAX = 0 ∧ t.get Reg.PWR_IN_EXTREMES_IPEAK = 0 ∧
      KeepsRegs [Reg.PWR_IN_EXTREMES_VMIN, Reg.PWR_IN_EXTREMES_VMAX, Reg.PWR_IN_EXTREMES_IPEAK] s t)) ∧
    (bitAt v.toNat 63 = false → exec (.pwrInExtremesClear v) s = .next s) ∧
    Answers (.pwrRestartWrite .whole v) s (fun t =>
      t.get Reg.PWR_RESTART_AUTO = v.toNat % 2 ∧ t.get Reg.PWR_RESTART_HOLDOFF = v.toNat / 256 % 256 ∧ 3 ∈ t.store.recQ ∧
      KeepsRegs [Reg.PWR_RESTART_AUTO, Reg.PWR_RESTART_HOLDOFF] s t)

/-! ### Temperatures and pins -/

/-- A reading of the sensors: PWR_THERMAL and the stacks' status hold it; a critical compute die takes its units out, any other critical group
stops the module (R82, R83, R85, R350). -/
def Sys2Proof.Part.SensorsReadIntoRegisters : Prop :=
  ∀ (dies base stacks8 : List (BitVec 8)) (inlet outlet : BitVec 8) (s : State),
    s.phase ≠ .dark → s.phase ≠ .startWait → stacks8.length = 8 →
    ((s.powered = true → ∀ g ∈ thermalGroups dies base stacks8 inlet.toNat outlet.toNat, g.temp < g.crit) →
      Answers (.thermalSensorRead dies base stacks8 inlet outlet) s (fun t =>
        t.get Reg.PWR_THERMAL_TCD = (hottest (dies.take 68)).1 % 256 ∧ t.get Reg.PWR_THERMAL_TBD = (hottest base).1 % 256 ∧
        t.get Reg.PWR_THERMAL_THBM = (hottest stacks8).1 % 256 ∧ t.get Reg.PWR_THERMAL_TIN = inlet.toNat ∧
        t.get Reg.PWR_THERMAL_TOUT = outlet.toNat ∧
        ∀ k < 8, t.get (Reg.MEM_STATUS_TEMP k) = (stacks8.getD k 0).toNat ∧
          t.get (Reg.MEM_STATUS_HOT k) = b2n (decide (85 ≤ (stacks8.getD k 0).toNat)))) ∧
    (s.powered = true → s.supply.stopped = false →
      (∃ g ∈ thermalGroups dies base stacks8 inlet.toNat outlet.toNat, 4 ≤ g.bit ∧ g.crit ≤ g.temp) →
      Answers (.thermalSensorRead dies base stacks8 inlet outlet) s (fun t => t.phase = .stopping ∧ t.hbm = [])) ∧
    (∀ d < 4, s.powered = true → bitAt s.supply.tripped d = false →
      (∀ g ∈ thermalGroups dies base stacks8 inlet.toNat outlet.toNat, 4 ≤ g.bit → g.temp < g.crit) →
      (∃ g ∈ thermalGroups dies base stacks8 inlet.toNat outlet.toNat, g.bit = d ∧ g.crit ≤ g.temp) →
      Answers (.thermalSensorRead dies base stacks8 inlet outlet) s (fun t =>
        (0x10 + d) ∈ t.excluded ∧ ∀ i < 16, 0x40 + 16 * d + i ∈ t.excluded))

/-- The hardware trip opens every switched domain at once, with no completion and no notice (R84). In Start wait it is latched alone. -/
def Sys2Proof.Part.HardwareTripIsImmediate : Prop :=
  ∀ s : State,
    (s.powered = true → s.store.op = none → s.store.erase = none → s.mbx = none →
      Answers .hardwareThermalTrip s (fun t =>
        t.phase = .stopping ∧ t.pins.thermtrip = true ∧ t.boot.trip = true ∧ t.out = s.out ∧ t.hbm = [] ∧
        t.tiles = Vector.replicate 64 {} ∧ t.fuses = s.fuses ∧ t.store.cells = s.store.cells)) ∧
    (s.phase = .startWait → exec .hardwareThermalTrip s =
      .next { s with pins := { s.pins with thermtrip := true }, boot := { s.boot with trip := true } })

/-- The I3C target: a dynamic address is taken once, SETDASA names the static address 0x30 + GA, and GETSTATUS answers the stage and its
result (R71, R156). -/
def Sys2Proof.Part.I3cTargetAnswers : Prop :=
  ∀ (static address : BitVec 7) (s : State), s.phase ≠ .dark →
    (s.pins.i3c = none → static.toNat = 0x30 + s.pins.ga.toNat →
      exec (.i3cSetdasa static address) s = .next { s with pins := { s.pins with i3c := some address } }) ∧
    (s.pins.i3c = none → exec (.i3cEntdaa address) s = .next { s with pins := { s.pins with i3c := some address } }) ∧
    (s.pins.i3c.isSome = true ∨ static.toNat ≠ 0x30 + s.pins.ga.toNat → exec (.i3cSetdasa static address) s = .next s) ∧
    (s.pins.i3c.isSome = true → exec (.i3cEntdaa address) s = .next s) ∧
    (s.boot.ctrl = 0 → exec .i3cGetstatus s = .next (s.emit (.message 1 [0, BitVec.ofNat 8 s.statusByte]))) ∧
    (s.phase = .bringUp ∨ s.phase = .halted ∨ s.phase = .recovery →
      s.statusByte = 16 * s.get Reg.BRU_STATUS_STAGE + s.get (Reg.BRU_REPORT0_RESULT (s.get Reg.BRU_STATUS_STAGE))) ∧
    (s.phase = .ready ∨ s.phase = .off → s.statusByte = 0)

/-- The boundary-scan port works whenever the always-on domain is up and TRST# is high (R89, R90, R93). -/
def Sys2Proof.Part.BoundaryScanSelects : Prop :=
  ∀ (tdi trst : Bool) (pins cells : BitVec 58) (s : State),
    (s.phase ≠ .dark → exec (.tapReset trst) s = .next { s with pins := { s.pins with trst := trst, tap := {} } }) ∧
    (s.phase ≠ .dark → s.pins.trst = true →
      exec .idcode s = .next { s with out := s.out ++ [.message 3 [0xAB, 0xC5, 0x36, 0x1A]],
                                      pins := { s.pins with tap := { s.pins.tap with ir := 0x01, drive := 0 } } } ∧
      exec (.samplePreload pins cells) s =
        .next { s with out := s.out ++ [.message 3 (leBytes 8 (s.capture pins))],
                       pins := { s.pins with tap := { s.pins.tap with ir := 0x02, cells := cells, drive := 0 } } } ∧
      exec (.bypass tdi) s =
        .next { s with out := s.out ++ [.message 3 [BitVec.ofNat 8 (b2n (s.pins.tap.ir == 0xFF && s.pins.tap.bypass))]],
                       pins := { s.pins with tap := { s.pins.tap with ir := 0xFF, bypass := tdi, drive := 0 } } }) ∧
    (s.pins.trst = false → ∀ c ∈ [Instr.idcode, .samplePreload pins cells, .bypass tdi, .clamp, .highz], exec c s = .next s)

/-- In scan mode the drive instructions act; outside it each of them acts as BYPASS and the pins keep their function (R90, R91). -/
def Sys2Proof.Part.ScanModeOnlyOutsideActsAsBypass : Prop :=
  ∀ (pins cells : BitVec 58) (s : State),
    (s.inScan = true → s.pins.trst = true →
      (∀ c ∈ [(Instr.extest pins cells, 0x00, 1), (.extestPulse pins cells, 0x06, 3), (.extestTrain pins cells, 0x07, 4)],
        exec c.1 s = .next { s with out := s.out ++ [.message 3 (leBytes 8 (s.capture pins))],
                                    pins := { s.pins with tap := { s.pins.tap with ir := c.2.1, cells := cells, drive := c.2.2 } } }) ∧
      ∀ c ∈ [(Instr.clamp, 0x04, 1), (.highz, 0x05, 2)],
        exec c.1 s = .next { s with out := s.out ++ [.message 3 [0]],
                                    pins := { s.pins with tap := { s.pins.tap with ir := c.2.1, bypass := false, drive := c.2.2 } } }) ∧
    (s.inScan = false →
      ∀ c ∈ [Instr.extest pins cells, .extestPulse pins cells, .extestTrain pins cells, .clamp, .highz], exec c s = exec (.bypass false) s)

/-- PERST# and configuration requests: the first answer sets ENUMUS, a read answers what the configuration space holds, a VF answers
while VF Enable is 1 (R149, R394, R433). -/
def Sys2Proof.Part.ConfigurationRequestsAnswered : Prop :=
  ∀ (func : Fin 17) (off : BitVec 12) (v : BitVec 32) (s : State),
    exec .perstDeassert s = .next { s with
      pins := { s.pins with perst := false }
      boot := if s.pins.perst = true ∧ (s.phase = .bringUp ∨ s.phase = .ready ∨ s.phase = .halted ∨ s.phase = .recovery) then
          { s.boot with perstAt := some s.tick, enumerated := false }
        else s.boot } ∧
    (s.hostUp = false ∨ s.pins.perst = true → exec .perstAssert s = .next { s with pins := { s.pins with perst := true } }) ∧
    (s.hostUp = true → s.pins.perst = false → Answers .perstAssert s (fun t =>
      t.vfEnable = false ∧ t.get Reg.RING_IDE_SECURE = 0 ∧ t.get Reg.RING_HOST_SPEED = 0)) ∧
    (s.pcieUp = true → s.boot.enumerated = true →
      (func.val = 0 ∨ s.vfEnable = true →
        exec (.configRequest func false off v) s =
          .next (s.emit (.completion func.val (some (leBytes 4 (s.cfgRead func.val (off.toNat / 4 * 4)))))) ∧
        exec (.configRequest func true off v) s =
          .next ((s.cfgWrite func.val (off.toNat / 4 * 4) v).emit (.completion func.val (some [])))) ∧
      (func.val ≠ 0 → s.vfEnable = false → ∀ write, exec (.configRequest func write off v) s = .next (s.emit (.completion func.val none)))) ∧
    (s.pcieUp = true → s.boot.enumerated = false → (func.val = 0 ∨ s.vfEnable = true) → Answers (.configRequest func false off v) s (fun t =>
      t.boot.enumerated = true ∧ t.get Reg.BRU_TIMES_ENUMUS = s.since (s.boot.perstAt.getD s.boot.zeroAt) / 1000 % 2 ^ Reg.BRU_TIMES_ENUMUS.width))

/-! ### The weather ladder -/

/-- PWR_DOM_REQ, entering a sleep state, waking and leaving it (R97, R98, R103, R104, R109, R124, R126). -/
def Sys2Proof.Part.LadderEntersAndLeaves : Prop :=
  ∀ (dom : Fin 86) (v : Word) (s : State),
    (s.phase = .ready →
      (bitAt v.toNat 3 = false → exec (.pwrDomReq dom v) s = .next s) ∧
      (bitAt v.toNat 3 = true → s.reqRefused dom.val (v.toNat % 8) = true →
        exec (.pwrDomReq dom v) s = .next (s.logRefused (Reg.PWR_DOM_REQ_TARGET dom.val).off 0 v.toNat)) ∧
      (bitAt v.toNat 3 = true → s.reqRefused dom.val (v.toNat % 8) = false →
        (v.toNat % 8 = 0 → exec (.pwrDomReq dom v) s = exec (.domainWake dom) s) ∧
        (v.toNat % 8 = s.domState dom.val → v.toNat % 8 ≠ 0 → exec (.pwrDomReq dom v) s = .next s) ∧
        (v.toNat % 8 ≠ 0 → v.toNat % 8 ≠ s.domState dom.val → Answers (.pwrDomReq dom v) s (fun t =>
          if dom.val < 64 ∧ (v.toNat % 8 = 3 ∨ (v.toNat % 8 = 4 ∧ s.tileTen dom.val ≤ 16)) then
            t.domState dom.val = 6 ∧ (t.dom dom.val).entering = some (v.toNat % 8, s.tick)
          else t.domState dom.val = v.toNat % 8)))) ∧
    ((s.dom dom.val).lulled = true → Answers (.domainWake dom) s (fun t => t.domState dom.val = 0 ∧ (t.dom dom.val).lulled = false)) ∧
    ((s.dom dom.val).lulled = false →
      (∀ st ∈ [1, 2, 3, 4], s.domState dom.val = st → Answers (.domainWake dom) s (fun t =>
        t.domState dom.val = 6 ∧ (t.dom dom.val).entering = none ∧ (t.dom dom.val).exiting = some (s.tick,
          if dom.val < 64 ∧ st = 4 ∧ (s.tile dom.val).saved = false then 20000 else (exitTime (domKind dom.val) st).getD 0))) ∧
      (∀ at', s.domState dom.val = 6 → (s.dom dom.val).entering = some (4, at') → Answers (.domainWake dom) s (fun t =>
        (t.dom dom.val).wake = true ∧ t.regs = s.regs)) ∧
      (∀ at', s.domState dom.val = 6 → (s.dom dom.val).entering = some (3, at') → Answers (.domainWake dom) s (fun t =>
        t.domState dom.val = 6 ∧ (t.dom dom.val).entering = none ∧
        (t.dom dom.val).exiting = some (s.tick, (exitTime (domKind dom.val) 3).getD 0))) ∧
      (s.domState dom.val = 0 ∨ s.domState dom.val = 5 → exec (.domainWake dom) s = .next s)) ∧
    (∀ start a g, (s.dom dom.val).exiting = some (start, a) → (s.dom dom.val).granted = some g → s.domState dom.val = 6 → a ≤ s.since g →
      (dom.val < 64 → a = 78600 → s.recordPoisoned dom.val = false) → (dom.val < 68 ∨ 72 ≤ dom.val) →
      Answers (.domainExitDone dom) s (fun t =>
        t.domState dom.val = 0 ∧ t.get (Reg.PWR_DOM_WAKES_LASTEXIT dom.val) = min (s.since start) (2 ^ 32 - 1) ∧ (t.dom dom.val).exiting = none)) ∧
    (∀ start a g, (s.dom dom.val).exiting = some (start, a) → (s.dom dom.val).granted = some g → s.domState dom.val = 6 →
      s.exitBound dom.val a ≤ s.since g → Answers (.exitTimeout dom) s (fun t => ∀ u ∈ domUnits dom.val, u ∈ t.excluded))

/-- A tile's entries into L3 and L4 end when their transfer is done; an entry whose save fails stays in L3, and a wake that came meanwhile
starts the exit (R98, R99, R126). -/
def Sys2Proof.Part.TileSleepEntriesComplete : Prop :=
  ∀ (tile : Fin 64) (at' : Word) (s : State), (s.tile tile.val).chans.all (fun c => c.descs.isEmpty) = true →
    (s.tile tile.val).mxOps.isEmpty = true → (s.tile tile.val).vq.isEmpty = true →
    ((s.dom tile.val).entering = some (3, at') → 1000 ≤ s.since at' →
      Answers (.shadowCopyDone tile) s (fun t => t.domState tile.val = 3 ∧ t.hbm = s.hbm ∧ t.tiles = s.tiles)) ∧
    ((s.dom tile.val).entering = some (4, at') → 58600 ≤ s.since at' →
      ((s.dom tile.val).wake = false →
        Answers (.contextSaveDone tile true) s (fun t => t.domState tile.val = 4 ∧ (t.tile tile.val).saved = true ∧ (t.tile tile.val).sp = []) ∧
        Answers (.contextSaveDone tile false) s (fun t => t.domState tile.val = 3 ∧ t.hbm = s.hbm ∧ t.tiles = s.tiles)) ∧
      ((s.dom tile.val).wake = true →
        Answers (.contextSaveDone tile true) s (fun t => t.domState tile.val = 6 ∧ (t.dom tile.val).exiting = some (s.tick, 78600)) ∧
        Answers (.contextSaveDone tile false) s (fun t => t.domState tile.val = 6 ∧ (t.dom tile.val).exiting = some (s.tick, 2000))))

/-- The automatic entries: a Rime domain after 100 µs, a shared domain after 64 NCLK without traffic, a sleep wait that deepens (R106,
R108, R310). -/
def Sys2Proof.Part.IdleDomainsSleep : Prop :=
  ∀ s : State,
    (∀ die : Fin 4, s.domState (68 + die.val) = 1 → (s.rime die.val).active = none → (s.rime die.val).queue = [] →
      100000 ≤ s.since (s.dom (68 + die.val)).idleAt → s.autoMay (68 + die.val) 3 = true →
      (s.domOwner (68 + die.val) ≤ 16 → s.tnPinned (s.domOwner (68 + die.val)) = false) →
      Answers (.rimeIdleTimeout die) s (fun t => t.domState (68 + die.val) = 3)) ∧
    (∀ dom : Fin 86, (64 ≤ dom.val ∧ dom.val < 68) ∨ (72 ≤ dom.val ∧ dom.val < 84) ∨ dom.val = 85 → s.domState dom.val = 0 →
      s.domTraffic dom.val = false → 32 ≤ s.since (s.dom dom.val).idleAt → s.autoMay dom.val 1 = true →
      (dom.val = 85 → ∀ t < 17, s.tnStarted t = true → s.tnPinned t = false) →
      Answers (.fabricIdleTimeout dom) s (fun t => t.domState dom.val = 1)) ∧
    (∀ tile : Fin 64, s.run tile.val = runWait → s.get (Reg.TILE_Q_WAIT_OP tile.val) = 3 → s.tnPinned (s.tileTen tile.val) = false →
      (s.domState tile.val = 1 → s.get (Reg.TILE_Q_WAIT_DEPTH tile.val) = 2 →
        2000 ≤ s.since (BitVec.ofNat 64 (s.get (Reg.TILE_Q_WSTART_TICK tile.val))) →
        Answers (.waitDeepen tile) s (fun t => t.domState tile.val = 2)) ∧
      (s.domState tile.val = 1 ∨ s.domState tile.val = 2 → s.get (Reg.TILE_Q_WAIT_DEPTH tile.val) = 3 →
        20000 ≤ s.since (BitVec.ofNat 64 (s.get (Reg.TILE_Q_WSTART_TICK tile.val))) →
        Answers (.waitDeepen tile) s (fun t => t.domState tile.val = 6 ∧ (t.dom tile.val).entering = some (3, s.tick))))

/-- Deep Frost is left through an exit of 200 µs, after which every shared domain that is not Off runs (R121, R122). -/
def Sys2Proof.Part.DeepFrostExit : Prop :=
  ∀ s : State,
    (s.frost = .asleep → exec .deepFrostWake s = .next { s with frost := .exiting s.tick }) ∧
    (s.frost ≠ .asleep → exec .deepFrostWake s = .next s) ∧
    (∀ start, s.frost = .exiting start → 200000 ≤ s.since start → Answers .deepFrostExitDone s (fun t =>
      t.frost = .awake ∧ ∀ n, 64 ≤ n → n < 86 → (n < 68 ∨ 72 ≤ n) → s.domState n ≠ 5 → t.domState n = 0)) ∧
    (∀ start, s.frost = .exiting start → s.since start < 200000 → exec .deepFrostExitDone s = .next s)

/-- Each microsecond the manager samples the input and its domains, and the limits that were written last come into force (R56, R57, R116,
R123, R125). -/
def Sys2Proof.Part.PowerManagerSamples : Prop :=
  ∀ (vin iin pin vbank : BitVec 16) (draws : List Nat) (s : State), s.phase ≠ .dark →
    Answers (.powerManagerTick vin iin pin vbank draws) s (fun t =>
      t.get Reg.PWR_IN_SAMPLE_VIN = vin.toNat ∧ t.get Reg.PWR_IN_SAMPLE_IIN = iin.toNat ∧ t.get Reg.PWR_IN_SAMPLE_PIN = pin.toNat ∧
      t.get Reg.PWR_BANK_VBANK = vbank.toNat ∧
      t.get Reg.PWR_IN_EXTREMES_VMIN = min (s.get Reg.PWR_IN_EXTREMES_VMIN) vin.toNat % 65536 ∧
      t.get Reg.PWR_IN_EXTREMES_VMAX = max (s.get Reg.PWR_IN_EXTREMES_VMAX) vin.toNat % 65536 ∧
      t.supply.slewNow = s.get Reg.PWR_SLEW_LIMIT ∧ t.supply.capNow = s.get Reg.PWR_BUDGET_MODCAP ∧
      t.supply.reserveNow = s.get Reg.PWR_BUDGET_RESERVE ∧ t.phase = s.phase ∧ t.hbm = s.hbm ∧ t.tiles = s.tiles)

/-- Writes of the budget registers: checked whole, refused and logged, or taken (R23, R113, R119, R125, R577). -/
def Sys2Proof.Part.BudgetWritesChecked : Prop :=
  ∀ (part : Part) (v : Word) (t : Fin 17) (s : State), s.phase = .ready →
    (s.budgetRefused (partOf (s.wordOf budgetFields) part v) = true →
      exec (.pwrBudgetWrite part v) s = .next (s.logRefused 0xB08050 0 v.toNat)) ∧
    (s.budgetRefused (partOf (s.wordOf budgetFields) part v) = false → Answers (.pwrBudgetWrite part v) s (fun z =>
      z.get Reg.PWR_BUDGET_MODCAP = partOf (s.wordOf budgetFields) part v % 65536 ∧
      z.get Reg.PWR_BUDGET_RESERVE = partOf (s.wordOf budgetFields) part v / 65536 % 65536 ∧
      z.get Reg.PWR_BUDGET_XLEND = partOf (s.wordOf budgetFields) part v / 2 ^ 32 % 2 ∧
      z.get Reg.PWR_BUDGET_BURST_EN = partOf (s.wordOf budgetFields) part v / 2 ^ 33 % 2 ∧
      KeepsRegs budgetFields s z ∧ z.supply = s.supply)) ∧
    (v.toNat % 65536 ≠ s.get Reg.PWR_BUDGET_MODCAP → v.toNat % 65536 < 300 → s.budgetRefused v.toNat = true) ∧
    (s.tnStarted t.val = true → v.toNat % 65536 ≠ s.get (Reg.PWR_TNCAP_CAP t.val) →
      exec (.pwrTncapWrite t .whole v) s = .next (s.logRefused (0xB08100 + 8 * t.val) 0 v.toNat)) ∧
    (s.tnStarted t.val = false → v.toNat % 65536 = s.get (Reg.PWR_TNCAP_CAP t.val) ∨
        s.get Reg.PWR_BUDGET_STATUS_ASSIGNED - s.get (Reg.PWR_TNCAP_CAP t.val) + v.toNat % 65536 + s.get Reg.PWR_BUDGET_RESERVE ≤
          s.get Reg.PWR_BUDGET_MODCAP →
      Answers (.pwrTncapWrite t .whole v) s (fun z =>
        z.get (Reg.PWR_TNCAP_CAP t.val) = v.toNat % 65536 ∧ z.get (Reg.PWR_TNCAP_MAXSTEP t.val) = v.toNat / 65536 % 4))

/-! ### Bring-up -/

/-- From Start wait to stage 0 (R36, R61, R94, R392). That HOLDOFF counts from the beginning of Start wait is the model's choice. -/
def Obligations.StartReachesStageZero : Prop :=
  ∀ (ga : BitVec 3) (scanEn : Bool) (vin held vbank : BitVec 16) (inlet hot : BitVec 8) (s : State),
    (s.phase = .startWait → 4200 ≤ vin.toNat → 20 ≤ held.toNat → 100000000 * s.get Reg.PWR_RESTART_HOLDOFF ≤ s.since s.boot.startWaitAt →
      (s.boot.afterStop = false ∨ s.on Reg.PWR_RESTART_AUTO = true ∨ s.boot.asked = true →
        Answers (.startWaitExit ga scanEn vin held) s (fun t =>
          t.phase = .charging ∧ t.pins.ga = ga ∧ t.pins.scanEn = scanEn ∧ t.pins.thermtrip = false ∧ t.get Reg.PWR_IN_STATUS_BAND = 1 ∧
          t.supply.stopped = false)) ∧
      (s.boot.afterStop = true → s.on Reg.PWR_RESTART_AUTO = false → s.boot.asked = false →
        exec (.startWaitExit ga scanEn vin held) s = .next s)) ∧
    (s.phase = .charging → vin.toNat ≤ vbank.toNat + 100 → vbank.toNat ≤ vin.toNat + 100 → Answers (.bankCharged vbank vin) s (fun t =>
      t.phase = .thermalWait ∧ t.get Reg.PWR_BANK_VBANK = vbank.toNat ∧ t.boot.waitAt = s.tick)) ∧
    (s.phase = .thermalWait →
      (inlet.toNat < 50 ∨ (inlet.toNat = 50 ∧ s.boot.hotWait = false)) → (hot.toNat < 90 ∨ (hot.toNat = 90 ∧ s.boot.hotWait = false)) →
      Answers (.thermalWaitEnd inlet hot) s (fun t =>
        t.phase = .bringUp ∧ t.tick = 0 ∧ t.get Reg.BRU_STATUS_STAGE = 0 ∧ t.get Reg.BRU_STATUS_RUNNING = 1 ∧ t.boot.inlet = inlet.toNat)) ∧
    (s.phase = .thermalWait → 50 < inlet.toNat ∨ 90 < hot.toNat →
      exec (.thermalWaitEnd inlet hot) s = .next { s with boot := { s.boot with hotWait := true } })

/-- Stage 1 sets ID_VARIANT from the fuses (R138). -/
def Obligations.StageOneSetsVariant : Prop :=
  ∀ s : State, s.atStage 1 = true → s.fusesOk = true → s.boot.offAsked = false →
    Answers (.bringupStage1 true true true []) s (fun t =>
      t.get Reg.ID_VARIANT_TILES = 64 - popCount 64 (s.fuse 1) ∧ t.get Reg.ID_VARIANT_STACKS = 8 - popCount 8 (s.fuse 2) ∧
      t.get Reg.ID_VARIANT_LINKS = 64 - popCount 64 (s.fuse 3) ∧
      (s.fuse 0 % 256 = 0x40 ∨ s.fuse 0 % 256 = 0x38 → t.get Reg.ID_VARIANT_MAXDOMAIN = 64) ∧
      (s.fuse 0 % 256 = 0x30 → t.get Reg.ID_VARIANT_MAXDOMAIN = 32))

/-- FORCECOLD is cleared when a start reaches Ready whose stages all took the cold path, and stays otherwise (R146). -/
def Obligations.ForceColdCleared : Prop :=
  ∀ s : State, s.atStage 9 = true → s.boot.offAsked = false →
    ((∀ n, 5 ≤ n → n ≤ 8 → s.get (Reg.BRU_REPORT0_PATH n) = 1) → s.get Reg.BRU_CTL_FORCECOLD ≤ 1 → Answers .bringupStage9 s (fun t =>
      t.phase = .ready ∧ t.get Reg.BRU_CTL_FORCECOLD = 0)) ∧
    (∀ n, 5 ≤ n → n ≤ 8 → s.get (Reg.BRU_REPORT0_PATH n) ≠ 1 → Answers .bringupStage9 s (fun t =>
      t.phase = .ready ∧ t.get Reg.BRU_CTL_FORCECOLD = s.get Reg.BRU_CTL_FORCECOLD))

/-- A stage whose checks pass writes its report with PASS and the next one begins; the last one reaches Ready (R131, R132, R155). -/
def Obligations.StagesPassInOrder : Prop :=
  ∀ (vin cap : BitVec 16) (inlet hot : BitVec 8) (us : BitVec 32) (tests : List StackTest) (s : State), s.boot.offAsked = false → s.pins.scanEn = false →
    (s.atStage 0 = true → 100 ≤ cap.toNat → Answers (.bringupStage0 vin cap true true [] inlet hot) s (fun t =>
      t.get Reg.BRU_STATUS_STAGE = 1 ∧ t.get (Reg.BRU_REPORT0_RESULT 0) = 1 ∧ t.get Reg.PWR_BANK_CAP = cap.toNat ∧
      t.get Reg.PWR_BANK_LOW = b2n (decide (cap.toNat < 243)))) ∧
    (s.atStage 1 = true → s.fusesOk = true → Answers (.bringupStage1 true true true []) s (fun t =>
      t.get Reg.BRU_STATUS_STAGE = 2 ∧ t.get (Reg.BRU_REPORT0_RESULT 1) = 1)) ∧
    (s.atStage 2 = true → Answers (.bringupStage2 true us) s (fun t =>
      t.get Reg.BRU_STATUS_STAGE = 3 ∧ t.get (Reg.BRU_REPORT0_RESULT 2) = 1)) ∧
    (∀ u : State, s.atStage 3 = true → s.get Reg.CS_BOOT_TRIAL = 0 → s.frost = .awake →
      u = (if s.store.reverted = true then (s.modStore (fun t => { t with reverted := false })).record 1 else s) → Answers .bringupStage3 s (fun t =>
      if (u.imageVerdict (s.get Reg.CS_BOOT_ACTIVE)).2.2 = stOK
      then t.get Reg.BRU_STATUS_STAGE = 4 ∧ t.get (Reg.BRU_REPORT0_RESULT 3) = 1 ∧ t.phase = .bringUp
      else (t.get Reg.BRU_STATUS_STAGE = 4 ∧ t.phase = .bringUp) ∨ (t.phase = .recovery ∧ t.pins.alert = true))) ∧
    (s.atStage 4 = true → Answers (.bringupStage4 []) s (fun t =>
      t.get Reg.BRU_STATUS_STAGE = 5 ∧ t.get (Reg.BRU_REPORT0_RESULT 4) = 1 ∧ (∀ d < 4, t.railGoal d = 850) ∧
      ∀ i, 3 ≤ i → i ≤ 11 → t.railAtRest i = (railTable.getD i (0, 0)).1)) ∧
    (s.atStage 5 = true → (∀ k ∈ s.stackList, ((tests[k]?).getD ⟨0, false, false, 0⟩).ok = true) → Answers (.bringupStage5 tests) s (fun t =>
      t.get Reg.BRU_STATUS_STAGE = 6 ∧ t.get (Reg.BRU_REPORT0_RESULT 5) = 1 ∧ t.hbm = [] ∧ t.poison = [])) ∧
    (s.atStage 6 = true → s.get Reg.ID_TILEMAP_MAP ≠ 0 → s.supply.tripped = 0 → ∃ u : State, u.get Reg.BRU_STATUS_STAGE = 7 ∧ u.get (Reg.BRU_REPORT0_RESULT 6) = 1 ∧
      u.phase = .bringUp ∧ exec (.bringupStage6 [] [] []) s =
        .next ((List.range 64).foldl (fun s j => s.linkSettle j) ((List.range 4).foldl (fun s b => s.raiseDomain (80 + b)) (u.raiseRails [12])))) ∧
    (s.atStage 7 = true → Answers (.bringupStage7 []) s (fun t =>
      t.get Reg.BRU_STATUS_STAGE = 8 ∧ t.get (Reg.BRU_REPORT0_RESULT 7) = 1)) ∧
    (s.atStage 8 = true → s.tnState 0 = 0 → Answers (.bringupStage8 true) s (fun t =>
      t.get Reg.BRU_STATUS_STAGE = 9 ∧ t.get (Reg.BRU_REPORT0_RESULT 8) = 1 ∧ t.tnState 0 = 1 ∧ t.get (Reg.TN_STATE_DEBUG 0) = 2)) ∧
    (s.atStage 9 = true → Answers .bringupStage9 s (fun t =>
      t.phase = .ready ∧ t.get Reg.BRU_STATUS_READY = 1 ∧ t.get Reg.BRU_STATUS_RUNNING = 0))

/-- A stage whose critical check fails halts with ALERT#; in stage 3 that is the recovery hold (R152, R153, R156). -/
def Sys2Proof.Part.FailedStageHalts : Prop :=
  ∀ (r : Fin 16) (w : Fin 64) (us : BitVec 32) (vin cap : BitVec 16) (inlet hot : BitVec 8) (s : State), s.frost = .awake → s.boot.offAsked = false →
    (s.atStage 0 = true → Answers (.bringupStage0 vin cap false true [] inlet hot) s (fun t => t.phase = .halted ∧ t.pins.alert = true)) ∧
    (s.atStage 0 = true → cap.toNat < 100 → Answers (.bringupStage0 vin cap true true [] inlet hot) s (fun t =>
      t.phase = .halted ∧ t.pins.alert = true)) ∧
    (s.atStage 1 = true → Answers (.bringupStage1 false true true []) s (fun t =>
      t.phase = .halted ∧ t.pins.alert = true ∧ t.get Reg.BRU_STATUS_HALTED = 1 ∧ t.get Reg.BRU_STATUS_FAILSTAGE = 1 ∧
      t.get Reg.BRU_STATUS_FAILDETAIL = 0x0900)) ∧
    (s.atStage 1 = true → Answers (.bringupStage1 true true true [w]) s (fun t => t.phase = .halted ∧ t.pins.alert = true)) ∧
    (s.atStage 2 = true → Answers (.bringupStage2 false us) s (fun t => t.phase = .halted ∧ t.pins.alert = true)) ∧
    (s.atStage 4 = true → Answers (.bringupStage4 [r]) s (fun t => t.phase = .halted ∧ t.pins.alert = true)) ∧
    (s.atStage 8 = true → Answers (.bringupStage8 false) s (fun t => t.phase = .halted ∧ t.pins.alert = true)) ∧
    ∀ (n path status det : Nat) (words : List Nat), (s.halt n path status det words).phase = if n = 3 then .recovery else .halted

/-- The registers and records of the bring-up block (R141, R142, R144, R145, R146, R548). -/
def Sys2Proof.Part.BringUpRecordsKept : Prop :=
  ∀ (v : Word) (s : State),
    (s.phase = .ready → v.toNat % 4 = 2 + s.get Reg.BRU_CTL_FORCECOLD → exec (.bruDiscard v) s = .next s.discardRecords) ∧
    (s.phase = .ready → v.toNat % 4 = 1 → s.get Reg.BRU_CTL_FORCECOLD = 0 → Answers (.bruForcecoldWrite .whole v) s (fun t =>
      t.get Reg.BRU_CTL_FORCECOLD = 1 ∧ 3 ∈ t.store.recQ ∧ KeepsRegs [Reg.BRU_CTL_FORCECOLD] s t)) ∧
    (s.phase = .ready → s.get Reg.BRU_RETIRED_L_LINKS &&& v.toNat ≠ 0 → Answers (.retirementUndo true .whole v) s (fun t =>
      t.get Reg.BRU_RETIRED_L_LINKS =
        (s.get Reg.BRU_RETIRED_L_LINKS - maskOf (bitList 64 (s.get Reg.BRU_RETIRED_L_LINKS &&& v.toNat))) % 2 ^ 64 ∧
      4 ∈ t.store.recQ ∧ t.get Reg.ID_LINKMAP_MAP = s.get Reg.ID_LINKMAP_MAP)) ∧
    (s.phase = .ready → s.get Reg.BRU_RETIRED_T_TILES &&& v.toNat ≠ 0 → Answers (.retirementUndo false .whole v) s (fun t =>
      t.get Reg.BRU_RETIRED_T_TILES =
        (s.get Reg.BRU_RETIRED_T_TILES - maskOf (bitList 64 (s.get Reg.BRU_RETIRED_T_TILES &&& v.toNat))) % 2 ^ 64 ∧
      4 ∈ t.store.recQ ∧ t.get Reg.ID_TILEMAP_MAP = s.get Reg.ID_TILEMAP_MAP ∧
      ∀ i < 64, bitAt (s.get Reg.BRU_RETIRED_T_TILES &&& v.toNat) i = true → 0x40 + i ∉ t.boot.lastExcluded)) ∧
    (s.retiring ≠ [] → s.store.busy = false → Answers .retirementRecordWrite s (fun t =>
      t.retiring = [] ∧ t.get Reg.BRU_RETIRED_T_TILES = (s.get Reg.BRU_RETIRED_T_TILES |||
        maskOf ((s.retiring.filter (fun u => 0x40 ≤ u && u < 0x80)).map (· - 0x40))) % 2 ^ 64)) ∧
    (∀ k ks, s.store.recQ = k :: ks → s.phase ≠ .dark → s.store.busy = false → Answers .unitRecordWrite s (fun t =>
      k ∉ t.store.recQ ∧ t.regs = s.regs ∧ t.hbm = s.hbm)) ∧
    (∀ (item : Fin 72) (device : Word) (body : List Byte), s.phase = .ready → s.store.busy = false → s.boot.cold.contains item.val = true →
      Answers (.trainingRecordWrite item device body) s (fun t => t.boot.cold = s.boot.cold.filter (· != item.val) ∧ t.regs = s.regs))

/-- A link trains, qualifies direction by direction, and begins again cold after a failure; the third failure takes it out of service for the
start (R134, R144, R147, R148). -/
def Obligations.LinksTrainAndQualify : Prop :=
  ∀ (link : Fin 64) (serial : Word) (rx laneOrder verified : Bool) (flight lambda : BitVec 16) (s : State),
    (s.linkState link.val = lnkTrain → (s.link link.val).light = false → exec (.linkLightDetect link serial) s =
      .next (s.modLink link.val (fun l => { l with
        light := true, trainStart := s.tick, cold := s.trainsCold link.val serial.toNat, farSerial := serial.toNat }))) ∧
    (s.linkState link.val = lnkTrain → (s.link link.val).light = true → s.since (s.link link.val).trainStart ≤ trainBound (s.link link.val).cold →
      ((s.link link.val).cold = true ∨ s.trainedNow (8 + link.val) = true ∨
          (verified = true ∧ leAt (s.trainHeader (8 + link.val)) 19 1 % 2 = b2n laneOrder) →
        ((s.link link.val).txTrained = true → Answers (.linkTrainDone link true laneOrder verified flight lambda) s (fun t =>
          t.linkState link.val = lnkQualify ∧ t.get (Reg.LNK_TIME_FLIGHT link.val) = flight.toNat ∧
          t.get (Reg.LNK_TIME_LAMBDA link.val) = lambda.toNat ∧ (t.link link.val).rxTrained = true)) ∧
        ((s.link link.val).txTrained = false → Answers (.linkTrainDone link true laneOrder verified flight lambda) s (fun t =>
          t.linkState link.val = lnkTrain ∧ (t.link link.val).rxTrained = true ∧ (t.link link.val).qualStart = s.tick)) ∧
        ((s.link link.val).rxTrained = true → Answers (.linkTrainDone link false laneOrder verified flight lambda) s (fun t =>
          t.linkState link.val = lnkQualify ∧ (t.link link.val).txTrained = true))) ∧
      ((s.link link.val).cold = false → s.trainedNow (8 + link.val) = false → verified = false →
        exec (.linkTrainDone link rx laneOrder verified flight lambda) s = .next (s.modLink link.val (fun l => { l with
          cold := true, trainStart := s.tick, rxTrained := false, txTrained := false })))) ∧
    (s.linkState link.val = lnkTrain → (s.link link.val).light = true → trainBound (s.link link.val).cold < s.since (s.link link.val).trainStart →
      (s.get (Reg.LNK_QUAL_FAILED link.val) < 2 → exec (.linkTrainTimeout link) s =
        .next ((s.bump (Reg.LNK_QUAL_FAILED link.val) 1).modLink link.val (fun l => { l with cold := true, trainStart := s.tick }))) ∧
      (s.get (Reg.LNK_QUAL_FAILED link.val) = 2 → Answers (.linkTrainTimeout link) s (fun t => t.linkState link.val = lnkDisabled))) ∧
    (s.inWindow link.val = true → 3125000000 ≤ s.since (s.link link.val).qualStart →
      exec (.linkQualWindowEnd link) s = .next (((s.set (Reg.LNK_QUAL_RXQUAL link.val) 1).queueWord link.val 1 0
        ((s.set (Reg.LNK_QUAL_RXQUAL link.val) 1).qualBody link.val)).qualified link.val) ∧
      (s.linkState link.val = lnkTrain → Answers (.linkQualWindowEnd link) s (fun t =>
        t.get (Reg.LNK_QUAL_RXQUAL link.val) = 1 ∧ t.linkState link.val = lnkTrain))) ∧
    (s.inWindow link.val = true →
      (s.get (Reg.LNK_QUAL_FAILED link.val) < 2 → Answers (.linkQualError link) s (fun t =>
        t.linkState link.val = lnkTrain ∧ t.get (Reg.LNK_QUAL_FAILED link.val) = s.get (Reg.LNK_QUAL_FAILED link.val) + 1 ∧
        (t.link link.val).rxTrained = false)) ∧
      (s.get (Reg.LNK_QUAL_FAILED link.val) = 2 → Answers (.linkQualError link) s (fun t => t.linkState link.val = lnkDisabled)))

/-! ### Tiles -/

/-- The tile stands at the bundle `b` at BA, alone, with nothing that holds its issue back. -/
def Sys2Proof.StandsAt (g : Nat) (b : List Byte) (s : State) : Prop :=
  s.pairOf g = none ∧ s.canIssue g = true ∧ s.atBreakpoint g = false ∧ (s.tile g).pastEnd = false ∧ (s.tile g).wait = {} ∧
  s.fetched g = b ∧ (s.tile g).interlocked b = false

/-- A bundle that nothing holds back issues with all its effects; one whose first faulting slot is none of Q and B faults; one whose queue
operation is not satisfied begins its wait; one that stalls changes nothing (R162, R163, R175, R185). -/
def Sys2Proof.Part.BundleIssues : Prop :=
  ∀ (tile : Fin 64) (dep mem other : Nat) (b : List Byte) (s : State),
    (StandsAt tile.val b s →
      ((s.bundleFault tile.val TileEcc.clean b).isNone = true → (∀ i < 8, s.slotStall tile.val b i = false) →
        (s.qGate tile.val b = .go none → exec (.bundleIssue tile dep mem other TileEcc.clean) s =
          .next ((s.bundleEffects tile.val dep mem other b none).afterIssue tile.val ((s.tile tile.val).slotOn (slotWord b 7)) b .none)) ∧
        (∀ v, s.qGate tile.val b = .go (some v) → exec (.bundleIssue tile dep mem other TileEcc.clean) s =
          .next (((s.modTile tile.val (fun t => t.setLq (qQueue (slotWord b 6))
            { t.queue (qQueue (slotWord b 6)) with value := BitVec.ofNat 24 v })).bundleEffects tile.val dep mem other b (some v)).afterIssue tile.val
              ((s.tile tile.val).slotOn (slotWord b 7)) b .none)) ∧
        (∀ u, s.qGate tile.val b = .held u → exec (.bundleIssue tile dep mem other TileEcc.clean) s = .next u)) ∧
      (∀ i code status addr, s.bundleFault tile.val TileEcc.clean b = some (i, code, status, addr) → i < 6 →
        (∀ k < i, s.slotStall tile.val b k = false) → exec (.bundleIssue tile dep mem other TileEcc.clean) s =
          .next (s.raiseExc tile.val code status i addr)) ∧
      ((s.bundleFault tile.val TileEcc.clean b).isNone = true → (∃ i < 8, s.slotStall tile.val b i = true) →
        exec (.bundleIssue tile dep mem other TileEcc.clean) s = .next s)) ∧
    (s.pairOf tile.val = none → s.canIssue tile.val = false → exec (.bundleIssue tile dep mem other TileEcc.clean) s = .next s)

/-- Every core register result of a bundle is computed from the registers as they were before it (R162). -/
def Obligations.BundleReadsBeforeItWrites : Prop :=
  ∀ (g dep mem other : Nat) (b : List Byte) (s : State), g < 64 →
    let t := s.tile g
    let cyc := t.cycle + BitVec.ofNat 64 (dep + mem + other)
    let r := (t.results s.free (s.get (Reg.TILE_MX_CFG_ACC g)) s.tick cyc g (s.get (Reg.TILE_STATE_BA g)) b).foldl RegWrite.apply t
    let u := (s.bundleEffects g dep mem other b none).tile g
    u.g = r.g ∧ u.a = r.a ∧ u.p = r.p ∧ u.cycle = cyc + 1

/-- A synchronous exception is precise: the faulting bundle writes no core register, and the fault record names it (R185). -/
def Obligations.FaultingBundleHasNoEffect : Prop :=
  ∀ (tile : Fin 64) (slot code status addr : Nat) (s : State), slot < 8 →
    let t := s.raiseExc tile.val code status slot addr
    (t.tile tile.val).g = (s.tile tile.val).g ∧ (t.tile tile.val).a = (s.tile tile.val).a ∧ (t.tile tile.val).p = (s.tile tile.val).p ∧
    (s.launchOf tile.val = none →
      t.run tile.val = runFaulted ∧ t.get (Reg.TILE_FAULT_INFO_CODE tile.val) = code % 256 ∧ t.get (Reg.TILE_FAULT_INFO_SLOT tile.val) = slot ∧
      t.get (Reg.TILE_FAULT_INFO_BA tile.val) = s.get (Reg.TILE_STATE_BA tile.val) % 2048 ∧ t.get (Reg.TILE_FAULT_INFO_VALID tile.val) = 1)

/-- The store buffer drains its head: exactly the bytes that its mask names change. A partial drain that finds an uncorrectable error drops the
entry and raises the asynchronous exception (R179, R181). -/
def Sys2Proof.Part.StoreBufferDrainsHead : Prop :=
  ∀ (tile : Fin 64) (e : SbEntry) (l : List SbEntry) (s : State), s.domState tile.val = 0 → (s.tile tile.val).sb = e :: l →
    (∀ c ∈ [Instr.storeBufferDrain tile .clean, .corePortRescue tile .clean],
      exec c s = .next (((s.modTile tile.val (fun t => { t.drainEntry e with sb := l })).headDrained tile.val).syncSb tile.val)) ∧
    (e.mask = 0xFF → ∀ x, exec (.storeBufferDrain tile x) s = exec (.storeBufferDrain tile .clean) s ∧
      exec (.corePortRescue tile x) s = exec (.corePortRescue tile .clean) s) ∧
    (e.mask ≠ 0xFF → ∀ c ∈ [Instr.storeBufferDrain tile .uncorrectable, .corePortRescue tile .uncorrectable],
      exec c s = .next (((((s.modTile tile.val (fun t => { t with sb := l })).headDrained tile.val).syncSb tile.val).spUncorrected tile.val
        (8 * e.word)).raiseExc tile.val 0x22 stUncorrected 0xF (8 * e.word))) ∧
    ∀ a, spGet ramByte ((s.tile tile.val).drainEntry e).sp a =
      if a / 8 = e.word ∧ e.mask.getLsbD (a % 8) = true then (leBytes 8 e.data.toNat).getD (a % 8) 0 else spGet ramByte (s.tile tile.val).sp a

/-- A halt completes, and a LAUNCH's tile is loaded, started and driven by its load marks (R189, R191, R192, R197, R339, R418, R420). -/
def Sys2Proof.Part.TileStartsAndHalts : Prop :=
  ∀ (tile : Fin 64) (s : State),
    (s.haltDone tile.val = true → Answers (.haltComplete tile) s (fun t =>
      t.run tile.val = runHalted ∧ (t.tile tile.val) = { s.tile tile.val with halting := false } ∧ KeepsRegs [Reg.TILE_STATE_RUN tile.val] s t)) ∧
    (s.haltDone tile.val = false → exec (.haltComplete tile) s = .next s) ∧
    (∀ a entry n, (s.tile tile.val).loading = some (a, entry, n, 1) → s.domState tile.val = 0 →
      ((wordsOf a (64 * n)).any s.poisoned = false → (wordsOf (a + 131072) 384).any s.poisoned = false →
        (∀ f r c, s.launchOf tile.val = some (f, r, c) → c.sched = false →
          exec (.istoreLoadDone tile) s = .next ((s.loadTile tile.val a n).startTile tile.val)) ∧
        (∀ f r c, s.launchOf tile.val = some (f, r, c) → c.sched = true → exec (.istoreLoadDone tile) s =
          .next ((s.loadTile tile.val a n).modTile tile.val (fun t => { t with loading := some (a, entry, n, 2) }))) ∧
        (s.launchOf tile.val = none → exec (.istoreLoadDone tile) s = .next (s.loadTile tile.val a n))) ∧
      ((wordsOf a (64 * n)).any s.poisoned = true →
        exec (.istoreLoadDone tile) s = .next (s.raiseExc tile.val 0x20 stUncorrected 0xF a))) ∧
    (∀ u : State, (u.get (Reg.TILE_DBG_CTL_LHALT tile.val) = 0 ∨ u.tilePinned tile.val = true →
        (u.startTile tile.val).run tile.val = runRunning ∧ ((u.startTile tile.val).tile tile.val).loading = none) ∧
      (u.get (Reg.TILE_DBG_CTL_LHALT tile.val) ≠ 0 → u.tilePinned tile.val = false → (u.startTile tile.val).run tile.val = runDebug)) ∧
    (∀ f r c m, s.launchOf tile.val = some (f, r, c) → c.marks.find? (fun m => m.1 == tile.val) = some m → m.2.1 ≤ (s.tile tile.val).cycle.toNat →
      (s.tile tile.val).loading = none → Answers (.loadMark tile) s (fun t => ∀ q < 4,
        ((t.tile tile.val).panel q).ramp = some (m.2.2, s.tick, rampNs (300 * ((m.2.2 - ((s.tile tile.val).panel 0).levelAt s.tick) +
          (((s.tile tile.val).panel 0).levelAt s.tick - m.2.2)) / 16) (s.shareRate f)) ∧
        ((t.tile tile.val).panel q).banks = ((s.tile tile.val).panel q).banks)) ∧
    (∀ panel : Fin 4, ((s.tile tile.val).panel panel.val).drizzleLeft ≠ 0 → Answers (.drizzleWindowEnd tile panel) s (fun t =>
      ((t.tile tile.val).panel panel.val) = { (s.tile tile.val).panel panel.val with drizzleLeft := 0 } ∧ t.regs = s.regs ∧
      t.supply.grants = s.supply.grants ++ [(s.domShare tile.val, .drizzle tile.val panel.val,
        drizzleQuantum ((s.tile tile.val).panel panel.val).drizzle)]))

/-- The provider's debug functions under the permission of the tile's tenancy (R190 to R193, R310). -/
def Sys2Proof.Part.DebugFunctionsAct : Prop :=
  ∀ (tile : Fin 64) (v : Word) (s : State), s.phase = .ready → s.tileMapped tile.val = true → s.providerDebug tile.val = true →
    (s.tilePinned tile.val = false →
      (s.run tile.val = runRunning → s.domState tile.val = 0 → (s.tile tile.val).halting = false → s.inTake tile.val = false →
        Answers (.tileDbgHalt tile) s (fun t => t.run tile.val = runDebug ∧ t.hbm = s.hbm ∧ (t.tile tile.val).g = (s.tile tile.val).g)) ∧
      (s.run tile.val = runWait → s.domState tile.val = 0 → (s.tile tile.val).wait.phase ≠ .pooled →
        Answers (.tileDbgHalt tile) s (fun t => t.run tile.val = runDebug ∧ (t.tile tile.val).wait = {})) ∧
      (s.run tile.val = runWait → s.domState tile.val = 0 → (s.tile tile.val).wait.phase = .pooled → (s.tile tile.val).wait.after = .none →
        Answers (.tileDbgHalt tile) s (fun t => t.run tile.val = runWait ∧ (t.tile tile.val).wait.after = .debugHalt)) ∧
      (s.run tile.val = runWait → s.domState tile.val ≠ 0 →
        exec (.tileDbgHalt tile) s = .next ((s.modTile tile.val (fun t => { t with debugPending := true })).wakeDomain tile.val)) ∧
      (s.run tile.val = runDebug →
        Answers (.tileDbgStep tile) s (fun t => t.run tile.val = runRunning ∧ (t.tile tile.val).stepping = true))) ∧
    (s.tilePinned tile.val = true → exec (.tileDbgHalt tile) s = .next (s.logRefused (0x400018 + 0x10000 * tile.val) 0 1) ∧
      exec (.tileDbgStep tile) s = .next (s.logRefused (0x400018 + 0x10000 * tile.val) 0 4)) ∧
    (s.run tile.val = runDebug →
      Answers (.tileDbgResume tile) s (fun t => t.run tile.val = runRunning ∧ (t.tile tile.val).stepping = false)) ∧
    (s.debugReadable tile.val = true → s.get (Reg.TILE_DBG_SEL_AUTOINC tile.val) = 0 →
      exec (.tileDbgDataAccess tile false .whole v) s = .next (s.emit (.completion 0 (some (leBytes 8 (s.debugWord tile.val
        (s.get (Reg.TILE_DBG_SEL_SPACE tile.val)) (8 * s.get (Reg.TILE_DBG_SEL_OFFSET tile.val))))))) ∧
      exec (.tileDbgDataAccess tile true .whole v) s = .next (s.writeDebug tile.val (s.get (Reg.TILE_DBG_SEL_SPACE tile.val))
        (8 * s.get (Reg.TILE_DBG_SEL_OFFSET tile.val)) v.toNat)) ∧
    (s.debugReadable tile.val = true → s.get (Reg.TILE_DBG_SEL_AUTOINC tile.val) = 1 →
      exec (.tileDbgDataAccess tile false .whole v) s = .next ((s.emit (.completion 0 (some (leBytes 8 (s.debugWord tile.val
        (s.get (Reg.TILE_DBG_SEL_SPACE tile.val)) (8 * s.get (Reg.TILE_DBG_SEL_OFFSET tile.val))))))).wrapAdd
          (Reg.TILE_DBG_SEL_OFFSET tile.val) 1)) ∧
    (s.debugReadable tile.val = false →
      exec (.tileDbgDataAccess tile true .whole v) s = .next (s.logRefused (0x400030 + 0x10000 * tile.val) 0 v.toNat) ∧
      exec (.tileDbgDataAccess tile false .whole v) s = .next (s.emit (.completion 0 (some (leBytes 8 0)))))

/-- The state in which an operation that draws full rate runs: at the rate it was granted, the automatic drizzle of its panels over. -/
def Sys2Proof.AtRate (g : Nat) (ps : List Nat) (s : State) : State := ps.foldl (fun s p => s.drizzleYields g p) (s.rateUp g).2

/-- The matrix engine runs the operation at the head of a panel's queue, and the operation leaves it; a pass waits for the grant of the rise to
full rate (R54, R201, R204, R210, R220, R235, R237, R243). -/
def Sys2Proof.Part.MatrixOperationsRun : Prop :=
  ∀ (tile : Fin 64) (panel : Fin 4) (o : MxOp) (tclk a : Nat) (s : State),
    (s.mxHead tile.val panel.val 2 = some o → ∀ err ∈ [EngErr.none, .corrected a], Answers (.mloadRun tile panel err) s (fun t =>
      ∀ q ∈ o.loadPanels, q < 4 →
        ((t.tile tile.val).panel q).loaded = true ∧ ((t.tile tile.val).panel q).stat = ((o.load s.free (s.tile tile.val)).panel q).stat ∧
        ∀ x ∈ ((t.tile tile.val).panel q).queue, x.seq ≠ o.seq)) ∧
    (s.mxHead tile.val panel.val 3 = some o → (s.rateUp tile.val).1 = true →
      let u := AtRate tile.val (cPanels o.cfg panel.val) s
      let r := o.passTo u.free [] (if cCube o.cfg then xKsteps o.desc1 else xRows o.desc1) (u.tile tile.val)
      r.first = none → ∀ err ∈ [EngErr.none, .corrected a], Answers (.mmulRun tile panel err [] tclk) s (fun t => ∀ q < 4,
        ((t.tile tile.val).panel q).banks = (r.t.panel q).banks ∧ ∀ x ∈ ((t.tile tile.val).panel q).queue, x.seq ≠ o.seq)) ∧
    (s.mxReadHead tile.val panel.val 4 = some o → Answers (.mreadRun tile panel .none) s (fun t =>
      (t.tile tile.val).sp = (((o.outTo s.free 64 (s.tile tile.val)).1).blurSpills (s.free + 0x1000000) o).sp ∧
      ∀ q < 4, ∀ x ∈ ((t.tile tile.val).panel q).readq, x.seq ≠ o.seq)) ∧
    (s.mxReadHead tile.val panel.val 5 = some o → Answers (.mspillRun tile panel .none) s (fun t =>
      (t.tile tile.val).sp = (((o.outTo s.free 64 (s.tile tile.val)).1).blurSpills (s.free + 0x1000000) o).sp ∧
      ∀ q < 4, ∀ x ∈ ((t.tile tile.val).panel q).readq, x.seq ≠ o.seq)) ∧
    (s.mxHead tile.val panel.val 6 = some o → (s.rateUp tile.val).1 = true → Answers (.mmomRun tile panel .none tclk) s (fun t => ∀ q < 4,
      ((t.tile tile.val).panel q).banks = ((o.moments (AtRate tile.val [panel.val] s).free (xRows o.desc1)
        (((AtRate tile.val [panel.val] s).mxPop tile.val o).tile tile.val)).panel q).banks)) ∧
    (s.mxHead tile.val panel.val 7 = some o → (s.rateUp tile.val).1 = true → Answers (.mdrzRun tile panel tclk) s (fun t =>
      ((t.tile tile.val).panel panel.val).queue = ((s.tile tile.val).panel panel.val).queue.drop 1 ∧
      t.get (Reg.TILE_MX_WORK_DRIZZLE tile.val) = satAdd (Reg.TILE_MX_WORK_DRIZZLE tile.val).width
        ((AtRate tile.val [panel.val] s).get (Reg.TILE_MX_WORK_DRIZZLE tile.val))
        (if mLevel o.word = 0 ∨ ((AtRate tile.val [panel.val] s).tile tile.val).drizzleAt.isSome = true then 0 else min tclk (mCount o.word)) ∧
      (t.tile tile.val).sp = (s.tile tile.val).sp)) ∧
    ((s.rateUp tile.val).1 = false →
      (s.mxHead tile.val panel.val 3 = some o → exec (.mmulRun tile panel .none [] tclk) s = .next (s.rateUp tile.val).2) ∧
      (s.mxHead tile.val panel.val 6 = some o → exec (.mmomRun tile panel .none tclk) s = .next (s.rateUp tile.val).2) ∧
      (s.mxHead tile.val panel.val 7 = some o → exec (.mdrzRun tile panel tclk) s = .next (s.rateUp tile.val).2))

/-- The vector engine runs the head of the V queue: a claim, a release, an arithmetic operation (R259, R262, R276). -/
def Sys2Proof.Part.VectorOperationsRun : Prop :=
  ∀ (tile : Fin 64) (h : VxOp) (s : State), s.vxHead tile.val = some h →
    (wOp h.word = 1 → Answers (.vectorOpRun tile .none) s (fun t =>
      t.get (Reg.TILE_VX_STATUS_CLAIMED tile.val) = 1 ∧ t.get (Reg.TILE_VX_STATUS_CPANEL tile.val) = vAccp h.word % 4 ∧
      t.get (Reg.TILE_VX_STATUS_CBANK tile.val) = vAccb h.word % 2 ∧ (t.tile tile.val).vq = (s.tile tile.val).vq.drop 1 ∧
      (t.tile tile.val).panels = (s.tile tile.val).panels)) ∧
    (wOp h.word = 2 → Answers (.vectorOpRun tile .none) s (fun t =>
      t.get (Reg.TILE_VX_STATUS_CLAIMED tile.val) = 0 ∧ (t.tile tile.val).vq = (s.tile tile.val).vq.drop 1 ∧
      (t.tile tile.val).panels = (s.tile tile.val).panels)) ∧
    (vArith (wOp h.word) = true → ∃ acc n o, acc = s.get (Reg.TILE_MX_CFG_ACC tile.val) ∧ n = s.free ∧
      o = s.vxMasked tile.val (s.free + 0x1000000) h ∧ Answers (.vectorOpRun tile .none) s (fun t =>
      (t.tile tile.val).vq = ((o.land n acc (s.tile tile.val) (o.run n acc (s.tile tile.val)).t).vq).drop 1 ∧
      (t.tile tile.val).sp = (o.land n acc (s.tile tile.val) (o.run n acc (s.tile tile.val)).t).sp ∧
      (t.tile tile.val).panels = (o.land n acc (s.tile tile.val) (o.run n acc (s.tile tile.val)).t).panels ∧
      (t.tile tile.val).g = (o.land n acc (s.tile tile.val) (o.run n acc (s.tile tile.val)).t).g ∧
      (t.tile tile.val).m = (o.land n acc (s.tile tile.val) (o.run n acc (s.tile tile.val)).t).m))

/-! ### Isobar -/

/-- What passes through domains in L0 is carried: their idle time begins again (R106). -/
def Sys2Proof.Carried (ds : List Nat) (s : State) : State := ds.foldl (fun s n => s.touchDom n) s

/-- Work that needs a sleeping domain wakes it and waits (R32, R106). -/
def Sys2Proof.Woken (ds : List Nat) (s : State) : State := ds.foldl (fun s n => if s.domState n = 0 then s else s.wakeDomain n) s

/-- A token adds to its queue, or is discarded whole when its epoch or owner is not the target's; a sleeping domain on its way is woken first
(R32, R106, R285, R287, R289, R296). -/
def Obligations.TokensReachTheirQueues : Prop :=
  ∀ (k : Nat) (more : Bool) (p : Iso) (s u : State), s.isoAt k = some p → p.kind = .signal → u = (Carried p.doms s).dropIso k →
    ((∀ n ∈ p.doms, s.domState n = 0) →
      exec (.tokenApply k more) s = .next (((u.applyToken p).serveAfter p more).rimeTokenDone p.src)) ∧
    ((∃ n ∈ p.doms, s.domState n = 5) → exec (.tokenApply k more) s = .next (s.dropIso k)) ∧
    ((∀ n ∈ p.doms, s.domState n ≠ 5) → (∃ n ∈ p.doms, s.domState n ≠ 0) → exec (.tokenApply k more) s = .next (Woken p.doms s)) ∧
    (u.tokenFresh p = false → u.applyToken p = u.bump Reg.PQ_ISO_ERR_STALE 1) ∧
    (u.tokenFresh p = true → p.pool = true → (∀ e ∈ u.touched, e.pool = true → e.queue = p.queue → e.port ≤ p.src.port p) →
      (u.applyToken p).pq p.queue = (s.pq p.queue).token p.count (s.lastOf p.src)) ∧
    (u.tokenFresh p = true → p.pool = false → s.twinOf p.tile = none → p.tile < 64 → p.queue < 32 →
      (∀ e ∈ u.touched, e.pool = false → e.queue = p.queue → e.port ≤ p.src.port p) →
      ((u.applyToken p).tile p.tile).queue p.queue = ((s.tile p.tile).queue p.queue).token p.count (s.lastOf p.src)) ∧
    ∀ (n : Nat) (l : Nat × Nat × Bool × Bool × Bool) (q : Queue),
      (q.token n l).value.toNat = min (q.value.toNat + n) 0xFFFFFF ∧
      (q.token n l).ovf = (q.ovf || decide (0xFFFFFF < q.value.toNat + n)) ∧
      (q.token n l).rest = q.rest ∧ (q.token n l).strict = q.strict ∧ (q.token n l).sweep = q.sweep ∧ (q.token n l).owner = q.owner

/-- An operation of a tile or a Rime engine on a pooled queue is served, held or refused there, and its answer, a release or a refusal, goes back
to the unit (R285, R287, R288, R289, R299, R310, R492). -/
def Obligations.PooledQueueServesTiles : Prop :=
  ∀ (k : Nat) (more : Bool) (p : Iso) (s z u v : State), p.tile < 128 → u = (Carried p.doms s).dropIso k →
    z = s.settleQueues → v = (Carried p.doms z).dropIso k →
    (s.isoAt k = some p → p.kind = .take ∨ p.kind = .wait ∨ p.kind = .peek → (∀ n ∈ p.doms, s.domState n = 0) →
      (u.tokenFresh p = false → exec (.pqWaitArrive k more) s = .next ((u.bump Reg.PQ_ISO_ERR_STALE 1).serveAfter p more)) ∧
      (u.tokenFresh p = true → exec (.pqWaitArrive k more) s = .next ((u.arriveAt p).serveAfter p more)) ∧
      (u.tokenFresh p = true → p.pool = true → (∀ w ∈ s.waiters, w.queue ≠ p.queue) → (∀ t, s.isSweepQ t p.queue = false) →
        (p.kind = .peek → Answers (.pqWaitArrive k false) s (fun t => t.waiters = s.waiters ∧ (t.pq p.queue) = (s.pq p.queue) ∧
          ∃ a, t.isobar = s.isobar.eraseIdx k ++ [a] ∧ a.kind = .reply ∧ a.tile = p.tile ∧ a.queue = p.queue ∧ a.status = stOK ∧
            a.count = (s.pq p.queue).value.toNat)) ∧
        (p.kind ≠ .peek → (s.pq p.queue).ovf = true → Answers (.pqWaitArrive k false) s (fun t => t.waiters = s.waiters ∧
          ∃ a, t.isobar = s.isobar.eraseIdx k ++ [a] ∧ a.kind = .reply ∧ a.tile = p.tile ∧ a.status = stDrift ∧
            a.flags = (s.pq p.queue).flags ∧ a.count = (s.pq p.queue).value.toNat)) ∧
        (p.kind ≠ .peek → (s.pq p.queue).ovf = false → (s.pq p.queue).strict = true → (s.pq p.queue).value.toNat < p.count →
          Answers (.pqWaitArrive k false) s (fun t => t.waiters = s.waiters ∧
            ∃ a, t.isobar = s.isobar.eraseIdx k ++ [a] ∧ a.kind = .reply ∧ a.tile = p.tile ∧ a.status = stUnderflow ∧
              a.count = (s.pq p.queue).value.toNat)) ∧
        (p.kind ≠ .peek → (s.pq p.queue).ovf = false → (s.pq p.queue).strict = false → (s.pq p.queue).value.toNat < p.count →
          Answers (.pqWaitArrive k false) s (fun t => t.isobar = s.isobar.eraseIdx k ∧ t.waiters = s.waiters ++
            [{ queue := p.queue, rime := decide (64 ≤ p.tile), unit := p.tile % 64, take := p.kind == .take, count := p.count
               tenancy := p.tenancy, fresh := false }])) ∧
        (p.kind ≠ .peek → (s.pq p.queue).ovf = false → p.count ≤ (s.pq p.queue).value.toNat →
          Answers (.pqWaitArrive k false) s (fun t => t.waiters = s.waiters ∧
            (t.pq p.queue).value.toNat = (if p.kind = .take then (s.pq p.queue).value.toNat - p.count else (s.pq p.queue).value.toNat) ∧
            ∃ a, t.isobar = s.isobar.eraseIdx k ++ [a] ∧ a.kind = .release ∧ a.tile = p.tile ∧ a.queue = p.queue ∧
              a.count = (t.pq p.queue).value.toNat)))) ∧
    (z.isoAt k = some p → (∀ n ∈ p.doms, z.domState n = 0) → p.sweep = false →
      (p.tile < 64 → z.twinOf p.tile = none →
        (p.kind = .release → (z.tile p.tile).wait.phase = .pooled → exec (.pqReplyArrive k) s = .next (v.releaseWait p.tile p.count)) ∧
        (p.kind = .reply → p.status ≠ stOK → (z.tile p.tile).wait.phase = .pooled → (z.tile p.tile).wait.after = .none →
          exec (.pqReplyArrive k) s = .next (v.waitFault p.tile p.count p.flags p.status)) ∧
        (p.kind = .reply → p.status ≠ stOK → (z.tile p.tile).wait.phase = .pooled → (z.tile p.tile).wait.after ≠ .none →
          exec (.pqReplyArrive k) s = .next (v.performAfter p.tile (z.tile p.tile).wait.after)) ∧
        (∀ e, p.kind = .reply → p.status = stOK → (z.tile p.tile).peeks.find? (fun x => x.1 == p.queue) = some e →
          exec (.pqReplyArrive k) s =
            .next (v.modTile p.tile (fun t => { t.setG e.2 (BitVec.ofNat 64 p.count) with peeks := t.peeks.erase e })))) ∧
      (64 ≤ p.tile → p.kind = .release ∨ p.kind = .reply → exec (.pqReplyArrive k) s = .next (v.rimeAnswer p))) ∧
    (s.isoAt k = some p → p.kind = .cancel → (∀ n ∈ p.doms, s.domState n = 0) →
      exec (.pqCancelArrive k) s = .next (u.settleQueues.cancelAt p)) ∧
    ((∃ w ∈ s.waiters, w.queue = p.queue ∧ w.rime = decide (64 ≤ p.tile) ∧ w.unit = p.tile % 64 ∧ w.peek = false) →
      ∀ w ∈ (s.cancelAt p).waiters, ¬ (w.queue = p.queue ∧ w.rime = decide (64 ≤ p.tile) ∧ w.unit = p.tile % 64 ∧ w.peek = false))

/-- A wait that outlives its tenancy's timeout faults at the tile, or is cancelled at its pooled queue; so is a Rime engine's start
token. Before that moment nothing happens (R299). -/
def Sys2Proof.Part.WaitsTimeOut : Prop :=
  ∀ (unit : Fin 68) (s : State),
    (unit.val < 64 → ∃ due, due = roundUp (s.get (Reg.TILE_Q_WSTART_TICK unit.val) +
        10000 * s.get (Reg.PQ_TNCFG_TIMEOUT (s.tileTen unit.val))) 1000 ∧
      (s.tick.toNat < due → exec (.waitTimeout unit) s = .next s) ∧
      (due ≤ s.tick.toNat → (s.tile unit.val).wait.phase = .atTile → ∃ q,
        q = (if s.get (Reg.TILE_Q_WAIT_POOL unit.val) = 1 then s.pq (s.get (Reg.TILE_Q_WAIT_QUEUE unit.val))
          else (s.tile unit.val).queue (s.get (Reg.TILE_Q_WAIT_QUEUE unit.val))) ∧
        exec (.waitTimeout unit) s = .next (s.waitFault unit.val q.value.toNat q.flags stWaitTimeout)) ∧
      (due ≤ s.tick.toNat → (s.tile unit.val).wait.phase = .pooled → (s.tile unit.val).wait.timedOut = false →
        ((s.tile unit.val).wait.after = .none → exec (.waitTimeout unit) s =
          .next ((s.modTile unit.val (fun x => { x with wait := { x.wait with timedOut := true } })).sendCancel unit.val)) ∧
        ((s.tile unit.val).wait.after ≠ .none → exec (.waitTimeout unit) s =
          .next (s.modTile unit.val (fun x => { x with wait := { x.wait with timedOut := true } }))))) ∧
    (∀ f r i, 64 ≤ unit.val → (s.rime (unit.val - 64)).active = some (f, r, i) → (s.rime (unit.val - 64)).waiting = true →
      s.expiry f (s.rime (unit.val - 64)).waitStart.toNat ≤ s.tick.toNat →
      s.isobar.any (fun p => p.tile == unit.val && decide (p.kind = .cancel)) = false → Answers (.waitTimeout unit) s (fun t =>
        ∃ p, t.isobar = s.isobar ++ [p] ∧ p.kind = .cancel ∧ p.pool = true ∧ p.tile = unit.val ∧ p.tenancy = f ∧ t.regs = s.regs ∧
          t.rimes = s.rimes))

/-- A packet with a CRC error is sent again once, 4 KCLK later; its second error fails the fabric (R284). -/
def Sys2Proof.Part.IsobarRetriesOnce : Prop :=
  ∀ (k station : Nat) (p : Iso) (s : State), s.isobar[k]? = some p →
    (p.lost = false → p.retried = false → ∃ u : State,
      u = { s with isobar := s.isobar.set k { p with retried := true, lost := true, lostAt := s.tick } } ∧
      exec (.isobarCrcError k station) s =
        .next (((u.bump Reg.PQ_ISO_ERR_RETRIED 1).correctedSource p).fabricCorrected 2 station 0)) ∧
    (p.lost = false → p.retried = true → exec (.isobarCrcError k station) s =
      .next (((s.dropIso k).bump Reg.PQ_ISO_ERR_FAILED 1).fabricFault 2 (stationDie station) station 0)) ∧
    (p.lost = true → 4 ≤ s.since p.lostAt → exec (.isobarResend k) s = .next { s with isobar := s.isobar.set k { p with lost := false } }) ∧
    (p.lost = true → s.since p.lostAt < 4 → exec (.isobarResend k) s = .next s)

/-- A sweep: what failed the check is recorded and counted and the release tick is set; at that tick the participants go on, or fault
with DRIFT where drift stops them (R305, R306, R307). -/
def Sys2Proof.Part.SweepChecksAndReleases : Prop :=
  ∀ (t : Fin 17) (latch : Word) (failed : List (List Byte)) (drifted : Bool) (s : State),
    ((s.ten t.val).sweep = .checking latch failed → 256 ≤ s.since latch →
      Answers (.sweepCheckEnd t) s (fun u =>
        u.get (Reg.PQ_TNSWEEP_DRIFTS t.val) = satAdd (Reg.PQ_TNSWEEP_DRIFTS t.val).width (s.get (Reg.PQ_TNSWEEP_DRIFTS t.val)) failed.length ∧
        (u.ten t.val).sweep = .releasing (BitVec.ofNat 64 (roundUp (latch.toNat + 256) 64)) (!failed.isEmpty) ∧ u.tiles = s.tiles ∧ u.pqs = s.pqs)) ∧
    ((s.ten t.val).sweep = .checking latch failed → s.since latch < 256 → exec (.sweepCheckEnd t) s = .next s) ∧
    ((s.ten t.val).sweep = .releasing latch drifted → s.tick.toNat < latch.toNat → exec (.sweepRelease t) s = .next s) ∧
    ((s.ten t.val).sweep = .releasing latch drifted → latch.toNat ≤ s.tick.toNat → ∃ u, u =
      ((s.sweepTaken .release t.val).modTen t.val (fun x => { x with sweep := .idle })).bump (Reg.PQ_TNSWEEP_SWEEPS t.val) 1 ∧
      (drifted = true → s.get (Reg.PQ_TNSWEEP_DRIFTSTOP t.val) = 1 → exec (.sweepRelease t) s =
        .next (((s.sweepers t.val).foldl (fun s g => s.sweepFault g) u).sweepLatch t.val (s.get (Reg.PQ_TNSWEEP_SWEEPQ t.val)))) ∧
      (drifted = false ∨ s.get (Reg.PQ_TNSWEEP_DRIFTSTOP t.val) = 0 → exec (.sweepRelease t) s =
        .next (((s.sweepers t.val).foldl (fun s g => s.setSweepLatch g) u).sweepLatch t.val (s.get (Reg.PQ_TNSWEEP_SWEEPQ t.val)))))

/-- A snapshot latches the wait records of all 64 tiles, as the queues have been served, and shows them in PQ_SNAP (R303); the pooled ranges and
their checks (R280). -/
def Sys2Proof.Part.SnapshotsAndRanges : Prop :=
  ∀ (t : Fin 17) (v : Word) (s z : State), z = s.settleQueues →
    (s.phase = .ready → z.get Reg.PQ_SNAP_CTL_BUSY = 0 → v.getLsbD 0 = true → Answers (.pqSnapGo v) s (fun u =>
      u.snap = (List.range 64).map z.snapRecord ∧ u.get Reg.PQ_SNAP_CTL_BUSY = 1 ∧ u.get Reg.PQ_SNAP_CTL_DONE = 0 ∧
      KeepsRegs [Reg.PQ_SNAP_CTL_BUSY, Reg.PQ_SNAP_CTL_DONE] z u)) ∧
    (s.phase = .ready → z.get Reg.PQ_SNAP_CTL_BUSY = 1 → v.getLsbD 0 = true → exec (.pqSnapGo v) s = .next z) ∧
    (s.phase = .ready → v.getLsbD 0 = false → exec (.pqSnapGo v) s = .next s) ∧
    (s.get Reg.PQ_SNAP_CTL_BUSY = 1 → (∀ op tag x, s.mbx = some (op, tag, x) → op ≠ 0x30) → Answers .pqSnapDone s (fun u =>
      u.get Reg.PQ_SNAP_CTL_BUSY = 0 ∧ u.get Reg.PQ_SNAP_CTL_DONE = 1 ∧
      ∀ g < 64, ∀ w < 4, u.get (Reg.PQ_SNAP_DATA (4 * g + w)) = leAt (s.snap.getD g []) (8 * w) 8 % 2 ^ 64)) ∧
    (∀ tag x, s.get Reg.PQ_SNAP_CTL_BUSY = 1 → s.mbx = some (0x30, tag, x) → Answers .pqSnapDone s (fun u =>
      u.get Reg.PQ_SNAP_CTL_BUSY = 0 ∧ u.get Reg.PQ_SNAP_CTL_DONE = 1 ∧ u.mbx = none ∧ u.get Reg.MC_MBX_STATUS_STATUS = stOK)) ∧
    (s.phase = .ready → s.tnState t.val = 2 → bits v.toNat 0 12 ≠ s.get (Reg.PQ_TNCFG_BASE t.val) →
      exec (.pqTncfgWrite t .whole v) s = .next (s.logRefused (Reg.PQ_TNCFG_BASE t.val).off 0 v.toNat)) ∧
    (s.phase = .ready → s.tnState t.val = 1 → bits v.toNat 0 12 % 16 = 0 → bits v.toNat 16 13 % 16 = 0 →
      bits v.toNat 0 12 + bits v.toNat 16 13 ≤ 4096 → 1 ≤ bits v.toNat 32 20 → bits v.toNat 32 20 ≤ 1000000 →
      (∀ u < 17, u ≠ t.val → bits v.toNat 16 13 = 0 ∨ s.get (Reg.PQ_TNCFG_COUNT u) = 0 ∨
        bits v.toNat 0 12 + bits v.toNat 16 13 ≤ s.get (Reg.PQ_TNCFG_BASE u) ∨
        s.get (Reg.PQ_TNCFG_BASE u) + s.get (Reg.PQ_TNCFG_COUNT u) ≤ bits v.toNat 0 12) →
      s.rimeQueueOutside t.val (bits v.toNat 0 12) (bits v.toNat 16 13) = false →
      exec (.pqTncfgWrite t .whole v) s =
        .next ((s.setRange t.val (bits v.toNat 0 12) (bits v.toNat 16 13)).set (Reg.PQ_TNCFG_TIMEOUT t.val) (bits v.toNat 32 20)))

/-! ### Jetstream, HBM, DMA, Breeze -/

/-- The place behind an output of the router or quadrant at which a flit stands. -/
def Sys2Proof.placeBehind (f : Flit) (port : Nat) : Option Loc :=
  match f.loc with
  | .router g _ => routerNext g port
  | .quadrant q _ => quadrantNext q port
  | .target => none

/-- A flit crosses an output in a slot that takes it, once both sides are awake, and stands at the next place; otherwise it stays (R32, R106, R320,
R324, R325). -/
def Sys2Proof.Part.FlitsCrossOutputs : Prop :=
  ∀ (k port waited : Nat) (half : Bool) (ecc : Secded) (f : Flit) (l : Loc) (s : State), s.flits[k]? = some f → placeBehind f port = some l →
    (s.behindAnother k f = false →
      (f.sched = true → entryTakes (s.slotEntry f.loc port (2 * (s.tick.toNat % 512) + b2n half)) f = true →
        exec (.flitForward k port half waited ecc) s = .next (s.passFlit k port f l id ecc)) ∧
      (f.sched = false → port = s.routeOf f → s.dynamicMay f port (2 * (s.tick.toNat % 512) + b2n half) = true →
        exec (.flitForward k port half waited ecc) s = .next (s.passFlit k port f l (State.countWait f.loc port waited) ecc)) ∧
      (f.sched = false → port ≠ s.routeOf f → exec (.flitForward k port half waited ecc) s = .next s) ∧
      (f.sched = true → (∀ slot < 1024, entryTakes (s.slotEntry f.loc port slot) f = false) → port = s.routeOf f →
        (∀ g p, f.loc = .router g p → 2 ≤ p) →
        s.dynamicMay { f with sched := false } port (2 * (s.tick.toNat % 512) + b2n half) = true →
        exec (.flitForward k port half waited ecc) s = .next (s.passFlit k port { f with sched := false } l
          (fun u => State.countLate f.loc { u with flits := u.flits.set k { f with sched := false } }) ecc))) ∧
    (s.behindAnother k f = true → exec (.flitForward k port half waited ecc) s = .next s) ∧
    (∀ count : State → State,
      (s.domState (f.domAt f.loc) = 0 → s.domState (f.domAt l) = 0 →
        s.passFlit k port f l count ecc = (count (Carried [f.domAt f.loc, f.domAt l] s)).crossOutput k port f l ecc) ∧
      (s.domState (f.domAt f.loc) = 5 ∨ s.domState (f.domAt l) = 5 → s.passFlit k port f l count ecc = s.dropFlit k) ∧
      (s.domState (f.domAt f.loc) ≠ 5 → s.domState (f.domAt l) ≠ 5 → s.domState (f.domAt f.loc) ≠ 0 ∨ s.domState (f.domAt l) ≠ 0 →
        s.passFlit k port f l count ecc = Woken [f.domAt f.loc, f.domAt l] s)) ∧
    ((∀ g p, f.loc = .router g p → 2 ≤ p) →
      (s.crossOutput k port f l .clean).flits = s.flits.set k { f with loc := l } ∧ (s.crossOutput k port f l .clean).tiles = s.tiles ∧
      (s.crossOutput k port f l .clean).hbm = s.hbm ∧ (s.crossOutput k port f l .clean).regs = s.regs) ∧
    (∀ g p, f.loc = .router g p → s.crossOutput k port f l .uncorrectable =
      ((s.dropFlit k).bump (Reg.TILE_JS_ERR_UNCORR g) 1).fabricFault 0 (tileDie g) (0x40 + g) port) ∧
    (∀ q p, f.loc = .quadrant q p → s.crossOutput k port f l .uncorrectable =
      ((s.dropFlit k).bump Reg.MEM_BSW_STAT_UNCORR 1).fabricFault 0 4 0x18 port)

/-- A WRITE flit that the tile serves changes exactly the bytes it carries and is acknowledged; a stale one is counted and changes no
memory; others wait at their HC or leave on their link, whose domain is woken first (R32, R106, R318, R492). -/
def Obligations.WriteFlitsWrite : Prop :=
  ∀ (k : Nat) (f : Flit) (s : State), s.arrived k .write = some f →
    (s.serves f.dest f.epoch = false → exec (.jsWrite k) s = .next ((s.dropFlit k).bump Reg.MC_STALE_FLITS 1)) ∧
    (s.serves f.dest f.epoch = true → s.domState (unitDom f.dest) = 0 →
      (f.dest < 0x10 → exec (.jsWrite k) s = .next (((s.touchDom (unitDom f.dest)).dropFlit k).toHc f)) ∧
      (0x80 ≤ f.dest → exec (.jsWrite k) s = .next (((s.touchDom (unitDom f.dest)).dropFlit k).linkAccept f))) ∧
    (s.serves f.dest f.epoch = true → s.domState (unitDom f.dest) ≠ 0 → f.dest < 0x10 ∨ 0x80 ≤ f.dest →
      exec (.jsWrite k) s = .next (s.wakeDomain (unitDom f.dest))) ∧
    (∀ g, s.serves f.dest f.epoch = true → f.dest = 0x40 + g → g < 64 →
      (s.memoryUp g = false → exec (.jsWrite k) s = .next s) ∧
      (s.memoryUp g = true → s.twinOf g = none → Answers (.jsWrite k) s (fun t =>
        (∀ a, spGet ramByte (t.tile g).sp a = if f.addr ≤ a ∧ a < f.addr + f.data.length then f.data.getD (a - f.addr) 0
          else spGet ramByte (s.tile g).sp a) ∧
        (t.tile g).g = (s.tile g).g ∧ (t.tile g).istore = (s.tile g).istore ∧
        (∀ h, h ≠ g → t.tile h = s.tile h) ∧ t.hbm = s.hbm ∧ t.regs = s.regs ∧
        ∃ w, t.flits = s.flits.eraseIdx k ++ [w] ∧ w.typ = .wack ∧ w.dest = f.src ∧ w.status = stOK ∧ w.tag = f.tag)))

/-- READ, RDATA, WACK and ISWRITE flits at a tile (R97, R176, R318, R352, R492). -/
def Sys2Proof.Part.FlitsServedAtTargets : Prop :=
  ∀ (k g : Nat) (f : Flit) (s : State), g < 64 → s.twinOf g = none → f.dest = 0x40 + g →
    (s.arrived k .read = some f →
      (s.serves f.dest f.epoch = true → s.memoryUp g = true → Answers (.jsRead k .clean) s (fun t =>
        t.tiles = s.tiles ∧ t.regs = s.regs ∧ t.hbm = s.hbm ∧ ∃ w, t.flits = s.flits.eraseIdx k ++ [w] ∧ w.typ = .rdata ∧ w.dest = f.src ∧
          w.data = (s.tile g).looseRead s.free (s.get (Reg.TILE_MX_CFG_ACC g)) f.addr f.len ∧ w.poison = false ∧ w.tag = f.tag)) ∧
      (s.serves f.dest f.epoch = true → s.memoryUp g = false → exec (.jsRead k .clean) s = .next s) ∧
      (s.serves f.dest f.epoch = false → exec (.jsRead k .clean) s = .next ((s.dropFlit k).bump Reg.MC_STALE_FLITS 1))) ∧
    (s.arrived k .rdata = some f →
      (0x80 ≤ f.src → s.ownEpoch f.dest ≠ f.epoch → exec (.jsRdata k) s = .next ((s.dropFlit k).bump Reg.MC_STALE_FLITS 1)) ∧
      (f.src < 0x80 ∨ s.ownEpoch f.dest = f.epoch →
        (s.awaits g f true = false → exec (.jsRdata k) s = .next ((s.dropFlit k).absorb g f)) ∧
        (∀ a d rest, s.awaits g f true = true → ((s.tile g).chan f.ch).descs = (a, d) :: rest →
          f.poison = false → f.data ≠ [] → dDstSpace d = 0 → f.ch < 4 → Answers (.jsRdata k) s (fun t =>
            (t.tile g).sp = memWrite ramByte (s.tile g).sp f.reply (convBytes (dConv d) (overlay ((s.tile g).chan f.ch).snap f.addr f.data)) ∧
            ((t.tile g).chan f.ch).reads = ((s.tile g).chan f.ch).reads.erase f.src ∧
            (∀ h, h ≠ g → t.tile h = s.tile h) ∧ t.flits = s.flits.eraseIdx k ∧ t.hbm = s.hbm ∧ KeepsRegs [Reg.TILE_DMA_BYTES_BYTES g] s t)))) ∧
    (s.arrived k .wack = some f →
      (s.awaits g f false = false → exec (.jsWack k) s = .next ((s.dropFlit k).absorb g f)) ∧
      (s.awaits g f false = true → f.status = stOK → f.ch < 4 → Answers (.jsWack k) s (fun t =>
        ((t.tile g).chan f.ch).writes = ((s.tile g).chan f.ch).writes.erase f.src ∧ (t.tile g).sp = (s.tile g).sp ∧ t.hbm = s.hbm ∧
        t.flits = s.flits.eraseIdx k ∧
        t.get (Reg.TILE_DMA_BYTES_BYTES g) = (s.get (Reg.TILE_DMA_BYTES_BYTES g) + f.len) % 2 ^ (Reg.TILE_DMA_BYTES_BYTES g).width ∧
        KeepsRegs [Reg.TILE_DMA_BYTES_BYTES g] s t))) ∧
    (s.arrived k .iswrite = some f →
      (s.serves f.dest f.epoch = true → s.memoryUp g = true → Answers (.jsIswrite k) s (fun t =>
        (t.tile g).istore = memWrite ramByte (s.tile g).istore (64 * (f.addr / 64)) (f.data.take 64) ∧ (t.tile g).sp = (s.tile g).sp ∧
        (t.tile g).stale = (s.tile g).stale ++ [(f.addr / 64, 4, (s.tile g).bundle (f.addr / 64))] ∧
        (∀ h, h ≠ g → t.tile h = s.tile h) ∧ t.hbm = s.hbm ∧ t.regs = s.regs ∧
        ∃ w, t.flits = s.flits.eraseIdx k ++ [w] ∧ w.typ = .wack ∧ w.dest = f.src ∧ w.status = stOK)) ∧
      (s.serves f.dest f.epoch = false → exec (.jsIswrite k) s = .next ((s.dropFlit k).bump Reg.MC_STALE_FLITS 1)))

/-- The HBM controllers serve their requests: scheduled ones in their slots, dynamic ones in free slots (R106, R321, R326); what a read, a write
of whole words and the two halves of a partial write do (R339, R341). -/
def Sys2Proof.Part.MemoryRequestsServed : Prop :=
  ∀ (hc : Fin 8) (pcs : Fin 32) (i : Nat) (r : HcReq) (f : Flit) (ecc : Secded) (s : State),
    (s.hcServes hc.val = true →
      (mKind (s.memEntry hc.val pcs.val s.memSlotNow) = 0 → eSched (s.memEntry hc.val pcs.val s.memSlotNow) = true →
        s.firstReq hc.val (fun r => r.pcs == pcs.val && r.flit.sched && r.flit.tenancy == eTen (s.memEntry hc.val pcs.val s.memSlotNow) &&
          r.port == mPort (s.memEntry hc.val pcs.val s.memSlotNow) && r.writes == mWrite (s.memEntry hc.val pcs.val s.memSlotNow)) = some (i, r) →
        exec (.memorySlot hc pcs false ecc) s = .next (s.serveHc hc.val i r ecc) ∧
        exec (.memorySlot hc pcs true ecc) s = .next ((s.bump (Reg.MEM_SLOT_STAT_LATE hc.val) 1).serveHc hc.val i r ecc)) ∧
      (∀ busy, mKind (s.memEntry hc.val pcs.val s.memSlotNow) ≠ 0 ∨ eSched (s.memEntry hc.val pcs.val s.memSlotNow) = false →
        exec (.memorySlot hc pcs busy ecc) s = .next s) ∧
      ((((s.hcq[hc.val]?).getD [])[i]? = some r) → r.pcs = pcs.val → s.slotFree hc.val pcs.val = true → r.flit.sched = false →
        wordBefore ((s.hcq[hc.val]?).getD []) i r = false → (∀ e ∈ ((s.hcq[hc.val]?).getD []).take i, e.pcs ≠ pcs.val) →
        ∃ u, u = { s with hbmRow := spSet 0 s.hbmRow (32 * hc.val + pcs.val) (s.hbmRowOf r.flit.addr + 1),
                          hbmAhead := spSet 0 s.hbmAhead (32 * hc.val + pcs.val) 0 } ∧
          exec (.hbmDynamicAccess hc pcs i ecc) s = .next ((u.countFreed hc.val pcs.val).serveHc hc.val i r ecc)) ∧
      (s.slotFree hc.val pcs.val = false → exec (.hbmDynamicAccess hc pcs i ecc) s = .next s)) ∧
    (s.hcServes hc.val = false → (∀ busy, exec (.memorySlot hc pcs busy ecc) s = .next (s.hcWake hc.val)) ∧
      ((((s.hcq[hc.val]?).getD [])[i]?).isSome = true → exec (.hbmDynamicAccess hc pcs i ecc) s = .next (s.hcWake hc.val))) ∧
    (∀ a, spGet ramByte (s.serveWrite hc.val f).hbm a =
      if f.addr ≤ a ∧ a < f.addr + f.data.length then f.data.getD (a - f.addr) 0 else spGet ramByte s.hbm a) ∧
    (∀ w, (s.serveWrite hc.val f).poisoned w = (s.poisoned w && !(wordsOf f.addr f.data.length).contains w)) ∧
    (∀ a, spGet ramByte (s.servePartialWrite hc.val f).hbm a =
      if f.addr ≤ a ∧ a < f.addr + f.data.length then f.data.getD (a - f.addr) 0 else spGet ramByte s.hbm a) ∧
    ((wordsOf f.addr f.len).any s.poisoned = false → (s.serveRead hc.val f .clean).hbm = s.hbm ∧
      ∃ w, (s.serveRead hc.val f .clean).flits = s.flits ++ [w] ∧ w.typ = .rdata ∧ w.dest = f.src ∧ w.data = s.hbmRead f.addr f.len ∧ w.poison = false) ∧
    ((wordsOf f.addr f.len).any s.poisoned = true → (s.serveRead hc.val f .clean).hbm = s.hbm ∧
      ∃ w, (s.serveRead hc.val f .clean).flits = s.flits ++ [w] ∧ w.typ = .rdata ∧ w.poison = true)

/-- Rewrites of corrected words and patrol scrub leave every byte of HBM as it is; an uncorrectable word that scrub finds is poisoned
(R338, R339, R340); group modes change only for free groups (R336). -/
def Sys2Proof.Part.ScrubKeepsBytes : Prop :=
  ∀ (hc : Fin 8) (pcs : Fin 32) (v : Word) (w : Nat) (s : State),
    (s.rewrites.find? (fun w => s.hbmPlace (64 * w) == (hc.val, pcs.val)) = some w → s.hcServes hc.val = true → s.slotFree hc.val pcs.val = true →
      exec (.hbmCorrectedRewrite hc pcs) s = .next { s with rewrites := s.rewrites.erase w }) ∧
    (w = s.stackWord hc.val ((s.scrubs[hc.val]?).getD {}).words / 64 → s.hcServes hc.val = true → s.get (Reg.MEM_SCRUB_EN hc.val) = 1 →
      s.slotFree hc.val (s.hbmPlace (64 * w)).2 = true →
      Answers (.scrubRead hc .clean) s (fun t => t.hbm = s.hbm ∧ t.poison = s.poison ∧
        (((s.scrubs[hc.val]?).getD {}).words + 1 < 2 ^ 29 →
          ((t.scrubs[hc.val]?).getD {}).words = ((s.scrubs[hc.val]?).getD {}).words + 1)) ∧
      (s.poisoned w = false → Answers (.scrubRead hc .uncorrectable) s (fun t => t.hbm = s.hbm ∧ t.poison = spSet false s.poison w true))) ∧
    (∀ ecc, s.get (Reg.MEM_SCRUB_EN hc.val) = 0 → exec (.scrubRead hc ecc) s = .next s) ∧
    (s.phase = .ready → s.ownedGroups (v.toNat % 2 ^ 32 ^^^ s.get Reg.MEM_GROUPMODE_LOCAL) = false →
      exec (.memGroupmodeWrite .whole v) s =
        .next ((s.groupsMoved (v.toNat % 2 ^ 32 ^^^ s.get Reg.MEM_GROUPMODE_LOCAL)).set Reg.MEM_GROUPMODE_LOCAL (v.toNat % 2 ^ 32))) ∧
    (s.phase = .ready → s.ownedGroups (v.toNat % 2 ^ 32 ^^^ s.get Reg.MEM_GROUPMODE_LOCAL) = true →
      exec (.memGroupmodeWrite .whole v) s = .next (s.logRefused Reg.MEM_GROUPMODE_LOCAL.off 0 v.toNat))

/-- The link and the relay module that a descriptor of a channel takes: none where it names no peer (R366, R384). -/
def Sys2Proof.PathOf (g c : Nat) (d : List Byte) (s : State) (way : Option (Nat × Option Nat)) : Prop :=
  match dRemote d with
  | none => way = none
  | some m => match s.reach m (s.memberFor g c m (dSched d)) (dSched d) with
    | .inl w => way = some w
    | .inr _ => way = none

/-- A DMA descriptor becomes active only when its checks pass, else the tile takes the DMA exception with the descriptor's address (R347);
it is let go when every answer is in, and its token departs (R292, R294, R348, R359). -/
def Obligations.DmaDescriptorsRun : Prop :=
  ∀ (tile : Fin 64) (chan : Fin 4) (a : Nat) (d : List Byte) (rest : List (Nat × List Byte)) (way : Option (Nat × Option Nat)) (s : State),
    ((s.tile tile.val).chan chan.val).descs = (a, d) :: rest → PathOf tile.val chan.val d s way →
    (s.chanReady tile.val chan.val (way.map (·.1)) = true → s.tileBusy tile.val = true →
      ¬ ((s.tile tile.val).owedStarts.contains chan.val = true ∧ rest = []) →
      (∀ st, s.dmaCheck tile.val chan.val d = some st →
        exec (.dmaDescriptorStart tile chan .clean) s = .next (s.raiseExc tile.val 0x20 st 0xF a)) ∧
      (s.dmaCheck tile.val chan.val d = none → Answers (.dmaDescriptorStart tile chan .clean) s (fun t =>
        ((t.tile tile.val).chan chan.val).active = true ∧ ((t.tile tile.val).chan chan.val).descs = (a, d) :: rest ∧
        ((t.tile tile.val).chan chan.val).seq = (((s.tile tile.val).chan chan.val).seq + 1) % 65536 ∧
        ((t.tile tile.val).chan chan.val).link = way.map (·.1) ∧
        (t.tile tile.val).sp = (s.tile tile.val).sp ∧ t.hbm = s.hbm ∧ t.regs = s.regs)) ∧
      exec (.dmaDescriptorStart tile chan .uncorrectable) s = .next ((s.spUncorrected tile.val a).raiseExc tile.val 0x22 stUncorrected 0xF a)) ∧
    (∀ ecc, s.chanReady tile.val chan.val (way.map (·.1)) = false → exec (.dmaDescriptorStart tile chan ecc) s = .next s) ∧
    (((s.tile tile.val).chan chan.val).active = true → dmaLocal d = false → ((s.tile tile.val).chan chan.val).atEnd = true →
      ((s.tile tile.val).chan chan.val).reads = [] → ((s.tile tile.val).chan chan.val).writes = [] →
      ((s.tile tile.val).chan chan.val).snap = [] → ((s.tile tile.val).chan chan.val).clash = [] → s.isShadow tile.val = false → s.twinOf tile.val = none →
      Answers (.dmaDescriptorDone tile chan) s (fun t => ((t.tile tile.val).chan chan.val).descs = rest ∧
        ((t.tile tile.val).chan chan.val).active = false ∧ (t.tile tile.val).sp = (s.tile tile.val).sp ∧ t.hbm = s.hbm ∧
        KeepsRegs [Reg.TILE_DMA_STATUS_QC tile.val] s t ∧
        (tokEnable (dToken d) = false → t.isobar = s.isobar ∧ t.links = s.links) ∧
        (tokEnable (dToken d) = true → tokRemote (dToken d) = false → t.links = s.links ∧ ∃ p, t.isobar = s.isobar ++ [p] ∧ p.kind = .signal ∧
          p.queue = tokQueue (dToken d) ∧ p.pool = tokPool (dToken d) ∧ p.count = dTcount d ∧ p.tenancy = s.tileTen tile.val) ∧
        (∀ j < 64, tokEnable (dToken d) = true → tokRemote (dToken d) = true → ((s.tile tile.val).chan chan.val).link = some j →
          t.isobar = s.isobar ∧ (t.link j).owed = (s.link j).owed ++ [(tile.val, chan.val, ((s.tile tile.val).chan chan.val).seq)] ∧
          ∃ f, f.kind = 5 ∧ f.lastrec = true ∧ f.dmod = tokMod (dToken d) ∧ f.tokens.length = 1 ∧
            (dSched d = true → (t.link j).q0 = (s.link j).q0 ++ [f]) ∧ (dSched d = false → (t.link j).q3 = (s.link j).q3 ++ [f])))) ∧
    (((s.tile tile.val).chan chan.val).active = true → dmaLocal d = true → ((s.tile tile.val).chan chan.val).snap = [] →
      ((s.tile tile.val).chan chan.val).clash = [] → tokEnable (dToken d) = false →
      Answers (.dmaDescriptorDone tile chan) s (fun t => ((t.tile tile.val).chan chan.val).descs = rest ∧
        ((t.tile tile.val).chan chan.val).active = false ∧ t.hbm = s.hbm ∧ (t.tile tile.val).g = (s.tile tile.val).g ∧
        t.get (Reg.TILE_DMA_BYTES_BYTES tile.val) =
          (s.get (Reg.TILE_DMA_BYTES_BYTES tile.val) + dmaByteCount d) % 2 ^ (Reg.TILE_DMA_BYTES_BYTES tile.val).width ∧
        KeepsRegs [Reg.TILE_DMA_BYTES_BYTES tile.val, Reg.TILE_DMA_STATUS_QC tile.val] s t)) ∧
    (((s.tile tile.val).chan chan.val).active = true → dmaLocal d = false → ((s.tile tile.val).chan chan.val).writes ≠ [] →
      exec (.dmaDescriptorDone tile chan) s = .next s)

/-- The Breeze packets, once the domains on their way are awake: a LAUNCH reaches its tile, an EPOCH its holders, a REPORT the ring engine; a
packet with a CRC error is sent again once (R32, R197, R329, R330, R411, R492, R493). -/
def Obligations.BreezePacketsAct : Prop :=
  ∀ (k unit : Nat) (p : Bz) (s : State),
    ((∀ n ∈ p.doms, s.domState n = 0) →
      (∀ g, s.bzAt k .cmd = some p → p.dest = 0x40 + g → g < 64 → s.serves p.dest p.epoch = true → s.domState (unitDom p.dest) = 0 →
        exec (.breezeCmd k) s = .next (((Carried p.doms s).dropBz k).tileLaunch g)) ∧
      (∀ d c, s.bzAt k .cmd = some p → p.dest = 0x10 + d → d < 4 → s.serves p.dest p.epoch = true → s.domState (unitDom p.dest) = 0 →
        s.cmd p.func p.ring p.index = some c → Answers (.breezeCmd k) s (fun t =>
          (t.rime d).queue = (s.rime d).queue ++ [(p.func, p.ring, p.index)] ∧ t.breeze = s.breeze.eraseIdx k)) ∧
      (s.bzAt k .epoch = some p → Answers (.breezeEpoch k) s (fun t => t.breeze = s.breeze.eraseIdx k ∧
        (bits p.beat1 0 8 < 256 → t.heldEpoch (bits p.beat1 0 8) = bits p.beat1 8 16) ∧ t.unitEpoch = s.unitEpoch ∧
        (bits p.beat1 24 2 = 0 → s.get (Reg.MC_EPOCH_QSTATE (bits p.beat1 0 8)) = 1 → t.get (Reg.MC_EPOCH_QSTATE (bits p.beat1 0 8)) = 2) ∧
        KeepsRegs [Reg.MC_EPOCH_QSTATE (bits p.beat1 0 8)] s t)) ∧
      (s.bzAt k .report = some p → exec (.breezeReport k) s = .next (((Carried p.doms s).dropBz k).takeReport p)) ∧
      (s.bzAt k .ctrl = some p → exec (.breezeCtrl k) s = .next ((Carried p.doms s).dropBz k))) ∧
    ((∃ n ∈ p.doms, s.domState n ≠ 0) → (∀ n ∈ p.doms, s.domState n ≠ 5) →
      (s.bzAt k .epoch = some p → exec (.breezeEpoch k) s = .next (Woken p.doms s)) ∧
      (s.bzAt k .report = some p → exec (.breezeReport k) s = .next (Woken p.doms s)) ∧
      (s.bzAt k .ctrl = some p → exec (.breezeCtrl k) s = .next (Woken p.doms s))) ∧
    (∀ g, s.bzAt k .cmd = some p → p.dest = 0x40 + g → s.serves p.dest p.epoch = true → s.domState (unitDom p.dest) ≠ 0 →
      exec (.breezeCmd k) s = .next (s.wakeDomain (unitDom p.dest))) ∧
    (∀ g, s.bzAt k .cmd = some p → p.dest = 0x40 + g → s.serves p.dest p.epoch = false →
      exec (.breezeCmd k) s = .next (((s.dropBz k).bump Reg.MC_STALE_PACKETS 1).launchStale g)) ∧
    (∀ g a e n m, (s.tile g).loading = some (a, e, n, m) → g < 64 →
      let u := s.tileLaunch g
      (u.tile g).g = Vector.replicate 64 0 ∧ (u.tile g).a = Vector.replicate 16 0 ∧ (u.tile g).p = 0 ∧ (u.tile g).cycle = 0 ∧ (u.tile g).sb = [] ∧
      (u.tile g).sp = (s.tile g).sp ∧ (u.tile g).istore = (s.tile g).istore ∧ u.run g = runIdle) ∧
    (s.launchOf (p.src - 0x40) = none → s.takeReport p =
      s.laterFailure (p.src - 0x40) (bits p.beat1 0 8) p.status (bits p.beat1 8 4) (bits p.beat1 12 11)) ∧
    (s.breeze[k]? = some p → p.lost = false → p.retried = false → ∃ u : State,
      u = { s with breeze := s.breeze.set k { p with retried := true, lost := true, lostAt := s.tick } } ∧
      exec (.breezeCrcError k unit) s = .next ((u.correctedPacket p).fabricCorrected 1 unit 0)) ∧
    (s.breeze[k]? = some p → p.lost = false → p.retried = true →
      exec (.breezeCrcError k unit) s = .next ((s.dropBz k).fabricFault 1 (stationDie unit) unit 0)) ∧
    (s.breeze[k]? = some p → p.lost = true → 4 ≤ s.since p.lostAt →
      exec (.breezeResend k) s = .next { s with breeze := s.breeze.set k { p with lost := false } }) ∧
    (s.breeze[k]? = some p → p.lost = false ∨ s.since p.lostAt < 4 → exec (.breezeResend k) s = .next s)

/-! ### Links -/

/-- What arrives on a link and what a slot sends (R356, R360, R368, R375, R538). -/
def Obligations.LinkFlitsReceivedAndSent : Prop :=
  ∀ (link : Fin 64) (b : List Byte) (fec : Nat) (frame : Word) (slot : Fin 150) (s : State), s.phase = .ready →
    (s.linkUp link.val = true → s.domState (80 + link.val / 16) = 0 → flitCrcOk b = false →
      Answers (.linkFlitReceive link b false fec frame slot) s (fun t =>
        (t.link link.val).nak = true ∧ (t.link link.val).rxSeq = (s.link link.val).rxSeq ∧ t.flits = s.flits ∧
        KeepsRegs [Reg.LNK_ERR_FECSYM link.val] s t)) ∧
    (s.linkState link.val = lnkActive → s.domState (80 + link.val / 16) = 0 → flitCrcOk b = true → (LHead.parse b).nak = false →
      (LHead.parse b).valid = true → ((LHead.parse b).fseq + 8191 - (s.link link.val).rxSeq) % 4096 = 0 → (LFlit.parse b).vc = 0 →
      (LFlit.parse b).dmod = s.modNum → 10 * s.tick.toNat ≤ 10 * frame.toNat + 68 * slot.val + 10 * s.get Reg.LNK_DOM_CFG_HOLD →
      Answers (.linkFlitReceive link b false fec frame slot) s (fun t => (t.link link.val).rxSeq = (LHead.parse b).fseq ∧
        (t.link link.val).held = (s.link link.val).held ++ [(10 * frame.toNat + 68 * slot.val + 10 * s.get Reg.LNK_DOM_CFG_HOLD, LFlit.parse b)] ∧
        t.flits = s.flits)) ∧
    (∀ u, s.linkUp link.val = false → exec (.linkFlitReceive link b u fec frame slot) s = .next s) ∧
    (∀ due f l, (s.link link.val).held = (due, f) :: l →
      (10 * s.tick.toNat < due → exec (.linkFlitRelease link) s = .next s) ∧
      (due ≤ 10 * s.tick.toNat → s.linkState link.val ≠ lnkFenced → exec (.linkFlitRelease link) s =
        .next ((s.modLink link.val (fun x => { x with held := l })).deliver link.val f)) ∧
      (due ≤ 10 * s.tick.toNat → s.linkState link.val = lnkFenced → exec (.linkFlitRelease link) s =
        .next ((s.modLink link.val (fun x => { x with held := l })).bump (Reg.LNK_LATE_DISCARD link.val) 1))) ∧
    (s.linkUp link.val = true → exec (.linkLossOfLock link) s = .next (s.linkToDown link.val causeLoss).syncDomMap) ∧
    (∀ cause, ∃ u : State, s.linkToDown link.val cause = u.setLinkFor (s.hitBy link.val) stLinkDown link.val lnkDown cause ∧
      u.get (Reg.LNK_QUAL_RXQUAL link.val) = 0 ∧ u.get (Reg.LNK_QUAL_TXQUAL link.val) = 0 ∧ (u.link link.val).kept = [] ∧ (u.link link.val).q0 = [] ∧
      (u.link link.val).q1 = []) ∧
    (∀ hits status st cause, hits = [] → (s.setLinkFor hits status link.val st cause).linkState link.val = st % 16 ∧
      (s.setLinkFor hits status link.val st cause).get (Reg.LNK_STATUS_CAUSE link.val) = cause % 16) ∧
    (∀ loopOk, s.linkState link.val = lnkDown → 10000 ≤ s.since (s.link link.val).downAt →
      ((s.link link.val).loopback = true → loopOk = false → exec (.linkRetryTimer link loopOk) s = .next (s.excludePort link.val)) ∧
      ((s.link link.val).loopback = false ∨ loopOk = true → ∃ u, u = s.modLink link.val (fun l => { l with loopback := false }) ∧
        (s.linkCause link.val = none → exec (.linkRetryTimer link loopOk) s = .next (u.linkToTrain link.val) ∧
          (u.linkToTrain link.val).linkState link.val = lnkTrain) ∧
        (∀ c, s.linkCause link.val = some c → exec (.linkRetryTimer link loopOk) s = .next (u.linkDisable link.val c)))) ∧
    (∀ loopOk, s.linkState link.val = lnkDown → s.since (s.link link.val).downAt < 10000 → exec (.linkRetryTimer link loopOk) s = .next s) ∧
    (lnkQualify ≤ s.linkState link.val → s.linkState link.val ≤ lnkFenced → (s.link link.val).lastSlot ≠ s.slotNow + 1 →
      Answers (.linkSlot link) s (fun t => ∃ pre bytes, t.out = pre ++ [.linkFlit link.val (s.slotNow % 150) bytes])) ∧
    (s.linkState link.val < lnkQualify ∨ lnkFenced < s.linkState link.val → exec (.linkSlot link) s = .next s)

/-- What each control word that arrives does (R362, R368, R369, R370, R373, R377, R381). -/
def Obligations.ControlWordsAct : Prop :=
  ∀ (link : Fin 64) (part : BitVec 4) (body : BitVec 112) (stamp : Nat) (s : State),
    (s.linkState link.val = lnkActive →
      exec (.qual link part body) s = .next (s.set (Reg.LNK_QUAL_TXQUAL link.val) (b2n (body.getLsbD 0))) ∧
      (∀ d : Ident, d.mod = bits body.toNat 0 6 → d.link = bits body.toNat 6 6 → d.n = bits body.toNat 12 7 →
        d.p31 = bitAt body.toNat 19 → d.spare = bitAt body.toNat 20 → d.target = bits body.toNat 21 6 → d.serial = bits body.toNat 27 64 →
        d.lambda = bits body.toNat 91 16 →
        ((s.link link.val).ident ≠ some d →
          exec (.ident link part body) s = .next ((s.modLink link.val (fun l => { l with ident := some d })).judge link.val)) ∧
        ((s.link link.val).ident = some d → exec (.ident link part body) s = .next s.syncDomMap)) ∧
      (part.toNat ≤ 3 → (s.link link.val).digest = [] → exec (.digest link part body) s =
        .next (s.modLink link.val (fun l => { l with digest := [(part.toNat, body.toNat % 2 ^ 96)] }))) ∧
      (Answers (.time link part body stamp) s (fun t => (t.link link.val).rxStamp = stamp ∧ KeepsRegs [Reg.LNK_TIME_OFFSET link.val] s t ∧
        ∃ θ, (t.link link.val).thetas = ((s.link link.val).thetas ++ [θ]).drop ((s.link link.val).thetas.length + 1 - 8))) ∧
      (Answers (.upmap link part body) s (fun t =>
        ∃ u, (t.link link.val).up = some u ∧ u.active = bits body.toNat 0 64 ∧ u.master = bits body.toNat 64 6 ∧
          u.synced = bitAt body.toNat 70 ∧ u.isMaster = bitAt body.toNat 71)) ∧
      (∀ a b c, part = 3 → s.domain.parts = [(link.val, 0, a), (link.val, 1, b), (link.val, 2, c)] → Answers (.map link part body) s (fun t =>
        t.peerMap (s.get (Reg.LNK_STATUS_PEERMOD link.val)) (bits a 0 5) = ⟨bits a 5 16, bits a 21 64,
          b + 2 ^ 112 * c + 2 ^ 224 * bits body.toNat 0 32, bits body.toNat 32 12, bits body.toNat 44 13⟩ ∧
        t.domain.parts = [] ∧ t.regs = s.regs))) ∧
    (s.linkUp link.val = true → exec (.down link part body) s = .next (s.linkToDown link.val causePeerDown).syncDomMap) ∧
    (s.linkUp link.val = true → s.joined = true → s.get (Reg.LNK_STATUS_PEERMOD link.val) = s.get Reg.LNK_DOM_TIME_MASTER →
      (body.getLsbD 6 = true → bits body.toNat 0 6 = s.modNum → exec (.fenceControlWord link part body) s = .next (s.tellDomain s.fenceSelf)) ∧
      (body.getLsbD 6 = true → bits body.toNat 0 6 ≠ s.modNum → exec (.fenceControlWord link part body) s =
        .next (s.tellDomain (s.fencePeer (bits body.toNat 0 6)))) ∧
      (body.getLsbD 6 = false → exec (.fenceControlWord link part body) s = .next (s.tellDomain (s.liftFence (bits body.toNat 0 6))))) ∧
    (s.linkUp link.val = false ∨ s.get (Reg.LNK_STATUS_PEERMOD link.val) ≠ s.get Reg.LNK_DOM_TIME_MASTER →
      exec (.fenceControlWord link part body) s = .next s) ∧
    (s.linkState link.val < lnkQualify → exec (.qual link part body) s = .next s ∧ exec (.ident link part body) s = .next s ∧
      exec (.digest link part body) s = .next s ∧ exec (.time link part body stamp) s = .next s ∧ exec (.upmap link part body) s = .next s ∧
      exec (.map link part body) s = .next s ∧ exec (.down link part body) s = .next s)

/-- The registers that command a link or the domain, and the frame boundary (R367, R370, R371, R376, R382, R389, R390, R577). -/
def Obligations.DomainRegistersAct : Prop :=
  ∀ (link : Fin 64) (part : Part) (v : Word) (s : State), s.phase = .ready →
    (link.val < 63 → s.linkState link.val ≠ lnkDown → ∃ u,
      exec (.linkEnableWrite link false) s = .next ((u.linkSettle link.val).syncDomMap) ∧ u = s.set (Reg.LNK_CTL_EN link.val) 0 ∧
      ∃ c, u.linkCause link.val = some c) ∧
    (link.val < 63 → s.linkState link.val = lnkDown →
      exec (.linkEnableWrite link false) s = .next (s.set (Reg.LNK_CTL_EN link.val) 0).syncDomMap) ∧
    (link.val < 63 → s.linkUp link.val = true → s.linkCause link.val = none → s.get (Reg.LNK_CTL_EN link.val) = 1 → ∃ u,
      u = s.set (Reg.LNK_CTL_EN link.val) 1 ∧
      exec (.linkRetrain link) s = .next (((u.sendDown link.val 4).linkToDown link.val 0).syncDomMap)) ∧
    (s.get (Reg.LNK_CTL_SPAREEN 63) = 1 → v.getLsbD 14 = true → exec (.spareConfigWrite v) s =
      .next (s.logRefused (Reg.LNK_CTL_EN 63).off 0 v.toNat)) ∧
    (s.get (Reg.LNK_CTL_SPAREEN 63) = 0 → s.linkState 63 = lnkDown → Answers (.spareConfigWrite v) s (fun t =>
      t.get (Reg.LNK_CTL_EN 63) = bits v.toNat 0 1 ∧ t.get (Reg.LNK_CTL_SPAREPEER 63) = bits v.toNat 8 6 ∧
      t.get (Reg.LNK_CTL_SPAREEN 63) = bits v.toNat 14 1 ∧ t.get (Reg.LNK_CTL_SPAREMEMBER 63) = bits v.toNat 16 6)) ∧
    (s.domCfgRefused (partOf (s.wordOf (Reg.row_LNK_DOM_CFG.fields 0 0)) part v) = true →
      exec (.domainEnWrite part v) s = .next (s.logRefused Reg.LNK_DOM_CFG_EN.off 0 v.toNat)) ∧
    (s.joined = true → bits v.toNat 0 6 ≠ s.modNum ∨ bits v.toNat 6 7 ≠ s.domN ∨ bits v.toNat 16 9 ≠ s.get Reg.LNK_DOM_CFG_HOLD →
      exec (.domainEnWrite .whole v) s = .next (s.logRefused Reg.LNK_DOM_CFG_EN.off 0 v.toNat)) ∧
    (s.joined = false → s.get Reg.ID_VARIANT_MAXDOMAIN = 64 → s.get Reg.ID_VARIANT_LINKS = 64 → bits v.toNat 0 6 < bits v.toNat 6 7 →
      2 ≤ bits v.toNat 6 7 → bits v.toNat 6 7 ≤ 64 → bits v.toNat 13 1 = 0 → 100 ≤ bits v.toNat 16 9 → bits v.toNat 16 9 ≤ 400 →
      bits v.toNat 32 1 = 1 → bits v.toNat 33 1 = 0 → ∃ u : State, exec (.domainEnWrite .whole v) s = .next (s.tellDomain u.joinDomain) ∧
        u.get Reg.LNK_DOM_CFG_MODNUM = bits v.toNat 0 6 ∧ u.get Reg.LNK_DOM_CFG_N = bits v.toNat 6 7 ∧
        u.get Reg.LNK_DOM_CFG_HOLD = bits v.toNat 16 9 ∧ u.get Reg.LNK_DOM_CFG_P31 = 0) ∧
    (s.get Reg.LNK_DOM_TIME_FENCED = 1 → exec .domainRejoin s = .next { s with domain := { s.domain with rejoin := true } }) ∧
    (s.get Reg.LNK_DOM_TIME_FENCED = 0 → exec .domainRejoin s = .next s) ∧
    (s.tick.toNat % 1020 ≠ 0 ∨ s.joined = false → exec .frameBoundary s = .next s) ∧
    (s.tick.toNat % 1020 = 0 → s.joined = true → s.chooseMaster.on Reg.LNK_DOM_TIME_ISMASTER = false → exec .frameBoundary s =
      .next (s.tellDomain ((List.range 64).foldl (fun s j => if s.linkState j = lnkIdentify then s.identify j else s)
        s.chooseMaster.follow.swapSpare).syncDomMap)) ∧
    (s.tick.toNat % 1020 = 0 → s.joined = true → s.chooseMaster.on Reg.LNK_DOM_TIME_ISMASTER = true → exec .frameBoundary s =
      .next (s.tellDomain ((List.range 64).foldl (fun s j => if s.linkState j = lnkIdentify then s.identify j else s)
        (((List.range 64).filter (fun m => m < s.chooseMaster.domN && m ≠ s.chooseMaster.modNum)).foldl (fun s m => s.measure m)
          s.chooseMaster).swapSpare).syncDomMap)) ∧
    (∀ m, lowest ((s.candidates.filter (·.2)).map (·.1)) = some m → s.chooseMaster.get Reg.LNK_DOM_TIME_MASTER = m % 64 ∧
      (s.chooseMaster.on Reg.LNK_DOM_TIME_ISMASTER = true ↔ m = s.modNum))

/-! ### Rings -/

/-- The command `c` of a ring is dispatched, has the opcode and its tenancy's present epoch, and the module serves. -/
abbrev Sys2Proof.Dispatched (f r : Nat) (idx : BitVec 32) (op : Nat) (c : RingCmd) (s : State) : Prop :=
  s.phase = .ready ∧ s.cmd f r idx.toNat = some c ∧ c.op = op ∧ c.st = .dispatched ∧ c.epoch = s.epoch (0xC0 + f)

/-- The command `c` of a ring is under way. -/
abbrev Sys2Proof.UnderWay (f r : Nat) (idx : BitVec 32) (op : Nat) (c : RingCmd) (s : State) : Prop :=
  s.phase = .ready ∧ s.cmd f r idx.toNat = some c ∧ c.op = op ∧ c.st = .running

/-- A ring's doorbell record is read when its interval is over, its counts are checked, descriptors join the ring in order and are
dispatched with the tenancy's epoch (R406, R407, R408, R410, R423). -/
def Obligations.RingsPollFetchDispatch : Prop :=
  ∀ (func : Fin 17) (ring : Fin 16) (bs : List Byte) (c : RingCmd) (s : State), ∃ f r, f = func.val ∧ r = ring.val ∧
    (s.ringServed f r = true → (s.ring f r).reading = false → (s.ring f r).due = s.tick → s.polls.1.toNat ≠ s.tick.toNat / 1000 →
      s.polledFirst f r = false → Answers (.doorbellPoll func ring) s (fun t =>
        (t.ring f r).reading = true ∧ t.out = s.out ++ [.hostRead f (64 * s.get (Reg.RING_DBADDR_ADDR f r)) 8] ∧ t.regs = s.regs)) ∧
    (s.tick.toNat < (s.ring f r).due.toNat → exec (.doorbellPoll func ring) s = .next s) ∧
    (s.ringServed f r = true → (s.ring f r).reading = true → exec (.doorbellReadDone func ring .failed) s = .next (s.ringFail f r stAbortedHost)) ∧
    (s.ringServed f r = true → (s.ring f r).reading = true →
      2 ^ s.get (Reg.RING_SIZE_CMDLOG2 f r) < (leAt bs 0 4 + 2 ^ 32 - s.get (Reg.RING_STATE_CHEAD f r)) % 2 ^ 32 →
      exec (.doorbellReadDone func ring (.data bs)) s = .next (s.ringFail f r stBadDescriptor)) ∧
    (∀ st, (s.ringFail f r st).ringState f r = ringError) ∧
    ((s.ring f r).reading = false → ∀ res, exec (.doorbellReadDone func ring res) s = .next s) ∧
    ((s.ring f r).fetching = 0 → ∀ res, exec (.descriptorFetchDone func ring res) s = .next s) ∧
    (s.ringServed f r = true → (s.ring f r).reading = true → s.frost = .awake →
      (leAt bs 0 4 + 2 ^ 32 - s.get (Reg.RING_STATE_CHEAD f r)) % 2 ^ 32 ≤ 2 ^ s.get (Reg.RING_SIZE_CMDLOG2 f r) →
      (s.get (Reg.RING_COUNT_CWRITTEN f r) + 2 ^ 32 - leAt bs 4 4) % 2 ^ 32 ≤ 2 ^ s.get (Reg.RING_SIZE_CPLLOG2 f r) →
      (∀ q < 16, (s.ring f q).cpls = [] ∧ s.ringState f q ≠ ringStopping) →
      Answers (.doorbellReadDone func ring (.data bs)) s (fun t =>
        (t.ring f r).ctail = leAt bs 0 4 ∧ (t.ring f r).rhead = leAt bs 4 4 ∧ (t.ring f r).reading = false ∧
        (t.ring f r).cmds = (s.ring f r).cmds ∧ KeepsRegs [Reg.RING_POLLSTAT_CURRENT f r] s t ∧
        (leAt bs 0 4 ≠ (s.ring f r).ctail → t.get (Reg.RING_POLLSTAT_CURRENT f r) = s.get (Reg.RING_POLL_MIN f r) % 2 ^ (Reg.RING_POLLSTAT_CURRENT f r).width))) ∧
    (s.ringServed f r = true → (s.ring f r).fetching ≠ 0 → exec (.descriptorFetchDone func ring .failed) s =
      .next ((s.modRing f r (fun x => { x with fetching := 0 })).ringFail f r stAbortedHost)) ∧
    (s.ringServed f r = true → (s.ring f r).fetching = 1 → (s.ring f r).early = [] → badFormat (bs.take 64) = false → leAt (bs.take 64) 0 1 = 1 →
      zeroBytes (bs.take 64) 8 64 = true → Answers (.descriptorFetchDone func ring (.data bs)) s (fun t =>
        (t.ring f r).cmds = (s.ring f r).cmds ++ [{ idx := s.get (Reg.RING_STATE_CHEAD f r) % 2 ^ 32, desc := bs.take 64, epoch := s.epoch (0xC0 + f) }] ∧
        t.get (Reg.RING_STATE_CHEAD f r) = (s.get (Reg.RING_STATE_CHEAD f r) + 1) % 2 ^ 32)) ∧
    ((s.ring f r).cmds.find? (fun c => c.st == .fetched && c.op != 3) = some c → s.cmd f r c.idx = some c → s.phase = .ready →
      s.frost = .awake → s.ringState f r = ringRunning ∨ s.ringState f r = ringError → s.abortWaits f = false → s.ideBlocked f r = false → s.mustWait f r c = false →
      (c.epoch = s.epoch (0xC0 + f) → Answers (.commandDispatch func ring) s (fun t =>
        t.cmd f r c.idx = some { c with st := .dispatched, start := s.tick, stamp := (s.targetUnits c).map (fun u => (u, s.heldEpoch u)) } ∧
        t.get (Reg.RING_COUNT_INFLIGHT f r) = (s.get (Reg.RING_COUNT_INFLIGHT f r) + 1) % 2 ^ 17)) ∧
      (c.epoch ≠ s.epoch (0xC0 + f) → exec (.commandDispatch func ring) s =
        .next ((s.endCmd f r { c with fail := some { status := stAbortedEpoch } } stAbortedEpoch 0).askFetch f r))) ∧
    ((s.ring f r).cmds.find? (fun c => c.st == .fetched && c.op != 3) = some c → s.mustWait f r c = true ∨ s.frost ≠ .awake →
      exec (.commandDispatch func ring) s = .next s)

/-- A NOP's completion record is written at the next slot of the completion ring, with the command's tag and index (R405, R412, R423). -/
def Obligations.NopWritesItsCompletion : Prop :=
  ∀ (func : Fin 17) (ring : Fin 16) (idx : BitVec 32) (c : RingCmd) (s : State), Dispatched func.val ring.val idx 0x01 c s →
    c.fail = none → c.corrected = false → c.warned = false → c.abortedBy = [] → c.pairs = [] → (s.ten func.val).destroying = false →
    s.ideBlocked func.val ring.val = false → s.ringState func.val ring.val = ringRunning → s.get (Reg.RING_CTL_IRQEN func.val ring.val) = 0 →
    s.unread func.val ring.val < 2 ^ s.get (Reg.RING_SIZE_CPLLOG2 func.val ring.val) →
    (∀ q < 16, (s.ring func.val q).cpls = [] ∧ (q ≠ ring.val → s.ringState func.val q ≠ ringStopping)) →
    Answers (.nop func ring idx) s (fun t =>
      t.out = s.out ++ [.hostWrite func.val (64 * s.get (Reg.RING_CPLBASE_ADDR func.val ring.val) +
          32 * (s.get (Reg.RING_COUNT_CWRITTEN func.val ring.val) % 2 ^ s.get (Reg.RING_SIZE_CPLLOG2 func.val ring.val)))
        (cplRecord s ring.val (s.get (Reg.RING_COUNT_CWRITTEN func.val ring.val)) (s.get (Reg.RING_SIZE_CPLLOG2 func.val ring.val))
          { status := stOK, opcode := 0x01, tag := slice c.desc 4 4, idx := c.idx, irq := bitAt (leAt c.desc 1 1) 1, event := c.logged })] ∧
      t.get (Reg.RING_COUNT_CWRITTEN func.val ring.val) = (s.get (Reg.RING_COUNT_CWRITTEN func.val ring.val) + 1) % 2 ^ 32 ∧
      (t.ring func.val ring.val).cmds = (s.ring func.val ring.val).cmds.filter (fun d => d.idx != c.idx) ∧
      t.hbm = s.hbm ∧ t.tiles = s.tiles)

/-- NOP, ALLOC, FREE, SIGNALQ, WAITQ and the copies (R394, R412, R414, R416, R447, R450, R451). -/
def Obligations.RingCommandsComplete : Prop :=
  ∀ (func : Fin 17) (ring : Fin 16) (idx : BitVec 32) (c : RingCmd) (bs : List Byte) (s : State), ∃ f r, f = func.val ∧ r = ring.val ∧
    (Dispatched f r idx 0x01 c s → exec (.nop func ring idx) s = .next (s.endCmd f r c stOK 0)) ∧
    (∀ i gs, Dispatched f r idx 0x10 c s → s.freeSlot = some i → s.buffersBusy f = false →
      gs = ((List.range 256).filter (s.granFree (leAt c.desc 12 1) (leAt c.desc 13 1))).take (leAt c.desc 8 4) → gs.length = leAt c.desc 8 4 →
      s.granCount f + leAt c.desc 8 4 ≤ s.get (Reg.TN_CFG_GRANQ f) → s.liveHandles f + 1 ≤ s.get (Reg.TN_CFG_BUFQ f) →
      Answers (.alloc func ring idx none) s (fun t => (t.handle i).live = true ∧ (t.handle i).owner = f ∧ (t.handle i).grans = gs ∧
        (∀ G ∈ gs, t.granOwner G = f) ∧ (∀ G, G ∉ gs → t.granOwner G = s.granOwner G) ∧
        ∀ a, spGet ramByte t.hbm a = if a / 2 ^ 30 ∈ gs then 0 else spGet ramByte s.hbm a)) ∧
    (∀ i, Dispatched f r idx 0x10 c s → s.freeSlot = some i → s.get (Reg.TN_CFG_BUFQ f) < s.liveHandles f + 1 →
      exec (.alloc func ring idx none) s = .next (s.noResource f r c)) ∧
    (∀ h, Dispatched f r idx 0x11 c s → h = leAt c.desc 8 8 → s.handleCheck f h true = none → s.buffersBusy f = false →
      s.get (Reg.TN_SAVE_HANDLE f) ≠ h → Answers (.free func ring idx) s (fun t => (t.handle (h % 4096)).live = false ∧ t.hbm = s.hbm ∧
        ∀ G ∈ (s.handle (h % 4096)).grans, G < 256 → t.granOwner G = 31)) ∧
    (∀ st, Dispatched f r idx 0x11 c s → s.handleCheck f (leAt c.desc 8 8) true = some st → exec (.free func ring idx) s = .next (s.rejectCmd f r c st)) ∧
    (Dispatched f r idx 0x12 c s → s.copyHeld c = false → exec (.copyin func ring idx) s =
      .next ((s.modCmd f r c.idx (fun c => { c with st := .running })).emit (.hostRead f c.cHost c.hostChunk))) ∧
    (Dispatched f r idx 0x13 c s → s.copyHeld c = false → exec (.copyout func ring idx) s =
      .next ((s.modCmd f r c.idx (fun c => { c with st := .running })).copyPump f r c.idx 16)) ∧
    (UnderWay f r idx 0x13 c s → c.cLen ≤ c.cursor → c.owed = 0 → exec (.copyDone func ring idx) s = .next (s.endCmd f r c stOK c.moved)) ∧
    (UnderWay f r idx 0x12 c s → c.cLen ≤ c.cursor → c.owed = 0 → exec (.copyDone func ring idx) s =
      .next ((s.hostToken f (leAt c.desc 36 4) (leAt c.desc 40 3)).endCmd f r c stOK c.moved)) ∧
    (UnderWay f r idx 0x12 c s ∨ UnderWay f r idx 0x13 c s → c.owed ≠ 0 ∨ c.cursor < c.cLen → exec (.copyDone func ring idx) s = .next s) ∧
    (UnderWay f r idx 0x32 c s ∨ (UnderWay f r idx 0x12 c s ∧ c.cursor < c.cLen) →
      exec (.hostReadCompletion func ring idx .failed) s = .next (s.cutCmd f r 0 stAbortedHost c) ∧
      exec (.hostCompletionTimeout func ring idx) s = .next (s.cutCmd f r 0 stAbortedHost c)) ∧
    (UnderWay f r idx 0x32 c s → exec (.hostReadCompletion func ring idx (.data bs)) s = .next (s.dbgBytes f r bs c)) ∧
    (UnderWay f r idx 0x32 c s → bs.length = leAt c.desc 16 4 → s.debugReadable (s.dbgTile c) = true → s.dbgBytes f r bs c =
      (s.writeDebugBytes (s.dbgTile c) (leAt c.desc 9 1) (leAt c.desc 12 4) bs).endCmd f r c stOK bs.length) ∧
    (s.cmd f r idx.toNat = none → (s.ring f r).reading = true → exec (.hostCompletionTimeout func ring idx) s = .next (s.ringFail f r stAbortedHost)) ∧
    (UnderWay f r idx 0x12 c s → bs.length = c.hostChunk → c.hostChunk ≠ 0 → exec (.hostReadCompletion func ring idx (.data bs)) s =
      .next (s.copyBytes f r bs c)) ∧
    (∀ p, Dispatched f r idx 0x20 c s → s.tnState f = 2 → s.unitHeld 0x19 = false → p = { kind := .signal, pool := true, queue := leAt c.desc 8 2, tile := 0, src := .ring f false, tenancy := f, count := leAt c.desc 12 3, epoch := s.heldEpoch (0xC0 + f) } →
      exec (.signalq func ring idx) s = .next ((s.sendIso p).endCmd f r c stOK 0)) ∧
    (Dispatched f r idx 0x21 c s → s.unitHeld 0x19 = false → exec (.waitq func ring idx) s =
      .next (s.modCmd f r c.idx (fun c => { c with st := .running }))) ∧
    (UnderWay f r idx 0x21 c s → s.since c.start % 1000 = 0 → leAt c.desc 12 3 ≤ (s.pq (leAt c.desc 8 2)).value.toNat →
      exec (.waitqPoll func ring idx) s = .next (s.endCmd f r c stOK (s.pq (leAt c.desc 8 2)).value.toNat)) ∧
    (UnderWay f r idx 0x21 c s → (s.pq (leAt c.desc 8 2)).value.toNat < leAt c.desc 12 3 →
      s.since c.start < 10000 * s.get (Reg.PQ_TNCFG_TIMEOUT f) → exec (.waitqPoll func ring idx) s = .next s)

/-- The debug commands act on their tile and complete with TILE_STATE, or move words (R191, R192, R193, R415). -/
def Obligations.DebugCommandsComplete : Prop :=
  ∀ (func : Fin 17) (ring : Fin 16) (idx : BitVec 32) (c : RingCmd) (s : State), s.tileUsable (s.dbgTile c) = true →
    s.domState (s.dbgTile c) = 0 → ∃ f r g, f = func.val ∧ r = ring.val ∧ g = s.dbgTile c ∧
    (Dispatched f r idx 0x30 c s → s.tnPinned f = false →
      (leAt c.desc 9 1 = 0 → exec (.dbgctlHalt func ring idx) s = .next ((s.debugHalt g).endCmd f r c stOK ((s.debugHalt g).tileStateWord g))) ∧
      (leAt c.desc 9 1 = 2 → exec (.dbgctlStep func ring idx) s = .next ((s.debugGo g true).endCmd f r c stOK ((s.debugGo g true).tileStateWord g)))) ∧
    (Dispatched f r idx 0x30 c s → s.tnPinned f = true →
      (leAt c.desc 9 1 = 0 → exec (.dbgctlHalt func ring idx) s = .next (s.noResource f r c)) ∧
      (leAt c.desc 9 1 = 2 → exec (.dbgctlStep func ring idx) s = .next (s.noResource f r c))) ∧
    (Dispatched f r idx 0x30 c s →
      (leAt c.desc 9 1 = 1 → exec (.dbgctlResume func ring idx) s = .next ((s.debugGo g false).endCmd f r c stOK ((s.debugGo g false).tileStateWord g))) ∧
      (leAt c.desc 9 1 = 3 → ∃ u, u = s.set (Reg.TILE_DBG_CTL_ARM g) 1 ∧ exec (.dbgctlArm func ring idx) s = .next (u.endCmd f r c stOK (u.tileStateWord g))) ∧
      (leAt c.desc 9 1 = 4 → ∃ u, u = s.set (Reg.TILE_DBG_CTL_ARM g) 0 ∧
        exec (.dbgctlDisarm func ring idx) s = .next (u.endCmd f r c stOK (u.tileStateWord g)))) ∧
    (Dispatched f r idx 0x31 c s → s.debugReadable g = true → leAt c.desc 16 4 ≠ 0 → exec (.dbgread func ring idx) s =
      .next ((s.emit (.hostWrite f (leAt c.desc 24 8) (s.debugBytes g (leAt c.desc 9 1) (leAt c.desc 12 4) (leAt c.desc 16 4)) (s.relaxed f r))).endCmd
        f r c stOK (leAt c.desc 16 4))) ∧
    (Dispatched f r idx 0x31 c s → s.debugReadable g = false → exec (.dbgread func ring idx) s = .next (s.noResource f r c)) ∧
    (Dispatched f r idx 0x32 c s → s.debugReadable g = true → leAt c.desc 16 4 ≠ 0 → exec (.dbgwrite func ring idx) s =
      .next ((s.modCmd f r c.idx (fun c => { c with st := .running })).emit (.hostRead f (leAt c.desc 24 8) (leAt c.desc 16 4)))) ∧
    (Dispatched f r idx 0x32 c s → s.debugReadable g = false → exec (.dbgwrite func ring idx) s = .next (s.noResource f r c)) ∧
    (s.run g = runRunning → (s.tile g).halting = false → s.inTake g = false → g < 64 → (s.debugHalt g).run g = runDebug) ∧
    (s.run g = runDebug → g < 64 → (s.debugGo g false).run g = runRunning ∧ ((s.debugGo g false).tile g).stepping = false ∧
      ((s.debugGo g true).tile g).stepping = true)

/-- LAUNCH, its common start and its end, the Rime commands and ABORT (R55, R411, R413, R421, R424, R473, R475). -/
def Obligations.LaunchesRun : Prop :=
  ∀ (func : Fin 17) (ring : Fin 16) (idx : BitVec 32) (c : RingCmd) (s : State), ∃ f r, f = func.val ∧ r = ring.val ∧
    (∀ hd base blen h tt pt x, Dispatched f r idx 0x02 c s → hd = leAt c.desc 8 8 → base = leAt c.desc 16 8 →
      blen = (s.handleGrans hd).length * 2 ^ 30 → h = s.bufRead hd base 256 →
      tt = s.bufRead hd (base + ((imageTables h).getD 0 (0, 0)).1) ((imageTables h).getD 0 (0, 0)).2 →
      pt = s.bufRead hd (base + ((imageTables h).getD 1 (0, 0)).1) ((imageTables h).getD 1 (0, 0)).2 →
      x = s.bufRead hd (base + ((imageTables h).getD 2 (0, 0)).1) ((imageTables h).getD 2 (0, 0)).2 →
      (blen < base + 256 → exec (.launch func ring idx) s = .next (s.failCheck f r c stBounds)) ∧
      (base + 256 ≤ blen → s.bufPoisoned hd base 256 = true → exec (.launch func ring idx) s = .next (s.failCheck f r c stUncorrected)) ∧
      (base + 256 ≤ blen → s.bufPoisoned hd base 256 = false → badHeader h = true → exec (.launch func ring idx) s = .next (s.failCheck f r c stBadDescriptor)) ∧
      (base + 256 ≤ blen → s.bufPoisoned hd base 256 = false → badHeader h = false →
        (∀ t ∈ imageTables h, base + t.1 + t.2 ≤ blen → s.bufPoisoned hd (base + t.1) t.2 = false) →
        (∀ st, s.checkImage f base blen h tt pt x = some st → exec (.launch func ring idx) s = .next (s.failCheck f r c st)) ∧
        (s.checkImage f base blen h tt pt x = none → ∃ u, exec (.launch func ring idx) s = .next (u.sendLaunch f r c base h tt) ∧
          ∃ d, u = ((s.yieldTiles f (hPlacement h)).installImage f h pt x).modCmd f r c.idx d ∧ (d c).st = .running ∧ (d c).place = hPlacement h ∧ (d c).pairs = hPairs h ∧
            (d c).sched = hSched h))) ∧
    (∀ h tt, (s.sendLaunch f r c 0 h tt).breeze.length = s.breeze.length +
      min (bitList 64 (hPlacement h)).length (entries16 (bitList 64 (hPlacement h)).length tt).length) ∧
    (UnderWay f r idx 0x02 c s → c.sched = true → c.common = none → s.loadedAll f c = true → Answers (.prewarm func ring idx) s (fun t =>
      (∀ k g, (bitList 64 c.place)[k]? = some g → ∀ q < 4, ((t.tile g).panel q).ramp =
        some (c.load, BitVec.ofNat 64 (prewarmAt s.tick.toNat k (s.ten f).slew), prewarmNs c.load (s.ten f).slew)) ∧
      t.cmd f r idx.toNat = some { c with common := some (BitVec.ofNat 64 (commonTick s.tick.toNat (bitList 64 c.place).length (s.ten f).slew c.load)) } ∧
      t.hbm = s.hbm)) ∧
    (∀ tk, UnderWay f r idx 0x02 c s → c.common = some tk → s.tick ≠ tk ∨ s.loadedAll f c = false → exec (.pinnedCommonStart func ring idx) s = .next s) ∧
    (∀ tk, UnderWay f r idx 0x02 c s → c.common = some tk → s.tick = tk → s.loadedAll f c = true →
      exec (.pinnedCommonStart func ring idx) s = .next ((bitList 64 c.place).foldl (fun s g => s.startTile g) s)) ∧
    (UnderWay f r idx 0x02 c s → (∀ g ∈ bitList 64 c.place, s.tileBusy g = false ∧ ∀ p ∈ s.breeze, p.kind = .report → p.src ≠ 0x40 + g) →
      exec (.launchComplete func ring idx) s = .next ((s.endCmd f r c stOK (s.issuedOf c)).settleExclusions)) ∧
    (UnderWay f r idx 0x02 c s → (∃ g ∈ bitList 64 c.place, s.tileBusy g = true ∨ ∃ p ∈ s.breeze, p.kind = .report ∧ p.src = 0x40 + g) →
      exec (.launchComplete func ring idx) s = .next s) ∧
    (∀ d, d = leAt c.desc 8 1 % 4 → 23 * popCount 4 (s.get (Reg.TN_CFG_RIME f)) ≤ s.get (Reg.PWR_TNCAP_CAP f) → (s.get Reg.TN_ISO_CLAIMED = 0 ∨ s.get (Reg.TN_CFG_MODE f) = 0) →
      s.rimeOut d = false → ∃ u : Nat → State,
        (∀ op, (u op).breeze = s.breeze ++ [{ kind := .cmd, dest := 0x10 + d, src := 0x01, func := f, epoch := s.stampOf c (0x10 + d), beat1 := op + 256 * r + 2 ^ 16 * c.idx }] ∧ (u op).hbm = s.hbm ∧ (u op).regs = s.regs) ∧
        (Dispatched f r idx 0x50 c s → exec (.rkeyload func ring idx) s = .next (u 0x50)) ∧
        (Dispatched f r idx 0x51 c s → exec (.rrefresh func ring idx) s = .next (u 0x51)) ∧
        (Dispatched f r idx 0x52 c s → exec (.rlinear func ring idx) s = .next (u 0x52))) ∧
    (s.get (Reg.PWR_TNCAP_CAP f) < 23 * popCount 4 (s.get (Reg.TN_CFG_RIME f)) →
      (Dispatched f r idx 0x50 c s → exec (.rkeyload func ring idx) s = .next (s.noResource f r c)) ∧
      (Dispatched f r idx 0x51 c s → exec (.rrefresh func ring idx) s = .next (s.noResource f r c)) ∧
      (Dispatched f r idx 0x52 c s → exec (.rlinear func ring idx) s = .next (s.noResource f r c))) ∧
    (s.phase = .ready → s.cmd f r idx.toNat = some c → c.op = 0x03 → c.st = .fetched → exec (.abort func ring idx) s = .next (s.actAbort f r c)) ∧
    (∀ a tr i d, s.cmd f tr i = some d → d.abortedBy = [] → d.st = .running → d.op = 0x02 ∨ d.op = 0x12 ∨ d.op = 0x13 ∨ d.op = 0x21 →
      s.abortCmd f r a tr i = (s.modCmd f tr i (fun _ => { d with abortedBy := [(r, a)] })).cutCmd f tr 0x24 stAbortedHost { d with abortedBy := [(r, a)] }) ∧
    (∀ a tr i, s.cmd f tr i = none → s.abortCmd f r a tr i = s.endAbort f r a stOK)

/-- Ring set-up, interrupts, IDE and the resets of functions (R399, R400, R426, R429, R430, R431, R432, R433). -/
def Obligations.RingRegistersAndResets : Prop :=
  ∀ (func : Fin 17) (ring : Fin 16) (v : Word) (vector : Fin 64) (secure : Bool) (s : State), ∃ f r, f = func.val ∧ r = ring.val ∧
    (∀ t0, (s.ring f r).irqStart = some t0 → s.get (Reg.RING_IRQ_TIME f r) ≠ 0 → 1000 * s.get (Reg.RING_IRQ_TIME f r) ≤ s.since t0 →
      s.get (Reg.RING_CTL_IRQEN f r) = 1 → s.ideBlocked f r = false → exec (.irqTimer func ring) s = .next (s.ringMsix f r)) ∧
    (∀ t0, (s.ring f r).irqStart = some t0 → s.since t0 < 1000 * s.get (Reg.RING_IRQ_TIME f r) → exec (.irqTimer func ring) s = .next s) ∧
    (s.phase = .ready → Answers (.msixUnmask func vector) s (fun t => (t.func f).msix.masked.getLsbD vector.val = false ∧ t.regs = s.regs ∧
      ((s.func f).msix.pending.getLsbD vector.val = false → t.out = s.out) ∧
      ((s.func f).msix.pending.getLsbD vector.val = true → (s.func f).msix.enabled = true → (s.func f).msix.funcMask = false → (s.func f).d3hot = false →
        t.out = s.out ++ [.msix f vector.val] ∧ (t.func f).msix.pending.getLsbD vector.val = false))) ∧
    (s.phase = .ready → s.get (Reg.RING_CTL_EN f r) = 0 → s.ringState f r = ringOff → v.getLsbD 0 = true →
      (s.ringLegal f r (bits v.toNat 8 6) = false → exec (.ringEnable func ring .whole v) s = .next (s.logRefused (Reg.RING_CTL_EN f r).off f v.toNat)) ∧
      (s.ringLegal f r (bits v.toNat 8 6) = true → s.get Reg.TN_ISO_CLAIMED = 0 → v.getLsbD 2 = false →
        Answers (.ringEnable func ring .whole v) s (fun t => t.ringState f r = ringRunning ∧ t.get (Reg.RING_CTL_EN f r) = 1 ∧
          t.get (Reg.RING_STATE_CHEAD f r) = 0 ∧ t.get (Reg.RING_COUNT_CWRITTEN f r) = 0 ∧ t.get (Reg.RING_COUNT_INFLIGHT f r) = 0 ∧
          (t.ring f r).cmds = [] ∧ (t.ring f r).cpls = [] ∧ t.get (Reg.RING_CTL_VECTOR f r) = bits v.toNat 8 6))) ∧
    (s.phase = .ready → s.get (Reg.RING_CTL_EN f r) = 1 → s.ringState f r = ringRunning → v.getLsbD 0 = false →
      s.changesRwl (Reg.row_RING_CTL.fields f r) .whole v = false → (∀ q < 16, (s.ring f q).cmds = [] ∧ (s.ring f q).cpls = []) →
      (s.ring f r).early = [] → Answers (.ringDisable func ring .whole v) s (fun t =>
        t.ringState f r = ringOff ∧ t.get (Reg.RING_CTL_EN f r) = 0 ∧ t.hbm = s.hbm ∧ t.tiles = s.tiles)) ∧
    (bitAt (s.get Reg.RING_IDE_SECURE) f = secure → exec (.ideStateChange func secure) s = .next s) ∧
    (bitAt (s.get Reg.RING_IDE_SECURE) f = false → secure = true → ∃ u, u = s.set Reg.RING_IDE_SECURE (s.get Reg.RING_IDE_SECURE ||| 2 ^ f) ∧
      exec (.ideStateChange func secure) s = .next ((List.range 16).foldl (fun s q => s.ringFollowsIde f q)
        (u.logEvent { kind := 0x11, func := f, tenancy := f, body := [BitVec.ofNat 8 f, 0xFF, 2] }))) ∧
    (s.phase = .ready → f ≠ 0 → Answers (.flrVf func) s (fun t => (∀ q < 16, (t.ring f q).cmds = [] ∧ (t.ring f q).cpls = [] ∧ t.ringState f q = ringOff) ∧
      (t.func f).msix = {} ∧ t.get (Reg.RING_CTL_EN f r) = 0)) ∧
    (f = 0 → exec (.flrVf func) s = .next s) ∧
    (s.phase = .ready → exec .flrPf0 s =
      .next { (List.range 17).foldl (fun s g => s.flr g) (s.bump Reg.RING_HOST_FLRS 1) with vfEnable := false }) ∧
    (s.phase = .ready → ∀ c ∈ [Instr.hotReset, .uncommandedLinkDown], Answers c s (fun t => t = s.conventionalReset ∧ t.vfEnable = false ∧
      t.get Reg.RING_IDE_SECURE = 0 ∧ t.get Reg.RING_HOST_SPEED = 0 ∧ t.get Reg.RING_HOST_WIDTH = 0)) ∧
    (∀ (speed : Fin 4) (width : Fin 32) (flit : Bool), s.phase = .ready → s.pins.perst = false → speed.val ≠ 0 → width.val = 8 ∨ width.val = 16 →
      Answers (.pcieLinkUp speed width flit) s (fun t => t.get Reg.RING_HOST_SPEED = speed.val ∧ t.get Reg.RING_HOST_WIDTH = width.val ∧
        t.get Reg.RING_HOST_FLIT = b2n (flit || speed.val == 3) ∧ KeepsRegs [Reg.RING_HOST_SPEED, Reg.RING_HOST_WIDTH, Reg.RING_HOST_FLIT] s t))

/-! ### Tenancies -/

/-- CREATE, START, STOP, DESTROY and the end of a stop: each runs in the tenancy states that allow it and is refused in the others
(R438, R439, R441, R442, R443, R444, R455). -/
def Obligations.TenancyStepsRun : Prop :=
  ∀ (t : Fin 17) (perm : BitVec 2) (s : State), s.phase = .ready →
    (perm.toNat ≠ 3 → s.tnState t.val = 0 → Answers (.create t perm) s (fun u =>
      u.tnState t.val = 1 ∧ u.get (Reg.TN_STATE_DEBUG t.val) = perm.toNat ∧ (u.ten t.val).key = some s.free ∧ u.free = s.free + 1 ∧
      u.epoch (0xC0 + t.val) = max 1 (s.epoch (0xC0 + t.val)) % 2 ^ 16)) ∧
    (perm.toNat ≠ 3 → s.tnState t.val ≠ 0 → exec (.create t perm) s = .next (s.refuseRequest 0 t.val (1 + 16 * perm.toNat))) ∧
    (perm.toNat = 3 → exec (.create t perm) s = .next (s.logRefused (Reg.TN_CTL_OP t.val).off 0 49)) ∧
    (s.tnState t.val = 1 → popCount 64 (s.get (Reg.TN_TILES_MAP t.val)) ≠ 0 → s.get (Reg.TN_SAVE_HANDLE t.val) = 0 → s.breaksClaim t.val = false →
      Answers (.start t) s (fun u => u.tnState t.val = 2 ∧ u.get (Reg.TN_STATE_LASTSTATUS t.val) = stOK ∧
        u.get (Reg.TN_TILES_MAP t.val) = s.get (Reg.TN_TILES_MAP t.val) ∧ u.quiesces = s.quiesces)) ∧
    (s.tnState t.val = 1 → popCount 64 (s.get (Reg.TN_TILES_MAP t.val)) = 0 → exec (.start t) s = .next (s.lastStatus t.val stNoResource)) ∧
    (s.tnState t.val = 1 → popCount 64 (s.get (Reg.TN_TILES_MAP t.val)) ≠ 0 → s.get (Reg.TN_SAVE_HANDLE t.val) = 0 → s.breaksClaim t.val = true →
      exec (.start t) s = .next (((s.logRefused (Reg.TN_CTL_OP t.val).off 0 2).bump Reg.TN_ISO_REFUSED 1).lastStatus t.val stNoResource)) ∧
    (s.tnState t.val ≠ 1 → exec (.start t) s = .next (s.refuseRequest 0 t.val 2)) ∧
    (s.tnState t.val = 2 → exec (.stop t) s = .next ((((s.set (Reg.TN_STATE_STATE t.val) 3).lastStatus t.val stOK).cutAllocs t.val).askQuiesce
      { units := s.tenancyUnits t.val ++ [0xC0 + t.val], reason := 1, tenancy := t.val, whom := .stop t.val })) ∧
    (s.tnState t.val ≠ 2 → exec (.stop t) s = .next (s.refuseRequest 0 t.val 3)) ∧
    (t.val = 0 ∨ (s.tnState t.val ≠ 1 ∧ s.tnState t.val ≠ 2) → exec (.destroy t) s = .next (s.refuseRequest 0 t.val 4)) ∧
    (t.val ≠ 0 → s.tnState t.val = 1 ∨ s.tnState t.val = 2 → exec (.destroy t) s =
      .next (((((s.set (Reg.TN_STATE_STATE t.val) (if s.tnState t.val = 2 then 3 else 4)).lastStatus t.val stOK).modTen t.val
        (fun x => { x with destroying := true })).cutAllocs t.val).askQuiesce
          { units := s.tenancyUnits t.val ++ [0xC0 + t.val], reason := 2, tenancy := t.val, whom := .destroy t.val })) ∧
    (s.quiesces.any (fun q => q.units.contains (0xC0 + t.val) && (q.reason == 1 || q.reason == 2)) = true →
      exec (.tenancyStopDone t) s = .next s) ∧
    (s.quiesces = [] → s.tnState t.val = 3 → (s.ten t.val).destroying = false → s.mbx = none → Answers (.tenancyStopDone t) s (fun u =>
      u.tnState t.val = 1 ∧ u.get (Reg.TN_STATE_PINNED t.val) = 0 ∧ (∀ e ∈ u.slotsJ ++ u.slotsB ++ u.slotsL, entryOf t.val e.2 = false))) ∧
    (s.quiesces = [] → s.tnState t.val = 4 → s.mbx = none → Answers (.tenancyStopDone t) s (fun u =>
      u.tnState t.val = 0 ∧ (u.ten t.val).key = none ∧ ∀ G, u.granOwner G ≠ t.val))

/-- The assignment registers of a tenancy take a value while it is stopped, and refuse it while it is started (R437, R440, R441, R459,
R460). -/
def Sys2Proof.Part.AssignmentWritesChecked : Prop :=
  ∀ (t : Fin 17) (part : Part) (v : Word) (s : State), s.phase = .ready →
    ∃ T C Q, T = partOf (s.get (Reg.TN_TILES_MAP t.val)) part v ∧ C = partOf (s.wordOf (Reg.row_TN_CFG.fields t.val 0)) part v ∧
      Q = partOf (s.wordOf (Reg.row_TN_SLOTQ.fields t.val 0)) part v ∧
    (s.tnState t.val = 1 → (bitList 64 T).any (s.tileRefused t.val) = false → Answers (.tnTilesWrite t part v) s (fun u =>
      u.get (Reg.TN_TILES_MAP t.val) = T % 2 ^ 64 ∧ u.get (Reg.TN_STATE_LASTSTATUS t.val) = stOK ∧ u.tnState t.val = 1 ∧
      ∀ g < 64, bitAt T g = true → bitAt (s.get (Reg.TN_TILES_MAP t.val)) g = false → u.get (Reg.TILE_STATE_TENANCY g) = t.val)) ∧
    (s.tnState t.val = 1 → bits C 0 9 ≤ 256 → s.granCount t.val ≤ bits C 0 9 → s.liveHandles t.val ≤ bits C 16 12 →
      bits C 10 4 = s.get (Reg.TN_CFG_RIME t.val) →
      Answers (.tnCfgWrite t part v) s (fun u => u.get (Reg.TN_CFG_GRANQ t.val) = bits C 0 9 ∧ u.get (Reg.TN_CFG_BUFQ t.val) = bits C 16 12 ∧
        u.get (Reg.TN_CFG_RIME t.val) = bits C 10 4 ∧ u.get (Reg.TN_STATE_LASTSTATUS t.val) = stOK)) ∧
    (s.tnState t.val = 1 → bits Q 0 11 ≤ 1024 → bits Q 11 9 ≤ 384 → bits Q 20 8 ≤ 146 → bits Q 28 8 ≤ 146 →
      exec (.tnSlotqWrite t part v) s = .next ((s.putWord (Reg.row_TN_SLOTQ.fields t.val 0) part v).lastStatus t.val stOK)) ∧
    (s.tnState t.val = 1 → 1024 < bits Q 0 11 → bits Q 0 11 ≠ s.get (Reg.TN_SLOTQ_JSLOTS t.val) → exec (.tnSlotqWrite t part v) s =
      .next ((s.logRefused (Reg.TN_SLOTQ_JSLOTS t.val).off 0 v.toNat).lastStatus t.val stNoResource)) ∧
    (s.tnState t.val = 1 → Answers (.tnSaveWrite t part v) s (fun u =>
      u.get (Reg.TN_SAVE_HANDLE t.val) = partOf (s.get (Reg.TN_SAVE_HANDLE t.val)) part v % 2 ^ (Reg.TN_SAVE_HANDLE t.val).width ∧
      u.tiles = s.tiles ∧ u.hbm = s.hbm)) ∧
    Answers (.tnBufqWrite t part v) s (fun u =>
      u.get (Reg.TN_BUFQ_HANDLE t.val) = partOf (s.get (Reg.TN_BUFQ_HANDLE t.val)) part v % 2 ^ (Reg.TN_BUFQ_HANDLE t.val).width ∧
      KeepsRegs [Reg.TN_BUFQ_HANDLE t.val] s u) ∧
    (s.tnStarted t.val = true →
      (T ≠ s.get (Reg.TN_TILES_MAP t.val) →
        exec (.tnTilesWrite t part v) s = .next (s.logRefused (Reg.TN_TILES_MAP t.val).off 0 v.toNat)) ∧
      (s.changesRwl (Reg.row_TN_CFG.fields t.val 0) part v = true →
        exec (.tnCfgWrite t part v) s = .next (s.logRefused (Reg.TN_CFG_GRANQ t.val).off 0 v.toNat)) ∧
      (s.changesRwl (Reg.row_TN_SLOTQ.fields t.val 0) part v = true →
        exec (.tnSlotqWrite t part v) s = .next (s.logRefused (Reg.TN_SLOTQ_JSLOTS t.val).off 0 v.toNat)) ∧
      (s.changesRwl [Reg.TN_SAVE_HANDLE t.val] part v = true →
        exec (.tnSaveWrite t part v) s = .next (s.logRefused (Reg.TN_SAVE_HANDLE t.val).off 0 v.toNat))) ∧
    (s.tnState t.val ≠ 1 →
      (T = s.get (Reg.TN_TILES_MAP t.val) → exec (.tnTilesWrite t part v) s = .next s) ∧
      (s.changesRwl (Reg.row_TN_CFG.fields t.val 0) part v = false → exec (.tnCfgWrite t part v) s = .next s) ∧
      (s.changesRwl (Reg.row_TN_SLOTQ.fields t.val 0) part v = false → exec (.tnSlotqWrite t part v) s = .next s) ∧
      (s.changesRwl [Reg.TN_SAVE_HANDLE t.val] part v = false → exec (.tnSaveWrite t part v) s = .next s))

/-- A tile's scrub, and the isolation claim (R140, R445, R454, R455). That a scrubbed tile reaches L4 under MAXSTATE 3, the reset value, and is
held above it by a smaller one is the model's choice (R106 against R123, log entry 116). -/
def Sys2Proof.Part.ScrubsAndClaims : Prop :=
  ∀ (tile : Fin 64) (v : Word) (s : State), ∃ g x u, g = tile.val ∧ x = s.get (Reg.PWR_DOM_CTL_MAXSTATE g) ∧
    u = s.modTile g (fun t => { t with scrubbing := false, scrubAt := none, saved := false }) ∧
    ((s.tile g).scrubbing = true → s.domState g ≠ 5 → s.get (Reg.PWR_DOM_CTL_HOLD g) = 0 →
      (3 ≤ x → exec (.tileScrubDone tile) s = .next (u.enterSleep g 4)) ∧
      (0 < x → x < 3 → exec (.tileScrubDone tile) s = .next (u.enterSleep g x)) ∧
      (x = 0 → exec (.tileScrubDone tile) s = .next u)) ∧
    ((s.tile g).scrubbing = true → s.domState g = 5 ∨ s.get (Reg.PWR_DOM_CTL_HOLD g) = 1 →
      exec (.tileScrubDone tile) s = .next u) ∧
    (∀ st, 0 < st → st < 8 → (u.enterSleep g st).domState g = st ∧ (u.enterSleep g st).hbm = s.hbm ∧ (u.enterSleep g st).tile g = u.tile g) ∧
    ((s.tile g).scrubbing = false → exec (.tileScrubDone tile) s = .next s) ∧
    ((s.tile g).scrubAt = none → exec (.scrubTimeout tile) s = .next s) ∧
    (∀ a, (s.tile g).scrubAt = some a → s.since a ≤ 20000 → exec (.scrubTimeout tile) s = .next s) ∧
    (∀ a, (s.tile g).scrubAt = some a → 20000 < s.since a → exec (.scrubTimeout tile) s = .next
      (((s.modTile g (fun t => { t with scrubbing := false, scrubAt := none })).switchOff g).contain [0x40 + g]
        { kind := 0x10, unit := 0x40 + g, body := [1, BitVec.ofNat 8 g, 0, 0] })) ∧
    (s.phase = .ready → v.getLsbD 0 = true → (s.isoC1 && s.isoC2 && s.isoC3) = true → Answers (.tnIsoClaimWrite v) s (fun u =>
      u.get Reg.TN_ISO_CLAIM = 1 ∧ u.get Reg.TN_ISO_CLAIMED = 1 ∧ KeepsRegs [Reg.TN_ISO_CLAIM, Reg.TN_ISO_CLAIMED] s u)) ∧
    (s.phase = .ready → v.getLsbD 0 = true → (s.isoC1 && s.isoC2 && s.isoC3) = false →
      exec (.tnIsoClaimWrite v) s = .next (s.logRefused Reg.TN_ISO_CLAIM.off 0 v.toNat)) ∧
    (s.phase = .ready → v.getLsbD 0 = false → Answers (.tnIsoClaimWrite v) s (fun u => u.get Reg.TN_ISO_CLAIM = 0 ∧ u.get Reg.TN_ISO_CLAIMED = 0))

/-! ### The Rime engines and the quiesce -/

/-- A Rime command starts, waits for its token, loads its key, works in waves and finishes (R476, R477, R478, R486). -/
def Obligations.RimeCommandsRun : Prop :=
  ∀ (die : Fin 4) (ecc : Secded) (mem : Option (Nat × Secded)) (c : RingCmd) (rest : List (Nat × Nat × Nat)) (s : State) (f r idx : Nat),
    ∃ d, d = die.val ∧
    ((s.rime d).active = none → (s.rime d).queue = (f, r, idx) :: rest → s.domState (68 + d) ≠ 0 →
      exec (.rimeCommandStart die) s = .next (s.wakeDomain (68 + d))) ∧
    ((s.rime d).active = none → (s.rime d).queue = (f, r, idx) :: rest → s.domState (68 + d) = 0 → s.cmd f r idx = some c →
      (s.rateUp (68 + d)).1 = true → bitAt (leAt c.desc 9 1) 0 = true → Answers (.rimeCommandStart die) s (fun t =>
        (t.rime d).active = some (f, r, idx) ∧ (t.rime d).queue = rest ∧ (t.rime d).waiting = true ∧ t.get (Reg.RIME_STATUS_PHASE d) = 1 ∧
        ∃ p, t.isobar = s.isobar ++ [p] ∧ p.kind = .take ∧ p.pool = true ∧ p.queue = leAt c.desc 12 2 ∧ p.tile = 64 + d ∧ p.src = .rime d ∧
          p.tenancy = f ∧ p.count = leAt c.desc 16 3 ∧ p.epoch = s.heldEpoch (0xC0 + f))) ∧
    ((s.rime d).active = none → (s.rime d).queue = (f, r, idx) :: rest → s.domState (68 + d) = 0 → s.cmd f r idx = some c →
      (s.rateUp (68 + d)).1 = true → bitAt (leAt c.desc 9 1) 0 = false → exec (.rimeCommandStart die) s =
        .next ((((((s.rateUp (68 + d)).2.modRime d (fun x => { x with active := some (f, r, idx), queue := rest, written := 0, warned := none })).syncRime d).set
          (Reg.RIME_STATUS_PHASE d) 2).rimeCheck d f r c))) ∧
    ((s.rime d).active = none → (s.rime d).queue = (f, r, idx) :: rest → s.domState (68 + d) = 0 → (s.rateUp (68 + d)).1 = false →
      exec (.rimeCommandStart die) s = .next (s.rateUp (68 + d)).2) ∧
    ((s.rime d).active = some (f, r, idx) → s.get (Reg.RIME_STATUS_PHASE d) = 1 → (s.rime d).waiting = false → s.cmd f r idx = some c →
      exec (.rimeCommandStart die) s = .next ((s.set (Reg.RIME_STATUS_PHASE d) 2).rimeCheck d f r c)) ∧
    (∀ a n, (s.rime d).active = some (f, r, idx) → s.cmd f r idx = some c → s.get (Reg.RIME_STATUS_PHASE d) = 3 → (s.rime d).owes = none →
      a = leAt (s.rime d).desc 8 8 → n = (rimeSet (leAt (s.rime d).desc 0 1)).bskBytes → s.poisonIn [(a, n)] = none → c.op ≠ 0x50 →
      Answers (.rimeKeyLoadDone die) s (fun t => t.get (Reg.RIME_KEY_VALID d) = 1 ∧ t.get (Reg.RIME_STATUS_PHASE d) = 4 ∧ t.hbm = s.hbm ∧
        ∃ k, (t.rime d).key = some k ∧ k.tenancy = f ∧ k.epoch = s.epoch (0xC0 + f) ∧ k.addr = leAt c.desc 32 8 ∧ k.desc = (s.rime d).desc)) ∧
    (∀ a n, (s.rime d).active = some (f, r, idx) → s.cmd f r idx = some c → s.get (Reg.RIME_STATUS_PHASE d) = 3 → (s.rime d).owes = none →
      a = leAt (s.rime d).desc 8 8 → n = (rimeSet (leAt (s.rime d).desc 0 1)).bskBytes → s.poisonIn [(a, n)] = none → c.op = 0x50 →
      ∃ u : State, exec (.rimeKeyLoadDone die) s = .next (u.rimeFinish d f c n) ∧ u.get (Reg.RIME_KEY_VALID d) = 1 ∧
        ∃ k, (u.rime d).key = some k ∧ k.tenancy = f ∧ k.desc = (s.rime d).desc) ∧
    (∀ a n w, (s.rime d).active = some (f, r, idx) → s.cmd f r idx = some c → s.get (Reg.RIME_STATUS_PHASE d) = 3 → (s.rime d).owes = none →
      a = leAt (s.rime d).desc 8 8 → n = (rimeSet (leAt (s.rime d).desc 0 1)).bskBytes → s.poisonIn [(a, n)] = some w →
      exec (.rimeKeyLoadDone die) s = .next (s.rimePoison d w)) ∧
    ((s.rime d).active = some (f, r, idx) → s.cmd f r idx = some c → s.get (Reg.RIME_STATUS_PHASE d) = 4 → (s.rime d).owes = none →
      (ecc = .clean → exec (.rimeWaveDone die ecc mem) s = .next (s.rimeWave d f r c mem)) ∧
      (ecc = .corrected → exec (.rimeWaveDone die ecc mem) s = .next ((((s.bump (Reg.RIME_ECC_CORR d) 1).rimeEccEvent d 1 stOkCorrected).modCmd f r
        idx (fun c => { c with corrected := true })).rimeWave d f r c mem)) ∧
      (∀ u, ecc = .uncorrectable → u = ((s.bump (Reg.RIME_ECC_UNCORR d) 1).rimeEccEvent d 2 stUncorrected).emptyStore d →
        (u.get (Reg.RIME_ECC_UNCORR d) ≠ 2 → exec (.rimeWaveDone die ecc mem) s = .next (u.rimeEnd d stUncorrected (s.rimeResult (f, r, idx)))) ∧
        (u.get (Reg.RIME_ECC_UNCORR d) = 2 → exec (.rimeWaveDone die ecc mem) s =
          .next ((u.excludeLater (0x10 + d) 6 false).rimeEnd d stUncorrected (s.rimeResult (f, r, idx))))))

/-- An RLINEAR of one op writes, word for word, the constant and the weighted sum of its inputs modulo 2³² (R467, R472, R476). -/
def Obligations.RimeLinearIsExact : Prop :=
  ∀ (die : Fin 4) (c : RingCmd) (s : State) (f r idx k : Nat) (x : RimeSet) (e : List Byte),
    (s.rime die.val).active = some (f, r, idx) → s.cmd f r idx = some c → c.op = 0x52 → s.get (Reg.RIME_STATUS_PHASE die.val) = 4 →
    x = rimeSet (leAt (s.rime die.val).desc 0 1) → (s.rime die.val).ops.length = 128 → (s.rime die.val).written = 0 →
    e = opEntry (s.rime die.val).ops 0 → s.poisonIn (opReads 0x52 x (s.rime die.val).desc e) = none →
    (s.rime die.val).owes = none → s.hbmLog.length ≤ (s.rime die.val).logFrom → s.hbmLog.length ≤ (s.rime die.val).logPrev → s.exclWait = [] → k ≤ x.size →
    Answers (.rimeWaveDone die .clean none) s (fun t =>
      (memNat ramByte t.hbm (opOut e + 64 + 4 * k) 4 : Int) = ((List.range (opNin e)).foldl (fun (n : Int) i =>
        n + opW e i * memNat ramByte s.hbm (opIn e i + 64 + 4 * k) 4) (if k = x.size then (opConst e : Int) else 0)) % 2 ^ 32)

/-- A quiesce is fenced in, drains, resets and releases; its bounds, and the audit of the epochs (R494, R495, R496, R500, R501, R502, R504,
R505). -/
def Obligations.QuiescesRun : Prop :=
  ∀ (unit : BitVec 8) (wrong : List (BitVec 8)) (q : Quiesce) (us : List Nat) (s : State), us = (List.range 256).filter (fun u => q.units.contains u) →
    (s.quiesceAt .waiting unit.toNat = none → exec (.quiesceFence unit) s = .next s) ∧
    (s.quiesceAt .waiting unit.toNat = some q → us.any s.inQuiesce = false → (∀ u ∈ us, s.epochFree u = true) →
      (∀ u ∈ us, u < 0xC0 → s.domState (unitDom u) = 0 ∨ s.domState (unitDom u) = 4 ∨ s.domState (unitDom u) = 5) → exec (.quiesceFence unit) s =
        .next (us.foldl (fun s u => s.fenceUnit q u) (s.setQuiesce q { q with phase := .fenced, start := s.tick }))) ∧
    (s.quiesceAt .waiting unit.toNat = some q → us.any s.inQuiesce = true ∨ us.any (fun u => s.unitPowered u && !s.epochFree u) = true →
      exec (.quiesceFence unit) s = .next s) ∧
    (∀ low : List Nat, s.quiesceAt .waiting unit.toNat = some q → us.any s.inQuiesce = false → (∀ u ∈ us, s.epochFree u = true) →
      low = us.filter (fun u => u < 0xC0) → (∃ u ∈ low, 1 ≤ s.domState (unitDom u) ∧ s.domState (unitDom u) ≤ 3) →
      exec (.quiesceFence unit) s = .next (low.foldl (fun s u =>
        if 1 ≤ s.domState (unitDom u) ∧ s.domState (unitDom u) ≤ 3 then s.wakeDomain (unitDom u) else s) s)) ∧
    (∀ u reason, u < 256 → (s.commitEpoch u reason).epoch u = (s.epoch u + 1) % 65536 ∧ (s.commitEpoch u reason).ownEpoch u = (s.epoch u + 1) % 65536 ∧
      (s.commitEpoch u reason).heldEpoch u = s.heldEpoch u) ∧
    (s.quiesceAt .fenced unit.toNat = some q → s.breeze.any (fun p => p.kind == .epoch && us.contains (bits p.beat1 0 8)) = false →
      us.any (fun u => u < 0xC0 && s.emitting u) = false → q.reason ≠ 6 → q.reason ≠ 7 → exec (.quiesceDrainEnd unit) s =
        .next (us.foldl (fun s u => s.drainUnit q u) (s.setQuiesce q { q with phase := .resetting, start := s.tick }))) ∧
    (s.quiesceAt .fenced unit.toNat = some q → us.any (fun u => u < 0xC0 && s.emitting u) = true → exec (.quiesceDrainEnd unit) s = .next s) ∧
    (s.quiesceAt .fenced unit.toNat = some q → s.breeze.any (fun p => p.kind == .epoch && us.contains (bits p.beat1 0 8)) = false →
      us.any (fun u => u < 0xC0 && s.emitting u) = false → q.reason = 6 ∨ q.reason = 7 → exec (.quiesceDrainEnd unit) s =
        .next ((us.foldl (fun s u => s.drainUnit q u) (s.setQuiesce q { q with phase := .resetting, start := s.tick })).cutAll
          (fun _ _ => true) 0x23 stAbortedEpoch)) ∧
    (∀ n, s.quiesceAt .resetting unit.toNat = some q → n = (us.filter s.unitPowered).foldl (fun m u => max m (resetTime u)) 0 →
      (s.since q.start < n → exec (.quiesceResetDone unit) s = .next s) ∧
      (n ≤ s.since q.start → exec (.quiesceResetDone unit) s = .next ((us.foldl (fun s u => s.resetUnit u) s).endQuiesce q us))) ∧
    (s.quiesces = [q] → q.phase = .fenced → q.units.contains unit.toNat = true → 50000 < s.since q.start → unit.toNat < 0xC0 →
      (q.units.filter (· != unit.toNat)).isEmpty = false → Answers (.quiesceDrainTimeout unit) s (fun t =>
        t.get (Reg.MC_EPOCH_QSTATE unit.toNat) = 4 ∧ t.excluded.contains unit.toNat = true ∧
        ∃ p, t.quiesceAt .fenced ((q.units.filter (· != unit.toNat)).headD 0) = some p ∧ p.units = q.units.filter (· != unit.toNat))) ∧
    (s.quiesces = [q] → q.phase = .fenced → s.since q.start ≤ 50000 → exec (.quiesceDrainTimeout unit) s = .next s) ∧
    (s.phase ≠ .ready → exec (.epochAudit wrong) s = .next s) ∧
    (s.phase = .ready → (∀ u < 0xC0, s.ownEpoch u = s.epoch u) → exec (.epochAudit []) s = .next s) ∧
    (∀ u < 0xC0, s.phase = .ready → isUnit u = true → s.unitPowered u = true → s.epoch u ≠ 0 → s.ownEpoch u ≠ s.epoch u →
      s.quiesces.any (fun q => q.units.contains u) = false →
      Answers (.epochAudit wrong) s (fun t => ({ units := [u], reason := 8 } : Quiesce) ∈ t.quiesces ∧ t.epoch u = s.epoch u))

/-- The digits of the gadget decomposition lie in their range and stand for the word to within half of the last digit's weight (R470). -/
def Obligations.RimeDigitsRecompose : Prop :=
  ∀ x lb l : Nat, x < 2 ^ 32 → 1 ≤ lb → 1 ≤ l → lb * l ≤ 31 →
    (decomp x lb l).length = l ∧ (∀ d ∈ decomp x lb l, -(2 : Int) ^ (lb - 1) ≤ d ∧ d < 2 ^ (lb - 1)) ∧
    ∃ e : Int, e.natAbs ≤ 2 ^ (31 - lb * l) ∧
      (((List.range l).foldl (fun (n : Int) j => n + (decomp x lb l).getD j 0 * 2 ^ (32 - lb * (j + 1))) 0) - x - e) % 2 ^ 32 = 0

/-! ### The setup mailbox and the store -/

/-- The module serves, the mailbox is free and the module is not in Deep Frost. -/
abbrev Sys2Proof.MailboxFree (s : State) : Prop := s.phase = .ready ∧ s.get Reg.MC_MBX_STATUS_BUSY = 0 ∧ s.frost = .awake

/-- The state `u` in which the controller serves a request that it took in state `s`: only the mailbox registers differ. -/
def Sys2Proof.MailboxTook (s u : State) : Prop :=
  u.get Reg.MC_MBX_STATUS_BUSY = 1 ∧ (∃ l, u = { s with regs := l, mbxHeld := [] }) ∧
    ∀ x : Fld, x.key ≠ Reg.MC_MBX_STATUS_BUSY.key → (∀ i < 32, x.key ≠ (Reg.MC_MBX_REQ_DATA i).key) → u.get x = s.get x

/-- The command is served as a mailbox request: `answer` of the state in which the controller took it. -/
def Sys2Proof.Served (c : Instr) (s : State) (answer : State → State) : Prop := ∃ u, MailboxTook s u ∧ exec c s = .next (answer u)

/-- Each mailbox request is taken whole and answered, or waits for what it asked for (R63, R121, R122, R154, R303, R506, R507, R508). -/
def Obligations.MailboxRequestsServed : Prop :=
  ∀ (tag : BitVec 16) (unit op perm : Byte) (s : State), MailboxFree s →
    Served (.status tag) s (fun u => u.mbxAnswer stOK tag.toNat u.statusWords) ∧
    Served (.epochread tag unit) s (fun u => u.mbxAnswer stOK tag.toNat (leBytes 8 (u.epochWord unit.toNat))) ∧
    (s.inQuiesce (0xC0 + unit.toNat) = false → Served (.tenancy tag unit op perm) s (fun u =>
      u.mbxTenancy tag.toNat unit.toNat op.toNat perm.toNat)) ∧
    (s.inQuiesce unit.toNat = false → s.canQuiesce unit.toNat = true →
      Served (.quiesceResetRelease tag unit) s (fun u => ({ u with mbx := some (0x20, tag.toNat, unit.toNat) } : State).askQuiesce
        { units := [unit.toNat], reason := 0, hold := false, whom := .mailbox }) ∧
      Served (.quiesceFenceHold tag unit) s (fun u => ({ u with mbx := some (0x20, tag.toNat, unit.toNat) } : State).askQuiesce
        { units := [unit.toNat], reason := 0, hold := true, whom := .mailbox }) ∧
      (s.unitHeld unit.toNat = true → Served (.quiesceReleaseHeld tag unit) s (fun u =>
        (u.unhold unit.toNat).mbxAnswer stOK tag.toNat (leBytes 8 ((u.unhold unit.toNat).epochWord unit.toNat)))) ∧
      (s.unitHeld unit.toNat = false → Served (.quiesceReleaseHeld tag unit) s (fun u => u.mbxAnswer stNoResource tag.toNat []))) ∧
    (s.inQuiesce unit.toNat = false → s.canQuiesce unit.toNat = false →
      Served (.quiesceFenceHold tag unit) s (fun u => u.mbxAnswer stBadDescriptor tag.toNat []) ∧
      Served (.quiesceResetRelease tag unit) s (fun u => u.mbxAnswer stBadDescriptor tag.toNat []) ∧
      Served (.quiesceReleaseHeld tag unit) s (fun u => u.mbxAnswer stBadDescriptor tag.toNat [])) ∧
    Served (.snapshot tag) s (fun u => { u.takeSnapshot with mbx := some (0x30, tag.toNat, 0) }) ∧
    Served (.powerDeepFrostEnter tag) s (fun u => u.enterFrost.1.mbxAnswer u.enterFrost.2 tag.toNat []) ∧
    Served (.powerDeepFrostLeave tag) s (fun u => u.mbxAnswer stOK tag.toNat []) ∧
    (s.ending = false → Served (.powerOff tag) s (fun u => ({ u with mbx := some (0x40, tag.toNat, 0) } : State).askEnd true) ∧
      Served (.powerRestart tag) s (fun u => ({ u with mbx := some (0x40, tag.toNat, 0) } : State).askEnd false)) ∧
    (s.ending = true → Served (.powerOff tag) s (fun u => u.mbxAnswer stNoResource tag.toNat []) ∧
      Served (.powerRestart tag) s (fun u => u.mbxAnswer stNoResource tag.toNat [])) ∧
    (s.get Reg.MC_MBX_STATUS_BUSY = 0 → (∀ i < 32, ∀ x, x = State.mbxRequest 1 tag [] s → x.get (Reg.MC_MBX_REQ_DATA i) =
      if i = 0 then 1 + 65536 * tag.toNat else s.get (Reg.MC_MBX_REQ_DATA i))) ∧
    (∀ st n p, (s.mbxAnswer st n p).get Reg.MC_MBX_STATUS_BUSY = 0 ∧ (s.mbxAnswer st n p).get Reg.MC_MBX_STATUS_DONE = 1 ∧
      (s.mbxAnswer st n p).get Reg.MC_MBX_STATUS_STATUS = st % 2 ^ 8 ∧ (s.mbxAnswer st n p).get Reg.MC_MBX_STATUS_TAG = n % 2 ^ 16)

/-- A failed controller ends its module's service with ALERT# (R517). -/
def Sys2Proof.Part.ControllerFailureStops : Prop :=
  ∀ (cause : Fin 3) (s : State), s.powered = true → s.phase ≠ .charging → s.phase ≠ .thermalWait →
    Answers (.controllerFailure cause) s (fun t => t.phase = .stopping ∧ t.pins.alert = true ∧ t.boot.ctrl = cause.val + 1 ∧
      t.boot.afterStop = true ∧ t.supply.stopRecord = [0xF0, BitVec.ofNat 8 (cause.val + 1)] ∧ t.get Reg.MC_MBX_STATUS_BUSY = 0 ∧ t.hbm = [] ∧
      t.get Reg.PWR_SUPPLY_EVENT_CAUSE = s.get Reg.PWR_SUPPLY_EVENT_CAUSE)

/-- Each image request has its effect and is answered, or is refused and changes nothing (R556, R557, R558, R561, R562, R564). -/
def Sys2Proof.Part.ImageRequestsServed : Prop :=
  ∀ (tag : BitVec 16) (slot flags : Byte) (key sig : List Byte) (s : State), MailboxFree s → s.slotBusy = false → s.store.op = none →
    Served (.slotinfo tag) s (fun u => u.mbxAnswer stOK tag.toNat (u.bootBody.take 16 ++
      [Reg.row_CS_BOOT, Reg.row_CS_ACTIVE, Reg.row_CS_WINDOW, Reg.row_CS_ROLLBACK].flatMap (fun w => leBytes 8 (u.wordOf (w.fields 0 0))))) ∧
    (slot.toNat ≤ 1 → s.slotWritable slot.toNat = true → Served (.eraseslot tag slot) s (fun u => (u.startErase slot.toNat).mbxAnswer stOK tag.toNat [])) ∧
    (slot.toNat ≤ 1 → s.slotWritable slot.toNat = false → Served (.eraseslot tag slot) s (fun u => u.mbxAnswer stNotOwner tag.toNat [])) ∧
    (1 < slot.toNat → Served (.eraseslot tag slot) s (fun u => u.mbxAnswer stBadDescriptor tag.toNat []) ∧
      Served (.verify tag slot) s (fun u => u.mbxAnswer stBadDescriptor tag.toNat []) ∧
      Served (.activate tag slot flags) s (fun u => u.mbxAnswer stBadDescriptor tag.toNat [])) ∧
    (slot.toNat ≤ 1 → Served (.verify tag slot) s (fun u =>
      (u.verifySlot slot.toNat).1.mbxAnswer (u.verifySlot slot.toNat).2 tag.toNat (u.verifyResult slot.toNat))) ∧
    (∀ st, slot.toNat ≤ 1 → flags.toNat ≤ 3 → s.activateRefusal slot.toNat (bitAt flags.toNat 1) = some st →
      Served (.activate tag slot flags) s (fun u => u.mbxAnswer st tag.toNat [])) ∧
    (slot.toNat ≤ 1 → flags.toNat ≤ 3 → s.activateRefusal slot.toNat (bitAt flags.toNat 1) = none → s.ending = false →
      Served (.activate tag slot flags) s (fun u => if bitAt flags.toNat 0 = true
        then ((u.activateSlot slot.toNat).mbxAnswer stOK tag.toNat []).askEnd false else (u.activateSlot slot.toNat).mbxAnswer stOK tag.toNat [])) ∧
    (slot.toNat ≤ 1 → flags.toNat ≤ 3 → s.activateRefusal slot.toNat (bitAt flags.toNat 1) = none → s.ending = true →
      Served (.activate tag slot flags) s (fun u => (u.activateSlot slot.toNat).mbxAnswer stOK tag.toNat [])) ∧
    (slot.toNat ≤ 1 → 3 < flags.toNat → Served (.activate tag slot flags) s (fun u => u.mbxAnswer stBadDescriptor tag.toNat [])) ∧
    Served (.confirm tag) s (fun u => u.confirmTrial.mbxAnswer stOK tag.toNat []) ∧
    (s.get Reg.CS_BOOT_TRIAL = 1 → Served (.revert tag) s (fun u => ((u.revertBoot 3).record 1).mbxAnswer stOK tag.toNat []) ∧
      Served (.commitsvn tag) s (fun u => u.mbxAnswer stNoResource tag.toNat [])) ∧
    (s.get Reg.CS_BOOT_TRIAL = 0 → Served (.revert tag) s (fun u => u.mbxAnswer stNoResource tag.toNat []) ∧
      (s.commitNext = none → Served (.commitsvn tag) s (fun u => u.afterCommit.mbxAnswer stOK tag.toNat [])) ∧
      (s.commitNext ≠ none → Served (.commitsvn tag) s (fun u => { u with mbx := some (0x56, tag.toNat, 0) }))) ∧
    (key.length = 97 → sig.length = 96 →
      (∀ st, s.ownerRefusal key sig = some st → Served (.ownerkey tag key sig) s (fun u => u.mbxAnswer st tag.toNat [])) ∧
      (s.ownerRefusal key sig = none → Served (.ownerkey tag key sig) s (fun u => (u.setOwner key).mbxAnswer stOK tag.toNat []))) ∧
    (s.confirmTrial.get Reg.CS_BOOT_TRIAL = 0 ∨ s.get Reg.CS_BOOT_TRIAL ≠ 1) ∧
    (s.revertBoot 3).get Reg.CS_BOOT_ACTIVE = s.get Reg.CS_BOOT_PREV % 2 ^ Reg.CS_BOOT_ACTIVE.width

/-- The slot erase takes its sectors in order, and COMMITSVN blows one fuse bit after the other (R557, R562). -/
def Sys2Proof.Part.EraseAndCommitProceed : Prop :=
  ∀ (tag x slot k i : Nat) (s : State),
    (s.store.erase = some (slot, k) → s.frost = .awake → k + 1 < 384 → Answers (.eraseSectorDone true) s (fun t =>
      t.store.erase = some (slot, k + 1) ∧ t.get Reg.CS_STATUS_ERASED = (k + 1) % 2 ^ Reg.CS_STATUS_ERASED.width ∧
      ∀ a, t.store.read a 1 = if a / 65536 = 384 * slot + k then [erasedByte] else s.store.read a 1)) ∧
    (s.store.erase = some (slot, 383) → s.frost = .awake → Answers (.eraseSectorDone true) s (fun t =>
      t.store.erase = none ∧ t.get Reg.CS_STATUS_ERASING = 0)) ∧
    (s.store.erase = some (slot, k) → s.frost = .awake → Answers (.eraseSectorDone false) s (fun t =>
      t.store.erase = none ∧ t.get Reg.CS_STATUS_ERASING = 0 ∧ t.get Reg.CS_STATUS_STATUS = stInternal ∧
      ∀ a, a / 65536 ≠ 384 * slot + k → t.store.read a 1 = s.store.read a 1)) ∧
    (s.mbx = some (0x56, tag, x) → s.commitNext = some i → (s.blowBit i).afterCommit.commitNext = none →
      exec (.fuseBitBlown true) s = .next ((s.blowBit i).afterCommit.mbxAnswer stOK tag [])) ∧
    (∀ j, s.mbx = some (0x56, tag, x) → s.commitNext = some i → (s.blowBit i).afterCommit.commitNext = some j →
      exec (.fuseBitBlown true) s = .next (s.blowBit i).afterCommit) ∧
    (s.mbx = some (0x56, tag, x) → s.commitNext = some i →
      exec (.fuseBitBlown false) s = .next (s.afterCommit.mbxAnswer stInternal tag [])) ∧
    (i < 2 → s.rollback i < 128 → s.rollback i < (s.blowBit i).rollback i)

/-- READ, PROGRAM and ERASE of the store: the checks in order, PROGRAM only over erased bytes, and the end of each (R547, R550, R551,
R552, R565). -/
def Obligations.StoreCommandsRun : Prop :=
  ∀ (len : BitVec 13) (ok : Bool) (s : State), ∃ n a, n = len.toNat ∧ a = s.get Reg.CS_ADDR_ADDR ∧
    (s.phase = .ready → s.get Reg.CS_STATUS_BUSY = 0 → s.slotBusy = false →
    (1 ≤ n → n ≤ 4096 → a + n ≤ 0x4000000 → exec (.read len) s = .next (s.storeBegin 1 a n).wakeFrost) ∧
    (1 ≤ n → n ≤ 4096 → 0x4000000 < a + n → exec (.read len) s = .next (s.storeEnd stBounds).wakeFrost) ∧
    (n = 0 ∨ 4096 < n → exec (.read len) s = .next (s.storeEnd stBadDescriptor).wakeFrost) ∧
    (storeForm 2 a n = true → a + n ≤ 0x4000000 → s.slotWritable (a / 0x1800000) = true →
      ((∀ i < n, s.store.read (a + i) 1 = [0xFF]) → exec (.program len) s = .next (s.storeBegin 2 a n).wakeFrost) ∧
      (∀ i < n, s.store.read (a + i) 1 ≠ [0xFF] → (∀ j < i, s.store.read (a + j) 1 = [0xFF]) → Answers (.program len) s (fun t =>
        t.store = s.store ∧ t.get Reg.CS_STATUS_STATUS = stNotErased ∧ t.get Reg.CS_STATUS_DONE = 1 ∧
        t.get Reg.CS_STATUS_FAILADDR = (a + i) % 2 ^ Reg.CS_STATUS_FAILADDR.width))) ∧
    (storeForm 2 a n = false → exec (.program len) s = .next (s.storeEnd stBadDescriptor).wakeFrost) ∧
    (n = 0 → a % 65536 = 0 → a < 0x4000000 → s.slotWritable (a / 0x1800000) = true → exec (.erase len) s = .next (s.storeBegin 3 a 0).wakeFrost) ∧
    (n ≠ 0 ∨ a % 65536 ≠ 0 → exec (.erase len) s = .next (s.storeEnd stBadDescriptor).wakeFrost)) ∧
    (s.phase = .ready → s.get Reg.CS_STATUS_BUSY = 1 → exec (.read len) s = .next (s.logRefused Reg.CS_CMD_OP.off 0 (storeWord 1 len).toNat)) ∧
    (∀ b m d, s.store.op = some (2, b, m, d) → s.frost = .awake → d.length = m → Answers (.storeOpDone true) s (fun t =>
      t.store.op = none ∧ t.store.read b m = d ∧ t.get Reg.CS_STATUS_STATUS = stOK ∧ t.get Reg.CS_STATUS_BUSY = 0 ∧
      ∀ c, c < b ∨ b + m ≤ c → t.store.read c 1 = s.store.read c 1)) ∧
    (∀ b m d, s.store.op = some (3, b, m, d) → s.frost = .awake → Answers (.storeOpDone true) s (fun t =>
      t.store.op = none ∧ t.get Reg.CS_STATUS_STATUS = stOK ∧
      ∀ c, t.store.read c 1 = if c / 65536 = b / 65536 then [erasedByte] else s.store.read c 1)) ∧
    (∀ b m d, s.store.op = some (2, b, m, d) → s.frost = .awake → Answers (.storeOpDone false) s (fun t =>
      t.store.op = none ∧ t.get Reg.CS_STATUS_STATUS = stInternal ∧ ∀ c, c < b ∨ b + m ≤ c → t.store.read c 1 = s.store.read c 1)) ∧
    (∀ b m d, s.store.op = some (1, b, m, d) → s.frost = .awake → m ≤ 4096 → Answers .storeReadDone s (fun t =>
      t.csBuf m = s.store.read b m ∧ t.store.op = none ∧ t.get Reg.CS_STATUS_STATUS = stOK ∧ t.get Reg.CS_STATUS_BUSY = 0)) ∧
    (s.frost ≠ .awake → s.store.op ≠ none → exec (.storeOpDone ok) s = .next s ∧ exec .storeReadDone s = .next s)

/-- Which slot PROGRAM and ERASE may write: the inactive one outside a trial, both in recovery hold; READ is allowed on the whole store
(R553). -/
def Obligations.OnlyInactiveSlotWritable : Prop :=
  ∀ (len : BitVec 13) (s : State), s.get Reg.CS_STATUS_BUSY = 0 → s.slotBusy = false →
    ∃ n a, n = len.toNat ∧ a = s.get Reg.CS_ADDR_ADDR ∧
    (s.phase = .ready ∨ (s.phase = .recovery ∧ s.hostUp = true) → 1 ≤ n → n ≤ 4096 → a + n ≤ 0x4000000 →
      exec (.read len) s = .next (s.storeBegin 1 a n).wakeFrost) ∧
    (s.phase = .ready → (0x3000000 ≤ a ∨ s.get Reg.CS_BOOT_TRIAL = 1 ∨ s.get Reg.CS_BOOT_ACTIVE = a / 0x1800000) →
      (storeForm 2 a n = true → a + n ≤ 0x4000000 → Answers (.program len) s (fun t => t.store = s.store ∧ t.get Reg.CS_STATUS_STATUS = stNotOwner)) ∧
      (storeForm 3 a n = true → a < 0x4000000 → Answers (.erase len) s (fun t => t.store = s.store ∧ t.get Reg.CS_STATUS_STATUS = stNotOwner))) ∧
    (s.phase = .ready → a < 0x3000000 → s.get Reg.CS_BOOT_TRIAL = 0 → s.get Reg.CS_BOOT_ACTIVE ≠ a / 0x1800000 →
      (storeForm 2 a n = true → (∀ i < n, s.store.read (a + i) 1 = [0xFF]) → exec (.program len) s = .next (s.storeBegin 2 a n).wakeFrost) ∧
      (storeForm 3 a n = true → exec (.erase len) s = .next (s.storeBegin 3 a n).wakeFrost)) ∧
    (s.phase = .recovery → s.hostUp = true →
      (a < 0x3000000 → storeForm 2 a n = true → (∀ i < n, s.store.read (a + i) 1 = [0xFF]) → exec (.program len) s = .next (s.storeBegin 2 a n).wakeFrost) ∧
      (a < 0x3000000 → storeForm 3 a n = true → exec (.erase len) s = .next (s.storeBegin 3 a n).wakeFrost) ∧
      (0x3000000 ≤ a → a < 0x4000000 → storeForm 3 a n = true → Answers (.erase len) s (fun t =>
        t.store = s.store ∧ t.get Reg.CS_STATUS_STATUS = stNotOwner)) ∧
      (0x3000000 ≤ a → a + n ≤ 0x4000000 → storeForm 2 a n = true → Answers (.program len) s (fun t =>
        t.store = s.store ∧ t.get Reg.CS_STATUS_STATUS = stNotOwner)))

/-! ### Management -/

/-- The port carries MCTP control and PLDM, and the module serves, outside scan mode. -/
abbrev Sys2Proof.ManagedBy (p : MgmtPort) (s : State) : Prop := p ≠ .doe ∧ s.phase = .ready ∧ s.pins.scanEn = false

/-- A PLDM request is answered on its port, by a message of its type and command with `data`, from the state `u`. -/
def Sys2Proof.Pldm (c : Instr) (p : MgmtPort) (type cmd : Byte) (u : State) (data : List Byte) (s : State) : Prop :=
  exec c s = .next (u.reply p ([0x01, type, cmd] ++ data))

/-- MCTP control requests and the PLDM requests of type 0 (R509, R511). -/
def Sys2Proof.Part.MctpAndPldmBaseAnswer : Prop :=
  ∀ (p : MgmtPort) (eid tid type : Byte) (s : State), ManagedBy p s → ∃ w, w = s.wakeFrost ∧
    (eid ≠ 0 → eid ≠ 0xFF → Answers (.setEndpointId p eid) s (fun t =>
      spGet 0 t.mgmt.eids (portNum p) = eid.toNat ∧ t.out = s.out ++ [.message (portNum p) [0x00, 0x01, 0x00, eid]] ∧ t.regs = s.regs)) ∧
    (eid = 0 ∨ eid = 0xFF → exec (.setEndpointId p eid) s = .next (s.reply p [0x00, 0x01, 0x02])) ∧
    exec (.getEndpointId p) s = .next (s.reply p [0x00, 0x02, 0x00, BitVec.ofNat 8 (spGet 0 s.mgmt.eids (portNum p))]) ∧
    exec (.getEndpointUuid p) s = .next (s.reply p ([0x00, 0x03, 0x00] ++ (Config.uuid (s.fuse 4)).toList)) ∧
    exec (.getMctpVersionSupport p 0) s = .next (s.reply p [0x00, 0x04, 0x00, 1, 1, 3]) ∧
    exec (.getMctpVersionSupport p 1) s = .next (s.reply p [0x00, 0x04, 0x00, 1]) ∧
    exec (.getMctpVersionSupport p 2) s = .next (s.reply p [0x00, 0x04, 0x80]) ∧
    exec (.getMessageTypeSupport p) s = .next (s.reply p [0x00, 0x05, 0x00, 3, 0x00, 0x01, 0x05]) ∧
    Pldm (.getTid p) p 0 0x02 w [0x00, BitVec.ofNat 8 s.mgmt.tid] s ∧
    (tid ≠ 0 → tid ≠ 0xFF → Answers (.setTid p tid) s (fun t => t.mgmt.tid = tid.toNat ∧ t.regs = s.regs)) ∧
    (tid = 0 ∨ tid = 0xFF → Pldm (.setTid p tid) p 0 0x01 w [0x02] s) ∧
    (type = 0 ∨ type = 2 ∨ type = 5 → Pldm (.getPldmVersion p type) p 0 0x03 w (0x00 :: leBytes 4 (Config.pldmVersion type.toNat).toNat) s ∧
      ∃ cs, pldmCommands type.toNat = some cs ∧ Pldm (.getPldmCommands p type) p 0 0x05 w (0x00 :: leBytes 32 (maskOf cs)) s) ∧
    (type ≠ 0 → type ≠ 2 → type ≠ 5 → Pldm (.getPldmVersion p type) p 0 0x03 w [0x83] s ∧ Pldm (.getPldmCommands p type) p 0 0x05 w [0x83] s) ∧
    Pldm (.getPldmTypes p) p 0 0x04 w (0x00 :: leBytes 8 0x25) s

/-- Sensors, effecters, records and events by PLDM (R63, R121, R125, R154, R512, R513, R514). -/
def Sys2Proof.Part.PldmMonitorsAndControls : Prop :=
  ∀ (p : MgmtPort) (id : BitVec 16) (v : BitVec 32) (st : Byte) (en : Bool) (s : State), ManagedBy p s →
    ∃ w n, w = s.wakeFrost ∧ n = s.wordOf budgetFields / 65536 * 65536 + v.toNat % 65536 ∧
    (∀ f, sensorField id.toNat = some f → id.toNat ≠ 4 → Pldm (.getSensorReading p id) p 2 0x11 w (0x00 :: leBytes 8 (s.get f)) s) ∧
    (id.toNat = 4 → Pldm (.getSensorReading p id) p 2 0x11 w (0x00 :: leBytes 8 (s.get Reg.PWR_IN_ENERGY_UJ / 1000000)) s) ∧
    (sensorField id.toNat = none → Pldm (.getSensorReading p id) p 2 0x11 w [0x80] s) ∧
    (∀ d, w.stateSensor id.toNat = some d → Pldm (.getStateSensorReadings p id) p 2 0x21 w (0x00 :: d) s) ∧
    (v.toNat ≤ 65535 → w.budgetRefused n = false → Pldm (.setNumericEffecterValue p 31 v) p 2 0x31 (w.putWord budgetFields .whole (BitVec.ofNat 64 n)) [0x00] s) ∧
    (65535 < v.toNat ∨ w.budgetRefused n = true → Pldm (.setNumericEffecterValue p 31 v) p 2 0x31 w [0x02] s) ∧
    (id ≠ 31 → Pldm (.setNumericEffecterValue p id v) p 2 0x31 w [0x80] s ∧ Pldm (.getNumericEffecterValue p id) p 2 0x32 w [0x80] s) ∧
    Pldm (.getNumericEffecterValue p 31) p 2 0x32 w (0x00 :: leBytes 2 (s.get Reg.PWR_BUDGET_MODCAP)) s ∧
    (s.ending = false → Pldm (.setStateEffecterStates p 30 3) p 2 0x39 (w.askEnd true) [0x00] s ∧
      Pldm (.setStateEffecterStates p 30 4) p 2 0x39 (w.askEnd false) [0x00] s) ∧
    Pldm (.setStateEffecterStates p 30 1) p 2 0x39 w [0x00] s ∧
    (s.ending = true → Pldm (.setStateEffecterStates p 30 3) p 2 0x39 w [0x01] s ∧ Pldm (.setStateEffecterStates p 30 4) p 2 0x39 w [0x01] s) ∧
    (w.enterFrost.2 = stOK → Pldm (.setStateEffecterStates p 30 2) p 2 0x39 w.enterFrost.1 [0x00] s) ∧
    (w.enterFrost.2 ≠ stOK → Pldm (.setStateEffecterStates p 30 2) p 2 0x39 w [0x01] s) ∧
    (st = 0 ∨ 4 < st.toNat → Pldm (.setStateEffecterStates p 30 st) p 2 0x39 w [0x02] s) ∧
    (id ≠ 30 → Pldm (.setStateEffecterStates p id st) p 2 0x39 w [0x80] s ∧ Pldm (.getStateEffecterStates p id) p 2 0x3A w [0x80] s) ∧
    Pldm (.getStateEffecterStates p 30) p 2 0x3A w [0x00, if s.frost = .awake then 1 else 2] s ∧
    Pldm (.getPdrRepositoryInfo p) p 2 0x50 w (0x00 :: leBytes 4 24) s ∧
    (24 ≤ v.toNat → Pldm (.getPdr p v) p 2 0x51 w [0x82] s) ∧
    (v.toNat < 24 → Answers (.getPdr p v) s (fun t => t.regs = s.regs ∧ t.store = s.store ∧ t.out.length = s.out.length + 1)) ∧
    Answers (.setEventReceiver p en) s (fun t => t.mgmt.receiver = (if en then some (portNum p) else none) ∧ t.mgmt.events = s.mgmt.events) ∧
    Pldm (.eventMessageSupported p) p 2 0x0C w [0x00, 0xFE] s ∧
    (∀ n, Pldm (.eventMessageBufferSize p n) p 2 0x0D w.draw (0x00 :: (Config.freeBytes w.free 2).toList) s) ∧
    Answers (.pollForPlatformEventMessage p id) s (fun t => t.mgmt.events = s.mgmt.events.filter (fun e => e.id != id.toNat) ∧
      (s.mgmt.events ≠ [] → t.mgmt.events = [] → t.pins.alert = false) ∧ (t.mgmt.events ≠ [] → t.pins.alert = s.pins.alert))

/-- The firmware update takes its phases in order, into the inactive slot (R511, R563). -/
def Obligations.FirmwareUpdateRuns : Prop :=
  ∀ (p : MgmtPort) (data : List Byte) (self : Bool) (u : Update) (s : State), ManagedBy p s → s.frost = .awake →
    Pldm (.queryDeviceIdentifiers p) p 5 0x01 s
      (0x00 :: leBytes 2 Config.vendorId.toNat ++ leBytes 2 (s.get Reg.ID_PART_PART) ++ [BitVec.ofNat 8 (s.get Reg.ID_COMPAT_REV)]) s ∧
    Pldm (.getFirmwareParameters p) p 5 0x02 s
      (0x00 :: leBytes 4 s.store.aver ++ leBytes 4 (if s.store.aver = s.get Reg.CS_ACTIVE_IMGVER then 0 else s.store.aver)) s ∧
    Pldm (.getStatus p) p 5 0x1B s [0x00, updCode s.mgmt.upd] s ∧
    (s.mgmt.upd = none → s.get Reg.CS_BOOT_TRIAL = 0 → s.slotBusy = false → s.store.op = none → s.mbx = none →
      Answers (.requestUpdate p) s (fun t => t.mgmt.upd = some { slot := 1 - s.get Reg.CS_BOOT_ACTIVE } ∧ t.slotBusy = true)) ∧
    (s.mgmt.upd = none → s.get Reg.CS_BOOT_TRIAL = 1 → Pldm (.requestUpdate p) p 5 0x10 s [0x8E] s) ∧
    (s.mgmt.upd = some u → Pldm (.requestUpdate p) p 5 0x10 s [0x81] s) ∧
    (s.mgmt.upd = some u → u.phase ≠ .learn → Pldm (.passComponentTable p 1) p 5 0x13 s [0x84] s) ∧
    (s.mgmt.upd = some u → u.phase ≠ .readyXfer → Pldm (.updateComponent p 1) p 5 0x14 s [0x84] s ∧
      Pldm (.activateFirmware p self) p 5 0x1A s [0x84] s) ∧
    (s.mgmt.upd = none → Pldm (.cancelUpdate p) p 5 0x1D s [0x80] s ∧ Pldm (.passComponentTable p 1) p 5 0x13 s [0x80] s) ∧
    (s.mgmt.upd = some u → u.phase = .learn → Answers (.passComponentTable p 1) s (fun t => t.mgmt.upd = some { u with phase := .readyXfer })) ∧
    (s.mgmt.upd = some u → u.phase = .readyXfer → Answers (.updateComponent p 1) s (fun t =>
      t.mgmt.upd = some { u with phase := .download, done := 0, applied := false } ∧ t.store.erase = some (u.slot, 0) ∧ t.get (verFld u.slot) = 0)) ∧
    (s.mgmt.upd = some u → u.phase = .download → s.store.erase = none → u.done < s.updTotal u → data.length = 4096 →
      Answers (.requestFirmwareData p data) s (fun t => t.mgmt.upd = some { u with done := u.done + 4096 } ∧
        t.store.read (0x1800000 * u.slot + u.done) 4096 = data ∧
        ∀ a, a < 0x1800000 * u.slot + u.done ∨ 0x1800000 * u.slot + u.done + 4096 ≤ a → t.store.read a 1 = s.store.read a 1)) ∧
    (s.mgmt.upd = some u → u.phase = .download → u.done ≠ 0 → s.updTotal u ≤ u.done → Answers (.transferComplete p) s (fun t =>
      t.mgmt.upd = some { u with phase := .verify } ∧ t.store = s.store)) ∧
    (s.mgmt.upd = some u → u.phase = .verify → Answers (.verifyComplete p) s (fun t =>
      t.mgmt.upd = some { u with phase := if (s.verifySlot u.slot).2 = stOK then .apply else .readyXfer } ∧ t.store = s.store)) ∧
    (s.mgmt.upd = some u → u.phase = .apply → Answers (.applyComplete p) s (fun t =>
      t.mgmt.upd = some { u with phase := .readyXfer, applied := true } ∧ t.store = s.store)) ∧
    (s.mgmt.upd = some u → u.phase = .readyXfer → u.applied = true → s.activateRefusal u.slot false = none → s.ending = false →
      Pldm (.activateFirmware p self) p 5 0x1A
        (if self = true then ((s.activateSlot u.slot).endUpdate).askEnd false else (s.activateSlot u.slot).endUpdate) [0x00] s) ∧
    (s.mgmt.upd = some u → u.phase = .download → Answers (.cancelUpdateComponent p) s (fun t =>
      t.mgmt.upd = some { u with phase := .readyXfer, applied := false } ∧ t.get (verFld u.slot) = 0)) ∧
    (s.mgmt.upd = some u → Answers (.cancelUpdate p) s (fun t =>
      t.mgmt.upd = none ∧ t.get Reg.CS_BOOT_PLDMUPD = 0 ∧ t.get (verFld u.slot) = 0 ∧ (s.store.erase ≠ none → t.store.erase = none)))

/-- SPDM: the negotiation in its order, measurements, at most two sessions on a transport, and IDE_KM on DOE alone (R398, R515, R516). -/
def Obligations.SpdmResponds : Prop :=
  ∀ (p : MgmtPort) (slot idx id : Byte) (off len : BitVec 16) (sig : Bool) (func : Fin 17) (x : Session) (s : State), s.portUp p = true →
    Answers (.getVersion p) s (fun t => t.spdmLevel p = 1 ∧ t.mgmt.sessions = s.mgmt.sessions) ∧
    (s.spdmLevel p = 0 → exec (.getCapabilities p) s = .next (s.reply p [0x05, 0x7F, 0x04]) ∧
      exec (.getDigests p) s = .next (s.reply p [0x05, 0x7F, 0x04]) ∧ exec (.keyExchange p) s = .next (s.reply p [0x05, 0x7F, 0x04])) ∧
    (1 ≤ s.spdmLevel p → Answers (.getCapabilities p) s (fun t => t.spdmLevel p = max 2 (s.spdmLevel p) ∧ t.regs = s.regs)) ∧
    (2 ≤ s.spdmLevel p → Answers (.negotiateAlgorithms p true) s (fun t => t.spdmLevel p = 3) ∧
      exec (.negotiateAlgorithms p false) s = .next (s.reply p [0x05, 0x7F, 0x01])) ∧
    (3 ≤ s.spdmLevel p →
      exec (.getDigests p) s = .next (s.reply p ([0x05, 0x01, 0x01] ++ sha384 s.certs)) ∧
      exec (.getCertificate p 0 off len) s = .next (s.reply p ([0x05, 0x02] ++ (s.certs.drop off.toNat).take len.toNat)) ∧
      (slot ≠ 0 → exec (.getCertificate p slot off len) s = .next (s.reply p [0x05, 0x7F, 0x01]) ∧
        exec (.challenge p slot) s = .next (s.reply p [0x05, 0x7F, 0x01])) ∧
      exec (.challenge p 0) s = .next (s.draw.reply p ([0x05, 0x03] ++ sha384 s.certs ++ s.signed)) ∧
      exec (.getMeasurements p 0 false) s = .next (s.reply p [0x05, 0x60, BitVec.ofNat 8 s.measurements.length]) ∧
      exec (.getMeasurements p 0xFF false) s = .next (s.reply p ([0x05, 0x60] ++ s.measurements.flatten)) ∧
      (∀ b, idx.toNat ≠ 0 → idx.toNat ≠ 255 → s.measurements[idx.toNat - 1]? = some b →
        exec (.getMeasurements p idx sig) s = .next (if sig = true then s.draw.reply p ([0x05, 0x60, idx] ++ b ++ s.signed) else s.reply p ([0x05, 0x60, idx] ++ b))) ∧
      (s.session p 1 = none → Answers (.keyExchange p) s (fun t =>
        t.session p 1 = some { port := portNum p, id := 1 } ∧ ∀ j : Byte, j ≠ 1 → t.session p j = s.session p j)) ∧
      (s.session p 1 ≠ none → s.session p 2 ≠ none → exec (.keyExchange p) s = .next (s.reply p [0x05, 0x7F, 0x0A])) ∧
      (s.session p id = some x → x.established = false →
        Answers (.finish p id true) s (fun t => t.session p id = some { x with established := true }) ∧
        Answers (.finish p id false) s (fun t => t.session p id = none) ∧
        exec (.heartbeat p id) s = .next (s.reply p [0x05, 0x7F, 0x04])) ∧
      (s.session p id = some x → x.established = true →
        exec (.heartbeat p id) s = .next (s.reply p [0x05, 0x68]) ∧
        Answers (.keyUpdate p id) s (fun t => t.session p id = some { x with updates := x.updates + 1 }) ∧
        Answers (.endSession p id) s (fun t => t.session p id = none) ∧
        (p = .doe → Answers (.vendorDefinedRequest p id func 0) s (fun t => t.mgmt.ideKeys.contains func.val = true ∧ t.funcs = s.funcs) ∧
          (s.mgmt.ideKeys.contains func.val = true → exec (.vendorDefinedRequest p id func 1) s = .next ((s.setSecure func.val true).reply p [0x05, 0x7E, 0x03])) ∧
          (s.mgmt.ideKeys.contains func.val = false → exec (.vendorDefinedRequest p id func 1) s = .next (s.reply p [0x05, 0x7F, 0x04])) ∧
          exec (.vendorDefinedRequest p id func 2) s = .next ((s.setSecure func.val false).reply p [0x05, 0x7E, 0x04])))) ∧
    (p ≠ .doe → exec (.vendorDefinedRequest p id func 0) s = .next (s.reply p [0x05, 0x7F, 0x07])) ∧
    (s.measurements.length = s.mgmt.measured.length + 1)

/-! ### Events -/

/-- Event rings write their records in order, read their doorbell record, announce and fail as the spec says (R533, R535, R536, R542, R545). -/
def Sys2Proof.Part.EventRingsWrite : Prop :=
  ∀ (ring : Fin 18) (part : Part) (v : Word) (e : EvRec) (l : List EvRec) (bs : List Byte) (s : State), ∃ i n, i = ring.val ∧ n = s.get (evWritten i) ∧
    ((s.evRing i).held = e :: l → s.evOpen i = true → s.evRoom i = true → Answers (.eventRecordWrite ring true) s (fun t =>
      (t.evRing i).held = l ∧ (t.evRing i).lost = 0 ∧ (t.evRing i).due = true ∧ t.get (evWritten i) = (n + 1) % 2 ^ (evWritten i).width ∧
      t.out = s.out ++ [.hostWrite (evFunc i) (64 * s.get (evBase i) + 64 * (n % 2 ^ s.get (evLog2 i)))
        (eventRecord n (s.get (evLog2 i)) (s.evRing i).lost e)] ∧ KeepsRegs [evWritten i, evHeld i] s t)) ∧
    ((s.evRing i).held = e :: l → s.evOpen i = true → s.evRoom i = true → exec (.eventRecordWrite ring false) s = .next (s.evFail i)) ∧
    ((s.evRing i).held = [] ∨ s.evOpen i = false ∨ s.evRoom i = false → exec (.eventRecordWrite ring true) s = .next s) ∧
    (s.evOpen i = true → (s.evRing i).held ≠ [] → exec (.evrDoorbellPoll ring .failed) s =
      .next ((s.emit (.hostRead (evFunc i) (64 * s.get (evDb i)) 8)).evFail i)) ∧
    (s.evOpen i = true → (s.evRing i).held ≠ [] → (n + 2 ^ 32 - leAt bs 0 4) % 2 ^ 32 ≤ 2 ^ s.get (evLog2 i) →
      Answers (.evrDoorbellPoll ring (.data bs)) s (fun t => (t.evRing i).rhead = leAt bs 0 4 ∧ (t.evRing i).held = (s.evRing i).held ∧ t.regs = s.regs)) ∧
    (s.evOpen i = true → (s.evRing i).held ≠ [] → 2 ^ s.get (evLog2 i) < (n + 2 ^ 32 - leAt bs 0 4) % 2 ^ 32 →
      exec (.evrDoorbellPoll ring (.data bs)) s = .next ((s.emit (.hostRead (evFunc i) (64 * s.get (evDb i)) 8)).evFail i)) ∧
    (s.phase = .ready → (∀ j < 18, (s.evRing j).lastMsg = none) → (s.evRing i).due = true → Answers (.evrMsix ring) s (fun t =>
      (t.evRing i).due = false ∧ (t.evRing i).lastMsg = some s.tick ∧ (∀ j, (t.evRing j).held = (s.evRing j).held) ∧ t.regs = s.regs ∧
      ((s.func (evFunc i)).d3hot = false ∧ (s.func (evFunc i)).msix.enabled = true ∧ (s.func (evFunc i)).msix.funcMask = false ∧
        (s.func (evFunc i)).msix.masked.getLsbD 0 = false → t.out = s.out ++ [.msix (evFunc i) 0]))) ∧
    (∀ a, (s.evRing i).lastMsg = some a → s.since a < 10000 → exec (.evrMsix ring) s = .next s) ∧
    (∀ w, w = partOf (s.wordOf [evEn i, evLog2 i]) part v → s.phase = .ready → i = 0 ∨ s.tnStarted (i - 1) = false → s.get (evEn i) = 0 →
      (bitAt w 0 = true → 4 ≤ bits w 8 4 → bits w 8 4 ≤ 12 → s.get (evBase i) ≠ 0 → s.get (evDb i) ≠ 0 → Answers (.evrCtlWrite ring part v) s (fun t =>
        t.get (evEn i) = 1 ∧ t.get (evLog2 i) = bits w 8 4 ∧ t.get (evWritten i) = 0 ∧ t.get (evError i) = 0 ∧ (t.evRing i).rhead = 0)) ∧
      (bitAt w 0 = true → bits w 8 4 < 4 ∨ 12 < bits w 8 4 ∨ s.get (evBase i) = 0 ∨ s.get (evDb i) = 0 →
        exec (.evrCtlWrite ring part v) s = .next (s.logRefused (evEn i).off 0 v.toNat)) ∧
      (bitAt w 0 = false → exec (.evrCtlWrite ring part v) s = .next (s.putWord [evEn i, evLog2 i] part v))) ∧
    (s.phase = .ready → 0 < i → s.tnStarted (i - 1) = true → s.changesRwl [evEn i, evLog2 i] part v = true →
      exec (.evrCtlWrite ring part v) s = .next (s.logRefused (evEn i).off 0 v.toNat)) ∧
    (∀ w, w = partOf (s.wordOf [evEn i, evLog2 i]) part v → s.phase = .ready → s.get (evEn i) = 1 → bits w 8 4 ≠ s.get (evLog2 i) →
      exec (.evrCtlWrite ring part v) s = .next (s.logRefused (evEn i).off 0 v.toNat)) ∧
    ((s.evRing i).held.length < 256 → ((s.pushEvent i e).evRing i).held = (s.evRing i).held ++ [e]) ∧
    (256 ≤ (s.evRing i).held.length → ((s.pushEvent i e).evRing i).held = (s.evRing i).held)

/-- The compare of a twin pair, and the undoing of a withheld granule (R525, R526, R528, R539). -/
def Sys2Proof.Part.TwinsCompareAndGranulesReturn : Prop :=
  ∀ (tile : Fin 64) (k : Fin 4) (part : Part) (v : Word) (w : Twin) (eq : Bool) (s : State),
    (s.pairOf tile.val = none → exec (.twinCompare tile eq) s = .next s) ∧
    (∀ g, s.pairOf tile.val = some w → g = w.primary ∨ g = w.shadow → s.run g = runFaulted ∨ s.run g = runStopped →
      exec (.twinCompare tile eq) s = .next s) ∧
    (s.pairOf tile.val = some w → (∀ g, g = w.primary ∨ g = w.shadow → s.run g ≠ runFaulted ∧ s.run g ≠ runStopped) →
      (s.canIssue w.primary = true → (s.tile w.primary).cycle.toNat < 64 * w.window + 72 → exec (.twinCompare tile eq) s = .next s) ∧
      (s.canIssue w.primary = false ∨ 64 * w.window + 72 ≤ (s.tile w.primary).cycle.toNat →
        exec (.twinCompare tile true) s = .next (s.twinPass w) ∧ exec (.twinCompare tile false) s = .next (s.twinFault w 0))) ∧
    (s.phase = .ready → (bitList 64 (s.get (Reg.MC_GRANWH_WITHHELD k.val) &&& partOf 0 part v)) = [] →
      exec (.granuleWithholdUndo k part v) s = .next s) ∧
    (∀ j < 64, s.phase = .ready → bitAt (s.get (Reg.MC_GRANWH_WITHHELD k.val)) j = true → bitAt (partOf 0 part v) j = true →
      Answers (.granuleWithholdUndo k part v) s (fun t => bitAt (t.get (Reg.MC_GRANWH_WITHHELD k.val)) j = false ∧
        (∀ e ∈ t.granPoison, e.1 ≠ 64 * k.val + j) ∧ 4 ∈ t.store.recQ))

/-! ### The register window and reset -/

/-- A write of a register by its offset, and the sizes of accesses: a register without a rule of its own takes the value by its access codes,
one with its own rule takes it by that; half writes keep the other half, refused writes change no field, read-only fields stay (R19, R22, R23,
R150, R396, R568, R572, R577). -/
def Obligations.RegisterWritesFollowAccess : Prop :=
  ∀ (func : Fin 17) (off len : Nat) (part : Part) (v : Word) (data : List Byte) (r : RegRow) (i j : Nat) (s : State), ∃ u, u = s.hostWake ∧
    (off % 8 ≠ 0 → s.phase = .ready → exec (.registerWrite func off part v) s = .next (u.logRefused off func.val v.toNat)) ∧
    (off % 8 = 0 → exec (.registerWrite func off part v) s = .next (u.busWrite func.val off part v)) ∧
    (s.phase = .ready → off % 8 = 0 → off < 0x208000 ∨ (0x310000 ≤ off ∧ off < 0xE00000) → regAt off = some (r, i, j) → u.absentBlock off = false →
      (∀ w, u.writePower 0 r.base i part v = some w → exec (.registerWrite 0 off part v) s = .next w) ∧
      (∀ w, u.writePower 0 r.base i part v = none → u.writeController 0 r.base i part v = some w →
        exec (.registerWrite 0 off part v) s = .next w) ∧
      (∀ w, u.writePower 0 r.base i part v = none → u.writeController 0 r.base i part v = none →
        u.writeTenancy 0 r.base i j part v = some w → exec (.registerWrite 0 off part v) s = .next w) ∧
      (u.writePower 0 r.base i part v = none → u.writeController 0 r.base i part v = none → u.writeTenancy 0 r.base i j part v = none →
        r.base ≠ Reg.row_RING_IRQ.base → u.regStarted r.base i j = false → u.valueRefused r.base i (r.fields i j) part v = false →
        exec (.registerWrite 0 off part v) s = .next (u.putWord (r.fields i j) part v))) ∧
    (s.phase = .ready → s.domState 84 = 0 → ∀ t : Fin 17,
      exec (.registerWrite 0 Reg.PWR_SLEW_LIMIT.off part v) s = exec (.pwrSlewWrite part v) s ∧
      exec (.registerWrite 0 Reg.PWR_BUDGET_MODCAP.off part v) s = exec (.pwrBudgetWrite part v) s ∧
      exec (.registerWrite 0 (Reg.TN_TILES_MAP t.val).off part v) s = exec (.tnTilesWrite t part v) s ∧
      exec (.registerWrite 0 (Reg.TN_CFG_GRANQ t.val).off part v) s = exec (.tnCfgWrite t part v) s) ∧
    (∀ x, s.phase = .ready → func ≠ 0 → off % 8 = 0 → (off < 0xE000 ∨ 0xE400 ≤ off) → vfOffset func.val off = some x →
      exec (.registerWrite func off part v) s = .next (u.regWrite func.val x part v)) ∧
    (s.phase = .ready → func ≠ 0 → off % 8 = 0 → (off < 0xE000 ∨ 0xE400 ≤ off) → vfOffset func.val off = none →
      exec (.registerWrite func off part v) s = .next u) ∧
    (s.phase = .bringUp → s.hostUp = true → s.earlyWrite off = false → s.busWrite 0 off part v = s.bump Reg.BRU_STATUS_EARLYWRITES 1) ∧
    (regAt off = none → s.phase = .ready → off < 0xE00000 → (off < 0x210000 ∨ 0x310000 ≤ off) → s.busWrite 0 off part v = s.logRefused off 0 v.toNat) ∧
    (s.regStarted r.base i j = true → s.changesRwl (r.fields i j) part v = true → s.plainWrite func.val off r i j part v = s.logRefused off func.val v.toNat) ∧
    (s.regStarted r.base i j = false → s.valueRefused r.base i (r.fields i j) part v = false → r.base = Reg.row_RING_IRQ.base →
      s.plainWrite func.val off r i j part v = (s.putWord (r.fields i j) part v).recount i j) ∧
    (∀ f, f.acc = .ro → (∀ g ∈ r.fields i j, g.acc = .ro ∨ g.key ≠ f.key) → (s.putWord (r.fields i j) part v).get f = s.get f) ∧
    (partOf i .low v / 2 ^ 32 = i / 2 ^ 32 ∧ partOf i .low v % 2 ^ 32 = v.toNat % 2 ^ 32 ∧ partOf i .high v % 2 ^ 32 = i % 2 ^ 32 ∧
      partOf i .high v / 2 ^ 32 = v.toNat % 2 ^ 32) ∧
    (s.hostUp = true → off % 8 = 0 → exec (.barWideRequest func true off 8 data) s = .next (u.wideWrite func.val off data 1)) ∧
    (s.hostUp = true → off % 16 = 0 → exec (.barWideRequest func true off 16 data) s =
      .next ((u.busWrite func.val off .whole (BitVec.ofNat 64 (leAt data 0 8))).busWrite func.val (off + 8) .whole (BitVec.ofNat 64 (leAt data 8 8)))) ∧
    (s.hostUp = true → off % 32 = 0 → exec (.barWideRequest func true off 32 data) s = .next (u.wideWrite func.val off data 4)) ∧
    (s.hostUp = true → off % 64 = 0 → exec (.barWideRequest func true off 64 data) s = .next (u.wideWrite func.val off data 8)) ∧
    (s.hostUp = true → off % 8 = 0 → exec (.barWideRequest func true off 4 data) s =
      .next (u.busWrite func.val off .low (BitVec.ofNat 64 (leAt data 0 4)))) ∧
    (s.hostUp = true → off % 8 = 4 → exec (.barWideRequest func true off 4 data) s =
      .next (u.busWrite func.val (off / 8 * 8) .high (BitVec.ofNat 64 (leAt data 0 4)))) ∧
    (s.hostUp = true → off % 8 = 0 → exec (.barWideRequest func false off 8 data) s =
      .next ((u.busGet func.val off).2.emit (.completion func.val (some (leBytes 8 (u.busGet func.val off).1))))) ∧
    (s.hostUp = true → (len = 16 ∨ len = 32 ∨ len = 64) → off % len = 0 → exec (.barWideRequest func false off len data) s =
      .next ((u.wideRead func.val off (len / 8)).2.emit (.completion func.val (some (u.wideRead func.val off (len / 8)).1)))) ∧
    (s.hostUp = false → exec (.barWideRequest func false off len data) s = .next u) ∧
    (s.phase = .ready → (len ≠ 4 ∧ len ≠ 8 ∧ len ≠ 16 ∧ len ≠ 32 ∧ len ≠ 64) ∨ off % len ≠ 0 →
      exec (.barWideRequest func false off len data) s = .next (u.emit (.completion func.val none)) ∧
      exec (.barWideRequest func true off len data) s = .next (u.logRefused off func.val (leAt data 0 8)))

/-- After reset every register field reads its reset value, nothing waits, nothing is listed in memory (R31, R60, R61). -/
def Obligations.ResetIsDefined : Prop :=
  State.reset.pending = [] ∧ State.reset.phase = .startWait ∧ State.reset.tick = 0 ∧ (∀ f : Fld, State.reset.get f = f.reset) ∧
  spWf ramByte State.reset.hbm = true ∧ State.reset.hbm = [] ∧ State.reset.out = [] ∧ (∀ t, State.reset.tnState t = 0)

/-! ### Statements of several parts -/

/-- A supply trip latches the stop, each event trips with its own cause code, and a failed controller ends its module's service (R36, R42, R47, R48,
R58, R517). -/
def Obligations.TripsStopTheModule : Prop :=
  Part.SupplyTripStopsModule ∧ Part.TripEventsByCause ∧ Part.ControllerFailureStops

/-- Grants of the slew governor, and the writes of the supply registers. -/
def Obligations.SlewGrantsAndLimits : Prop :=
  Part.SlewGrantsRunInTurn ∧ Part.SlewLimitWritesChecked ∧ Part.SupplyRegisterWrites

/-- What the sensors read, and the trip that waits for no firmware. -/
def Obligations.SensorsAndHardwareTrip : Prop :=
  Part.SensorsReadIntoRegisters ∧ Part.HardwareTripIsImmediate

/-- The I3C target, boundary scan and the configuration requests of the host port. -/
def Obligations.PinsAnswer : Prop :=
  Part.I3cTargetAnswers ∧ Part.BoundaryScanSelects ∧ Part.ScanModeOnlyOutsideActsAsBypass ∧ Part.ConfigurationRequestsAnswered

/-- The weather ladder: requests, entries, idle domains, Deep Frost. -/
def Obligations.DomainsSleepAndWake : Prop :=
  Part.LadderEntersAndLeaves ∧ Part.TileSleepEntriesComplete ∧ Part.IdleDomainsSleep ∧ Part.DeepFrostExit

/-- The power manager's samples and its budget registers. -/
def Obligations.PowerManagerRuns : Prop :=
  Part.PowerManagerSamples ∧ Part.BudgetWritesChecked

/-- A failed stage halts, and the records of bring-up are kept. -/
def Obligations.FailedStagesAndRecords : Prop :=
  Part.FailedStageHalts ∧ Part.BringUpRecordsKept

/-- The operations of the matrix and the vector engine. -/
def Obligations.EngineOperationsRun : Prop :=
  Part.MatrixOperationsRun ∧ Part.VectorOperationsRun

/-- A wait times out, and Isobar repeats a packet once. -/
def Obligations.WaitsAndRetries : Prop :=
  Part.WaitsTimeOut ∧ Part.IsobarRetriesOnce

/-- The sweep, the snapshot of the waits, the ranges of pooled queues. -/
def Obligations.SweepsAndSnapshots : Prop :=
  Part.SweepChecksAndReleases ∧ Part.SnapshotsAndRanges

/-- The memory stacks serve requests, and scrubbing keeps the bytes. -/
def Obligations.MemoryServesAndScrubs : Prop :=
  Part.MemoryRequestsServed ∧ Part.ScrubKeepsBytes

/-- Flits cross their outputs and are served at their targets. -/
def Obligations.FlitsMoveAndAreServed : Prop :=
  Part.FlitsCrossOutputs ∧ Part.FlitsServedAtTargets

/-- A bundle issues, and the store buffer drains from its head. -/
def Obligations.BundlesIssueAndDrain : Prop :=
  Part.BundleIssues ∧ Part.StoreBufferDrainsHead

/-- A tile is loaded, starts and halts, and the provider's debug functions act on it. -/
def Obligations.TilesRunAndDebug : Prop :=
  Part.TileStartsAndHalts ∧ Part.DebugFunctionsAct

/-- The assignment of units, their scrub, and the isolation claim. -/
def Obligations.AssignmentsAndClaims : Prop :=
  Part.AssignmentWritesChecked ∧ Part.ScrubsAndClaims

/-- The image requests of the mailbox, the erase of a slot and the burning of fuses that they start. -/
def Obligations.ImagesEraseAndCommit : Prop :=
  Part.ImageRequestsServed ∧ Part.EraseAndCommitProceed

/-- Event rings, twin pairs and withheld granules. -/
def Obligations.EventsAndTwins : Prop :=
  Part.EventRingsWrite ∧ Part.TwinsCompareAndGranulesReturn

/-- MCTP control and PLDM types 0 and 2. -/
def Obligations.ManagementAnswers : Prop :=
  Part.MctpAndPldmBaseAnswer ∧ Part.PldmMonitorsAndControls

/-- The input bands, and the throttle that moves one step at a time. -/
def Obligations.BandsAndThrottle : Prop :=
  Part.InputBandsFollowVoltage ∧ Part.ThrottleStepsByOne

/-- A stop ends in Start wait, and a rail's fault is contained. -/
def Obligations.StopsAndRailFaults : Prop :=
  Part.StopEndsInStartWait ∧ Part.RailFaultsContained
end

