-- ==== Sys2Proof/Laws/Fixed.lean ====
section
/-! SUPPORT. What no operation but a burn touches: the queue of waiting commands and the fuses. `foo_fixed` says that `foo`
leaves both as they are; a meaning `Fixes` them when every next state it answers has them unchanged. -/

namespace Sys2Proof.Machine

/-- The queue of waiting commands, and the fuses. -/
def State.fixed (s : State) : List Instr × Vector Word 64 := (s.pending, s.fuses)

/-- An outcome that, where it is a next state, has the queue and the fuses of `s`. -/
def Fixes (s : State) : Res → Prop
  | .next t => t.fixed = s.fixed
  | _ => True

@[simp] theorem State.fixed_mk 
    (phase frost tick regs free out pending pins tiles isobar isoSeq waiters touched pqs flits hcq hbm poison moved rewrites slotsJ slotsB slotsM slotsL breeze rings polls funcs vfEnable tens granules granPoison handles startCount unitEpoch reqEpoch lastCommit quiesces evRings coalesce twins excluded heldEv mgmt doms supply store fuses boot links domain rimes hbmLog hbmRow hbmAhead hbmBytes scrubs exclWait retiring turn mbx mbxHeld snap) : (State.mk phase frost tick regs free out pending pins tiles isobar isoSeq waiters touched pqs flits hcq hbm poison moved rewrites slotsJ slotsB slotsM slotsL breeze rings polls funcs vfEnable tens granules granPoison handles startCount unitEpoch reqEpoch lastCommit quiesces evRings coalesce twins excluded heldEv mgmt doms supply store fuses boot links domain rimes hbmLog hbmRow hbmAhead hbmBytes scrubs exclWait retiring turn mbx mbxHeld snap).fixed = (pending, fuses) := rfl
@[simp] theorem fixed_fold : ∀ (s : State), (s.pending, s.fuses) = s.fixed := fun _ => rfl
@[simp] theorem foldl_fixed {α : Type} (l : List α) (f : State → α → State) (h : ∀ s a, (f s a).fixed = s.fixed) (s : State) :
    (l.foldl f s).fixed = s.fixed := by
  induction l generalizing s with
  | nil => rfl
  | cons a l ih => simp [ih, h]
@[simp] theorem ite_fixed (c : Prop) [Decidable c] (a b : State) : (if c then a else b).fixed = if c then a.fixed else b.fixed := by
  split <;> rfl

@[simp] theorem State.set_fixed (f : Fld) (v : Nat) (s : State) : (State.set f v s).fixed = s.fixed := by simp [State.set]

@[simp] theorem State.bump_fixed (f : Fld) (n : Nat) (s : State) : (State.bump f n s).fixed = s.fixed := by simp [State.bump]

@[simp] theorem State.wrapAdd_fixed (f : Fld) (n : Nat) (s : State) : (State.wrapAdd f n s).fixed = s.fixed := by simp [State.wrapAdd]

@[simp] theorem State.unset_fixed (fs : List Fld) (s : State) : (State.unset fs s).fixed = s.fixed := by simp [State.unset]

@[simp] theorem State.unsetRange_fixed (lo hi : Nat) (s : State) : (State.unsetRange lo hi s).fixed = s.fixed := by simp [State.unsetRange]

@[simp] theorem State.putWord_fixed (fs : List Fld) (part : Part) (v : Word) (s : State) :
    (State.putWord fs part v s).fixed = s.fixed := by
  unfold State.putWord
  (try dsimp only)
  repeat' (first | (simp; done) | intro _ _ | refine (foldl_fixed _ _ ?_ _).trans ?_ | split | simp | dsimp only)

@[simp] theorem State.modTile_fixed (g : Nat) (f : Tile → Tile) (s : State) : (State.modTile g f s).fixed = s.fixed := by simp [State.modTile]

@[simp] theorem State.modRing_fixed (f r : Nat) (h : Ring → Ring) (s : State) : (State.modRing f r h s).fixed = s.fixed := by
  unfold State.modRing
  (repeat' split) <;> simp

@[simp] theorem State.modFunc_fixed (f : Nat) (h : Func → Func) (s : State) : (State.modFunc f h s).fixed = s.fixed := by simp [State.modFunc]

@[simp] theorem State.modTen_fixed (t : Nat) (h : Tenancy → Tenancy) (s : State) : (State.modTen t h s).fixed = s.fixed := by simp [State.modTen]

@[simp] theorem State.modEvRing_fixed (i : Nat) (h : EvRing → EvRing) (s : State) : (State.modEvRing i h s).fixed = s.fixed := by simp [State.modEvRing]

@[simp] theorem State.modLink_fixed (j : Nat) (h : Link → Link) (s : State) : (State.modLink j h s).fixed = s.fixed := by simp [State.modLink]

@[simp] theorem State.modRime_fixed (d : Nat) (h : Rime → Rime) (s : State) : (State.modRime d h s).fixed = s.fixed := by simp [State.modRime]

@[simp] theorem State.setPq_fixed (q : Nat) (v : Queue) (s : State) : (State.setPq q v s).fixed = s.fixed := by simp [State.setPq]

@[simp] theorem State.sendIso_fixed (p : Iso) (s : State) : (State.sendIso p s).fixed = s.fixed := by simp [State.sendIso]

@[simp] theorem State.touchQ_fixed (pool : Bool) (tile queue port : Nat) (old : Queue) (s : State) :
    (State.touchQ pool tile queue port old s).fixed = s.fixed := by simp [State.touchQ]

@[simp] theorem State.dropWaiters_fixed (gone : Waiter → Bool) (s : State) : (State.dropWaiters gone s).fixed = s.fixed := by simp [State.dropWaiters]

@[simp] theorem State.draw_fixed (s : State) : (State.draw s).fixed = s.fixed := by simp [State.draw]

@[simp] theorem State.emit_fixed (o : Out) (s : State) : (State.emit o s).fixed = s.fixed := by simp [State.emit]

@[simp] theorem State.idle_fixed (s : State) : (State.idle s).fixed = s.fixed := by simp [State.idle]

@[simp] theorem State.whenReady_fixed (k : State → State) (s : State) (hk : ∀ s, (k s).fixed = s.fixed) :
    (State.whenReady k s).fixed = s.fixed := by simp [State.whenReady, hk]

@[simp] theorem State.hbmWrite_fixed (a : Nat) (bs : List Byte) (s : State) : (State.hbmWrite a bs s).fixed = s.fixed := by simp [State.hbmWrite]

@[simp] theorem State.sendMsix_fixed (f v : Nat) (s : State) : (State.sendMsix f v s).fixed = s.fixed := by simp [State.sendMsix]

@[simp] theorem State.pushEvent_fixed (i : Nat) (e : EvRec) (s : State) : (State.pushEvent i e s).fixed = s.fixed := by simp [State.pushEvent]

@[simp] theorem State.logEvent_fixed (e : EvRec) (s : State) : (State.logEvent e s).fixed = s.fixed := by simp [State.logEvent]

@[simp] theorem State.logRefused_fixed (off func v : Nat) (s : State) : (State.logRefused off func v s).fixed = s.fixed := by simp [State.logRefused]

@[simp] theorem State.logCorrected_fixed (source : Nat) (e : EvRec) (s : State) : (State.logCorrected source e s).fixed = s.fixed := by
  unfold State.logCorrected
  (try dsimp only)
  (repeat' split) <;> simp

@[simp] theorem State.flushCoalesced_fixed (s : State) : (State.flushCoalesced s).fixed = s.fixed := by simp [State.flushCoalesced]

@[simp] theorem State.pldmEvent_fixed (kind : Nat) (data : List Byte) (s : State) : (State.pldmEvent kind data s).fixed = s.fixed := by
  unfold State.pldmEvent
  (try dsimp only)
  (repeat' split) <;> simp

@[simp] theorem State.classEvent_fixed (e : EvRec) (s : State) : (State.classEvent e s).fixed = s.fixed := by simp [State.classEvent]

@[simp] theorem State.modDom_fixed (n : Nat) (f : Dom → Dom) (s : State) : (State.modDom n f s).fixed = s.fixed := by simp [State.modDom]

@[simp] theorem State.takeShare_fixed (share q : Nat) (s : State) : (State.takeShare share q s).fixed = s.fixed := by simp [State.takeShare]

@[simp] theorem State.askGrant_fixed (share : Nat) (x : Quantum) (q : Nat) (s : State) :
    (State.askGrant share x q s).fixed = s.fixed := by simp [State.askGrant]

@[simp] theorem State.fall_fixed (n q : Nat) (s : State) : (State.fall n q s).fixed = s.fixed := by simp [State.fall]

@[simp] theorem State.rateDown_fixed (n : Nat) (s : State) : (State.rateDown n s).fixed = s.fixed := by simp [State.rateDown]

@[simp] theorem State.rateUp_fixed (n : Nat) (s : State) : (State.rateUp n s).2.fixed = s.fixed := by
  unfold State.rateUp
  (repeat' split) <;> simp

theorem State.rateUp_held {n : Nat} {s t : State} {b : Bool} (h : State.rateUp n s = (b, t)) : t.fixed = s.fixed := by
  simpa [h] using State.rateUp_fixed n s

@[simp] theorem State.touchDom_fixed (n : Nat) (s : State) : (State.touchDom n s).fixed = s.fixed := by simp [State.touchDom]

@[simp] theorem State.setDomState_fixed (n st : Nat) (s : State) : (State.setDomState n st s).fixed = s.fixed := by simp [State.setDomState]

@[simp] theorem State.wakeFrost_fixed (s : State) : (State.wakeFrost s).fixed = s.fixed := by
  unfold State.wakeFrost
  (repeat' split) <;> simp

@[simp] theorem State.setRail_fixed (i mv : Nat) (s : State) : (State.setRail i mv s).fixed = s.fixed := by simp [State.setRail]

@[simp] theorem State.raiseRails_fixed (is : List Nat) (s : State) : (State.raiseRails is s).fixed = s.fixed := by simp [State.raiseRails]

@[simp] theorem State.retarget_fixed (d : Nat) (s : State) : (State.retarget d s).fixed = s.fixed := by simp [State.retarget]

@[simp] theorem State.retargetAll_fixed (s : State) : (State.retargetAll s).fixed = s.fixed := by simp [State.retargetAll]

@[simp] theorem State.stepDomain_fixed (n k : Nat) (s : State) : (State.stepDomain n k s).fixed = s.fixed := by simp [State.stepDomain]

@[simp] theorem State.applyStep_fixed (n k : Nat) (s : State) : (State.applyStep n k s).fixed = s.fixed := by simp [State.applyStep]

@[simp] theorem State.supplyWarning_fixed (cause rail : Nat) (t : Nat) (s : State) :
    (State.supplyWarning cause rail t s).fixed = s.fixed := by simp [State.supplyWarning]

@[simp] theorem State.budgetTen_fixed (loan : Nat) (t : Nat) (s : State) : (State.budgetTen loan t s).fixed = s.fixed := by simp [State.budgetTen]

@[simp] theorem State.rimeStep_fixed (d : Nat) (s : State) : (State.rimeStep d s).fixed = s.fixed := by simp [State.rimeStep]

@[simp] theorem State.rebudget_fixed (s : State) : (State.rebudget s).fixed = s.fixed := by simp [State.rebudget]

@[simp] theorem State.enterSleep_fixed (n st : Nat) (s : State) : (State.enterSleep n st s).fixed = s.fixed := by simp [State.enterSleep]

@[simp] theorem State.openSwitch_fixed (n : Nat) (s : State) : (State.openSwitch n s).fixed = s.fixed := by simp [State.openSwitch]

@[simp] theorem State.wakeDomain_fixed (n : Nat) (s : State) : (State.wakeDomain n s).fixed = s.fixed := by
  unfold State.wakeDomain
  (try dsimp only)
  (repeat' split) <;> simp

@[simp] theorem State.through_fixed (ds : List Nat) (carried lost : State → State) (s : State) (hcarried : ∀ s, (carried s).fixed = s.fixed) (hlost : ∀ s, (lost s).fixed = s.fixed) :
    (State.through ds carried lost s).fixed = s.fixed := by simp [State.through, hcarried, hlost]

@[simp] theorem State.syncDrizzle_fixed (g : Nat) (s : State) : (State.syncDrizzle g s).fixed = s.fixed := by
  unfold State.syncDrizzle
  (try dsimp only)
  (repeat' split) <;> simp

@[simp] theorem State.rampPanel_fixed (g p level : Nat) (start : Word) (ns : Nat) (s : State) :
    (State.rampPanel g p level start ns s).fixed = s.fixed := by simp [State.rampPanel]

@[simp] theorem State.settleRate_fixed (g : Nat) (s : State) : (State.settleRate g s).fixed = s.fixed := by simp [State.settleRate]

@[simp] theorem State.drizzleDown_fixed (g p ns : Nat) (s : State) : (State.drizzleDown g p ns s).fixed = s.fixed := by simp [State.drizzleDown]

@[simp] theorem State.setRun_fixed (g r : Nat) (s : State) : (State.setRun g r s).fixed = s.fixed := by simp [State.setRun]

@[simp] theorem State.syncSb_fixed (g : Nat) (s : State) : (State.syncSb g s).fixed = s.fixed := by simp [State.syncSb]

@[simp] theorem State.syncDma_fixed (g : Nat) (s : State) : (State.syncDma g s).fixed = s.fixed := by simp [State.syncDma]

@[simp] theorem State.syncMx_fixed (g : Nat) (s : State) : (State.syncMx g s).fixed = s.fixed := by simp [State.syncMx]

@[simp] theorem State.syncVx_fixed (g : Nat) (s : State) : (State.syncVx g s).fixed = s.fixed := by simp [State.syncVx]

@[simp] theorem State.syncTile_fixed (g : Nat) (s : State) : (State.syncTile g s).fixed = s.fixed := by simp [State.syncTile]

@[simp] theorem State.releaseClaim_fixed (g : Nat) (s : State) : (State.releaseClaim g s).fixed = s.fixed := by simp [State.releaseClaim]

@[simp] theorem State.modCmd_fixed (f r idx : Nat) (h : RingCmd → RingCmd) (s : State) :
    (State.modCmd f r idx h s).fixed = s.fixed := by simp [State.modCmd]

@[simp] theorem State.failCmd_fixed (f r idx : Nat) (e : Failure) (s : State) : (State.failCmd f r idx e s).fixed = s.fixed := by simp [State.failCmd]

@[simp] theorem State.departToken_fixed (g : Nat) (p : Iso) (s : State) : (State.departToken g p s).fixed = s.fixed := by
  unfold State.departToken
  (repeat' split) <;> simp

@[simp] theorem State.headDrained_fixed (g : Nat) (s : State) : (State.headDrained g s).fixed = s.fixed := by simp [State.headDrained]

@[simp] theorem State.sendCancel_fixed (g : Nat) (s : State) : (State.sendCancel g s).fixed = s.fixed := by simp [State.sendCancel]

@[simp] theorem State.cancelThen_fixed (g : Nat) (a : AfterCancel) (s : State) : (State.cancelThen g a s).fixed = s.fixed := by simp [State.cancelThen]

@[simp] theorem State.quenchTile_fixed (g : Nat) (s : State) : (State.quenchTile g s).fixed = s.fixed := by simp [State.quenchTile]

@[simp] theorem State.recordFault_fixed (g code status slot addr : Nat) (s : State) :
    (State.recordFault g code status slot addr s).fixed = s.fixed := by simp [State.recordFault]

@[simp] theorem State.stopNow_fixed (code status g : Nat) (s : State) : (State.stopNow code status g s).fixed = s.fixed := by simp [State.stopNow]

@[simp] theorem State.stopOne_fixed (code status g : Nat) (s : State) : (State.stopOne code status g s).fixed = s.fixed := by simp [State.stopOne]

@[simp] theorem State.stopPlacement_fixed (code status place : Nat) (s : State) :
    (State.stopPlacement code status place s).fixed = s.fixed := by simp [State.stopPlacement]

@[simp] theorem State.raiseExc_fixed (g code status slot addr : Nat) (s : State) :
    (State.raiseExc g code status slot addr s).fixed = s.fixed := by
  unfold State.raiseExc
  (try dsimp only)
  (repeat' split) <;> simp

@[simp] theorem State.markCorrected_fixed (g : Nat) (s : State) : (State.markCorrected g s).fixed = s.fixed := by
  unfold State.markCorrected
  (repeat' split) <;> simp

@[simp] theorem State.scrubTile_fixed (g : Nat) (s : State) : (State.scrubTile g s).fixed = s.fixed := by simp [State.scrubTile]

@[simp] theorem State.resetTile_fixed (g : Nat) (s : State) : (State.resetTile g s).fixed = s.fixed := by simp [State.resetTile]

@[simp] theorem State.syncRime_fixed (d : Nat) (s : State) : (State.syncRime d s).fixed = s.fixed := by simp [State.syncRime]

@[simp] theorem State.spoilWave_fixed (d : Nat) (s : State) : (State.spoilWave d s).fixed = s.fixed := by simp [State.spoilWave]

@[simp] theorem State.rimeAbandon_fixed (d : Nat) (s : State) : (State.rimeAbandon d s).fixed = s.fixed := by simp [State.rimeAbandon]

@[simp] theorem State.rimeRest_fixed (d : Nat) (s : State) : (State.rimeRest d s).fixed = s.fixed := by simp [State.rimeRest]

@[simp] theorem State.rimeForget_fixed (e : Nat × Nat × Nat) (s : State) : (State.rimeForget e s).fixed = s.fixed := by simp [State.rimeForget]

@[simp] theorem State.emptyStore_fixed (d : Nat) (s : State) : (State.emptyStore d s).fixed = s.fixed := by simp [State.emptyStore]

@[simp] theorem State.scrubRime_fixed (d : Nat) (s : State) : (State.scrubRime d s).fixed = s.fixed := by simp [State.scrubRime]

@[simp] theorem State.writeStatus_fixed (f r : Nat) (s : State) : (State.writeStatus f r s).fixed = s.fixed := by simp [State.writeStatus]

@[simp] theorem State.setRingState_fixed (f r st : Nat) (s : State) : (State.setRingState f r st s).fixed = s.fixed := by simp [State.setRingState]

@[simp] theorem State.ringMsix_fixed (f r : Nat) (s : State) : (State.ringMsix f r s).fixed = s.fixed := by simp [State.ringMsix]

@[simp] theorem State.writeCpl_fixed (f r : Nat) (c : Cpl) (s : State) : (State.writeCpl f r c s).fixed = s.fixed := by simp [State.writeCpl]

@[simp] theorem State.queueAborts_fixed (f : Nat) (l : List (Nat × Nat)) (s : State) : (State.queueAborts f l s).fixed = s.fixed := by
  unfold State.queueAborts
  repeat' (first | (simp; done) | intro _ _ | refine (foldl_fixed _ _ ?_ _).trans ?_ | split | simp | dsimp only)

@[simp] theorem State.flushRing_fixed (f r k : Nat) (s : State) : (State.flushRing f r k s).fixed = s.fixed := by
  induction k generalizing s with
  | zero => rfl
  | succ k ih =>
    unfold State.flushRing
    dsimp only
    split
    · split <;> simp
    · split
      · rfl
      · rw [ih]
        simp

@[simp] theorem State.flushFunc_fixed (f : Nat) (s : State) : (State.flushFunc f s).fixed = s.fixed := by simp [State.flushFunc]

@[simp] theorem State.endTwins_fixed (pairs : List (Nat × Nat)) (s : State) : (State.endTwins pairs s).fixed = s.fixed := by simp [State.endTwins]

@[simp] theorem State.endCmd_fixed (f r : Nat) (c : RingCmd) (status result : Nat) (s : State) :
    (State.endCmd f r c status result s).fixed = s.fixed := by simp [State.endCmd]

@[simp] theorem State.logCmd_fixed (f r : Nat) (c : RingCmd) (e : EvRec) (s : State) : (State.logCmd f r c e s).fixed = s.fixed := by simp [State.logCmd]

@[simp] theorem State.cutCmd_fixed (f r code status : Nat) (c : RingCmd) (s : State) :
    (State.cutCmd f r code status c s).fixed = s.fixed := by simp [State.cutCmd]

@[simp] theorem State.cutAll_fixed (p : Nat → RingCmd → Bool) (code status : Nat) (s : State) :
    (State.cutAll p code status s).fixed = s.fixed := by simp [State.cutAll]

@[simp] theorem State.resetRings_fixed (f : Nat) (s : State) : (State.resetRings f s).fixed = s.fixed := by simp [State.resetRings]

@[simp] theorem State.resetFunc_fixed (f : Nat) (s : State) : (State.resetFunc f s).fixed = s.fixed := by simp [State.resetFunc]

@[simp] theorem State.copyEpoch_fixed (u e : Nat) (s : State) : (State.copyEpoch u e s).fixed = s.fixed := by simp [State.copyEpoch]

@[simp] theorem State.giveEpoch_fixed (u e : Nat) (s : State) : (State.giveEpoch u e s).fixed = s.fixed := by simp [State.giveEpoch]

@[simp] theorem State.commitEpoch_fixed (u reason : Nat) (s : State) : (State.commitEpoch u reason s).fixed = s.fixed := by simp [State.commitEpoch]

@[simp] theorem State.sendEpoch_fixed (u phase reason tenancy : Nat) (s : State) :
    (State.sendEpoch u phase reason tenancy s).fixed = s.fixed := by simp [State.sendEpoch]

@[simp] theorem State.askQuiesce_fixed (q : Quiesce) (s : State) : (State.askQuiesce q s).fixed = s.fixed := by simp [State.askQuiesce]

@[simp] theorem State.clearMap_fixed (u : Nat) (s : State) : (State.clearMap u s).fixed = s.fixed := by simp [State.clearMap]

@[simp] theorem State.cutUsers_fixed (us : List Nat) (status : Nat) (s : State) : (State.cutUsers us status s).fixed = s.fixed := by simp [State.cutUsers]

@[simp] theorem State.contain_fixed (us : List Nat) (e : EvRec) (s : State) : (State.contain us e s).fixed = s.fixed := by simp [State.contain]

@[simp] theorem State.laterFailure_fixed (g code status slot ba : Nat) (s : State) :
    (State.laterFailure g code status slot ba s).fixed = s.fixed := by
  unfold State.laterFailure
  (try dsimp only)
  (repeat' split) <;> simp

@[simp] theorem State.abortGone_fixed (u g : Nat) (s : State) : (State.abortGone u g s).fixed = s.fixed := by simp [State.abortGone]

@[simp] theorem State.abortRequesters_fixed (u : Nat) (s : State) : (State.abortRequesters u s).fixed = s.fixed := by simp [State.abortRequesters]

@[simp] theorem State.setQuiesce_fixed (old new : Quiesce) (s : State) : (State.setQuiesce old new s).fixed = s.fixed := by simp [State.setQuiesce]

@[simp] theorem State.setLinkFor_fixed (hits : List (Nat × Nat × RingCmd)) (status j st cause : Nat) (s : State) :
    (State.setLinkFor hits status j st cause s).fixed = s.fixed := by simp [State.setLinkFor]

@[simp] theorem State.setLink_fixed (j st cause : Nat) (s : State) : (State.setLink j st cause s).fixed = s.fixed := by simp [State.setLink]

@[simp] theorem State.queueWord_fixed (j kind part body : Nat) (s : State) : (State.queueWord j kind part body s).fixed = s.fixed := by simp [State.queueWord]

@[simp] theorem State.sendDown_fixed (j cause : Nat) (s : State) : (State.sendDown j cause s).fixed = s.fixed := by simp [State.sendDown]

@[simp] theorem State.sendDowns_fixed (cause : Nat) (s : State) : (State.sendDowns cause s).fixed = s.fixed := by simp [State.sendDowns]

@[simp] theorem State.sendIdentity_fixed (j : Nat) (s : State) : (State.sendIdentity j s).fixed = s.fixed := by simp [State.sendIdentity]

@[simp] theorem State.computeDigest_fixed (s : State) : (State.computeDigest s).fixed = s.fixed := by simp [State.computeDigest]

@[simp] theorem State.failChannels_fixed (j status : Nat) (s : State) : (State.failChannels j status s).fixed = s.fixed := by simp [State.failChannels]

@[simp] theorem State.linkToDown_fixed (j cause : Nat) (s : State) : (State.linkToDown j cause s).fixed = s.fixed := by simp [State.linkToDown]

@[simp] theorem State.linkDisable_fixed (j cause : Nat) (s : State) : (State.linkDisable j cause s).fixed = s.fixed := by simp [State.linkDisable]

@[simp] theorem State.linkToTrain_fixed (j : Nat) (s : State) : (State.linkToTrain j s).fixed = s.fixed := by simp [State.linkToTrain]

@[simp] theorem State.linkSettle_fixed (j : Nat) (s : State) : (State.linkSettle j s).fixed = s.fixed := by
  unfold State.linkSettle
  (repeat' split) <;> simp

@[simp] theorem State.bankDown_fixed (b : Nat) (s : State) : (State.bankDown b s).fixed = s.fixed := by simp [State.bankDown]

@[simp] theorem State.switchOff_fixed (n : Nat) (s : State) : (State.switchOff n s).fixed = s.fixed := by simp [State.switchOff]

@[simp] theorem State.bankUp_fixed (b : Nat) (s : State) : (State.bankUp b s).fixed = s.fixed := by simp [State.bankUp]

@[simp] theorem State.queueMap_fixed (j t : Nat) (s : State) : (State.queueMap j t s).fixed = s.fixed := by simp [State.queueMap]

@[simp] theorem State.publishMap_fixed (t : Nat) (s : State) : (State.publishMap t s).fixed = s.fixed := by simp [State.publishMap]

@[simp] theorem State.newMap_fixed (t : Nat) (s : State) : (State.newMap t s).fixed = s.fixed := by simp [State.newMap]

@[simp] theorem State.admitLink_fixed (j : Nat) (s : State) : (State.admitLink j s).fixed = s.fixed := by simp [State.admitLink]

@[simp] theorem State.identify_fixed (j : Nat) (s : State) : (State.identify j s).fixed = s.fixed := by
  unfold State.identify
  (try dsimp only)
  (repeat' split) <;> simp

@[simp] theorem State.requarantine_fixed (j : Nat) (s : State) : (State.requarantine j s).fixed = s.fixed := by simp [State.requarantine]

@[simp] theorem State.syncDomMap_fixed (s : State) : (State.syncDomMap s).fixed = s.fixed := by simp [State.syncDomMap]

@[simp] theorem State.queueRec_fixed (kind : Nat) (s : State) : (State.queueRec kind s).fixed = s.fixed := by simp [State.queueRec]

@[simp] theorem State.cutStore_fixed (s : State) : (State.cutStore s).fixed = s.fixed := by
  unfold State.cutStore
  (try dsimp only)
  (repeat' split) <;> simp

@[simp] theorem State.loseAll_fixed (s : State) : (State.loseAll s).fixed = s.fixed := by simp [State.loseAll]

@[simp] theorem State.latchStop_fixed (record : List Byte) (s : State) : (State.latchStop record s).fixed = s.fixed := by simp [State.latchStop]

theorem State.due_fixed (s t : State) (o : List Out) (d : Option (List Out × List Out)) :
    ({ s with out := o, supply := { t.supply with dueOut := d } } : State).fixed = s.fixed := rfl

@[simp] theorem State.stopCompletions_fixed (status : Nat) (s : State) : (State.stopCompletions status s).fixed = s.fixed := by
  unfold State.stopCompletions
  generalize h1 : s.cutAll (fun _ _ => true) 0 stAbortedSag = a
  generalize h2 : s.cutAll (fun _ _ => true) 0 status = b
  have ha : a.fixed = s.fixed := by simp [← h1]
  have hb : b.fixed = s.fixed := by simp [← h2]
  clear h1 h2
  refine (ite_fixed _ _ _).trans ?_
  split
  · exact ha
  · exact (State.due_fixed _ _ _ _).trans hb

@[simp] theorem State.flushStop_fixed (s : State) : (State.flushStop s).fixed = s.fixed := by
  unfold State.flushStop
  (try dsimp only)
  (repeat' split) <;> simp

@[simp] theorem State.keepRecords_fixed (es : List EvRec) (s : State) : (State.keepRecords es s).fixed = s.fixed := by simp [State.keepRecords]

@[simp] theorem State.fabricCorrected_fixed (net unit port : Nat) (s : State) :
    (State.fabricCorrected net unit port s).fixed = s.fixed := by simp [State.fabricCorrected]

@[simp] theorem State.retireRec_fixed (kind idx action row unit : Nat) (s : State) :
    (State.retireRec kind idx action row unit s).fixed = s.fixed := by simp [State.retireRec]

@[simp] theorem State.cutEngine_fixed (u : Nat) (s : State) : (State.cutEngine u s).fixed = s.fixed := by simp [State.cutEngine]

@[simp] theorem State.excludeUnit_fixed (u row : Nat) (retire : Bool) (s : State) :
    (State.excludeUnit u row retire s).fixed = s.fixed := by simp [State.excludeUnit]

@[simp] theorem State.excludeLater_fixed (u row : Nat) (retire : Bool) (s : State) :
    (State.excludeLater u row retire s).fixed = s.fixed := by simp [State.excludeLater]

@[simp] theorem State.settleExclusions_fixed (s : State) : (State.settleExclusions s).fixed = s.fixed := by simp [State.settleExclusions]

@[simp] theorem State.countCorrected_fixed (g : Nat) (s : State) : (State.countCorrected g s).fixed = s.fixed := by simp [State.countCorrected]

@[simp] theorem State.countUncorrected_fixed (g where' : Nat) (s : State) : (State.countUncorrected g where' s).fixed = s.fixed := by simp [State.countUncorrected]

@[simp] theorem State.countSdc_fixed (g t : Nat) (s : State) : (State.countSdc g t s).fixed = s.fixed := by simp [State.countSdc]

@[simp] theorem State.sramEvent_fixed (g structure' addr panel bank row cls status : Nat) (s : State) :
    (State.sramEvent g structure' addr panel bank row cls status s).fixed = s.fixed := by simp [State.sramEvent]

@[simp] theorem State.spCorrected_fixed (g addr : Nat) (s : State) : (State.spCorrected g addr s).fixed = s.fixed := by simp [State.spCorrected]

@[simp] theorem State.isCorrected_fixed (g addr : Nat) (s : State) : (State.isCorrected g addr s).fixed = s.fixed := by simp [State.isCorrected]

@[simp] theorem State.spUncorrected_fixed (g addr : Nat) (s : State) : (State.spUncorrected g addr s).fixed = s.fixed := by simp [State.spUncorrected]

@[simp] theorem State.isUncorrected_fixed (g addr : Nat) (s : State) : (State.isUncorrected g addr s).fixed = s.fixed := by simp [State.isUncorrected]

@[simp] theorem State.withhold_fixed (G : Nat) (s : State) : (State.withhold G s).fixed = s.fixed := by simp [State.withhold]

@[simp] theorem State.countPoison_fixed (word : Nat) (s : State) : (State.countPoison word s).fixed = s.fixed := by simp [State.countPoison]

@[simp] theorem State.departFlit_fixed (g : Nat) (f : Flit) (s : State) : (State.departFlit g f s).fixed = s.fixed := by
  unfold State.departFlit
  (repeat' split) <;> simp

@[simp] theorem State.inject_fixed (g c : Nat) (s : State) : (State.inject g c s).fixed = s.fixed := by
  unfold State.inject
  (try dsimp only)
  (repeat' split) <;> simp

@[simp] theorem State.copyWrites_fixed (f r : Nat) (c : RingCmd) (n o : Nat) (bs : List Byte) (s : State) : (State.copyWrites f r c n o bs s).fixed = s.fixed := by
  induction n generalizing o bs s with
  | zero => rfl
  | succ n ih =>
    unfold State.copyWrites
    dsimp only
    split
    · rfl
    · rw [ih]
      simp

@[simp] theorem State.copyPump_fixed (f r idx n : Nat) (s : State) : (State.copyPump f r idx n s).fixed = s.fixed := by
  induction n generalizing s with
  | zero => rfl
  | succ n ih =>
    unfold State.copyPump
    dsimp only
    split
    · rfl
    · split
      · rfl
      · rw [ih]
        simp

@[simp] theorem State.dropFlit_fixed (k : Nat) (s : State) : (State.dropFlit k s).fixed = s.fixed := by simp [State.dropFlit]

@[simp] theorem State.countWait_fixed (l : Loc) (port n : Nat) (s : State) : (State.countWait l port n s).fixed = s.fixed := by
  unfold State.countWait
  (repeat' split) <;> simp

@[simp] theorem State.countLate_fixed (l : Loc) (s : State) : (State.countLate l s).fixed = s.fixed := by
  unfold State.countLate
  (repeat' split) <;> simp

@[simp] theorem State.correctedFlit_fixed (f : Flit) (s : State) : (State.correctedFlit f s).fixed = s.fixed := by
  unfold State.correctedFlit
  (try dsimp only)
  (repeat' split) <;> simp

@[simp] theorem State.atTarget_fixed (k : Nat) (f : Flit) (effect : State → State) (s : State) (heffect : ∀ s, (effect s).fixed = s.fixed) :
    (State.atTarget k f effect s).fixed = s.fixed := by simp [State.atTarget, heffect]

@[simp] theorem State.stale_fixed (s : State) : (State.stale s).fixed = s.fixed := by simp [State.stale]

@[simp] theorem State.wack_fixed (f : Flit) (status : Nat) (s : State) : (State.wack f status s).fixed = s.fixed := by simp [State.wack]

@[simp] theorem State.rdata_fixed (f : Flit) (data : List Byte) (poison : Bool) (s : State) :
    (State.rdata f data poison s).fixed = s.fixed := by simp [State.rdata]

@[simp] theorem State.toHc_fixed (f : Flit) (s : State) : (State.toHc f s).fixed = s.fixed := by simp [State.toHc]

@[simp] theorem State.linkAccept_fixed (f : Flit) (s : State) : (State.linkAccept f s).fixed = s.fixed := by
  unfold State.linkAccept
  (try dsimp only)
  (repeat' split) <;> simp

@[simp] theorem State.takeWrite_fixed (f : Flit) (s : State) : (State.takeWrite f s).fixed = s.fixed := by simp [State.takeWrite]

theorem execJsWrite_fixed (k : Nat) (s : State) : Fixes s (execJsWrite k s) := by
  unfold execJsWrite
  (repeat' split) <;> simp [Fixes]

@[simp] theorem State.takeRead_fixed (f : Flit) (ecc : Secded) (s : State) : (State.takeRead f ecc s).fixed = s.fixed := by
  unfold State.takeRead
  (try dsimp only)
  (repeat' split) <;> simp

theorem execJsRead_fixed (k : Nat) (ecc : Secded) (s : State) : Fixes s (execJsRead k ecc s) := by
  unfold execJsRead
  (repeat' split) <;> simp [Fixes]

@[simp] theorem State.absorb_fixed (g : Nat) (f : Flit) (s : State) : (State.absorb g f s).fixed = s.fixed := by simp [State.absorb]

@[simp] theorem State.takeRdata_fixed (f : Flit) (g : Nat) (s : State) : (State.takeRdata f g s).fixed = s.fixed := by
  unfold State.takeRdata
  (try dsimp only)
  (repeat' split) <;> simp

@[simp] theorem State.takeCopy_fixed (f : Flit) (s : State) : (State.takeCopy f s).fixed = s.fixed := by
  unfold State.takeCopy
  (try dsimp only)
  (repeat' split) <;> simp

@[simp] theorem State.rdataToLink_fixed (f : Flit) (s : State) : (State.rdataToLink f s).fixed = s.fixed := by
  unfold State.rdataToLink
  (try dsimp only)
  (repeat' split) <;> simp

theorem execJsRdata_fixed (k : Nat) (s : State) : Fixes s (execJsRdata k s) := by
  unfold execJsRdata
  (try dsimp only)
  (repeat' split) <;> simp [Fixes]

@[simp] theorem State.takeWack_fixed (f : Flit) (g : Nat) (s : State) : (State.takeWack f g s).fixed = s.fixed := by simp [State.takeWack]

@[simp] theorem State.linkToken_fixed (j : Nat) (d : RxDesc) (tok : List Byte × Nat) (s : State) :
    (State.linkToken j d tok s).fixed = s.fixed := by simp [State.linkToken]

@[simp] theorem State.settleRx_fixed (j n : Nat) (s : State) : (State.settleRx j n s).fixed = s.fixed := by
  induction n generalizing s with
  | zero => rfl
  | succ n ih =>
    unfold State.settleRx
    dsimp only
    split
    · rfl
    · split <;> (rw [ih]; simp)

theorem execJsWack_fixed (k : Nat) (s : State) : Fixes s (execJsWack k s) := by
  unfold execJsWack
  (try dsimp only)
  (repeat' split) <;> simp [Fixes]

theorem execJsIswrite_fixed (k : Nat) (s : State) : Fixes s (execJsIswrite k s) := by
  unfold execJsIswrite
  (repeat' split) <;> simp [Fixes]

@[simp] theorem State.sendBlockWord_fixed (j n : Nat) (s : State) : (State.sendBlockWord j n s).fixed = s.fixed := by
  unfold State.sendBlockWord
  (try dsimp only)
  (repeat' split) <;> simp

@[simp] theorem State.sendFlit_fixed (j n : Nat) (x : Option (LFlit × Option Nat)) (s : State) :
    (State.sendFlit j n x s).fixed = s.fixed := by
  unfold State.sendFlit
  (try dsimp only)
  (repeat' split) <;> simp

@[simp] theorem State.bankWake_fixed (b : Nat) (s : State) : (State.bankWake b s).fixed = s.fixed := by simp [State.bankWake]

theorem execLinkSlot_fixed (link : Fin 64) (s : State) : Fixes s (execLinkSlot link s) := by
  unfold execLinkSlot
  (try dsimp only)
  (repeat' split) <;> simp [Fixes]

@[simp] theorem State.linkDiscard_fixed (j : Nat) (f : LFlit) (s : State) : (State.linkDiscard j f s).fixed = s.fixed := by simp [State.linkDiscard]

@[simp] theorem State.relayFlit_fixed (j : Nat) (f : LFlit) (s : State) : (State.relayFlit j f s).fixed = s.fixed := by
  unfold State.relayFlit
  (repeat' split) <;> simp

@[simp] theorem State.discardFlit_fixed (j : Nat) (f : LFlit) (s : State) : (State.discardFlit j f s).fixed = s.fixed := by simp [State.discardFlit]

@[simp] theorem State.acceptAllowed_fixed (j : Nat) (f : LFlit) (s : State) : (State.acceptAllowed j f s).fixed = s.fixed := by
  unfold State.acceptAllowed
  (try dsimp only)
  (repeat' split) <;> simp

@[simp] theorem State.deliver_fixed (j : Nat) (f : LFlit) (s : State) : (State.deliver j f s).fixed = s.fixed := by
  unfold State.deliver
  (try dsimp only)
  (repeat' split) <;> simp

@[simp] theorem State.markReplayed_fixed (j : Nat) (s : State) : (State.markReplayed j s).fixed = s.fixed := by simp [State.markReplayed]

@[simp] theorem State.replayFailed_fixed (j : Nat) (s : State) : (State.replayFailed j s).fixed = s.fixed := by simp [State.replayFailed]

@[simp] theorem State.takeNak_fixed (j : Nat) (s : State) : (State.takeNak j s).fixed = s.fixed := by
  unfold State.takeNak
  (try dsimp only)
  (repeat' split) <;> simp

@[simp] theorem State.refuseFlit_fixed (j : Nat) (again : Bool) (s : State) : (State.refuseFlit j again s).fixed = s.fixed := by simp [State.refuseFlit]

@[simp] theorem State.acceptFlit_fixed (j at' : Nat) (f : LFlit) (s : State) : (State.acceptFlit j at' f s).fixed = s.fixed := by simp [State.acceptFlit]

theorem execLinkFlitReceive_fixed (link : Fin 64) (flit : List Byte) (uncorr : Bool) (fecsym : Nat) (frame : Word) (slot : Fin 150) (s : State) : Fixes s (execLinkFlitReceive link flit uncorr fecsym frame slot s) := by
  unfold execLinkFlitReceive
  extract_lets j s0 s1 s2 hd s3 s4 gap
  have h0 : s0.fixed = s.fixed := by
    simp only [s0]
    split <;> simp
  have h2 : s2.fixed = s.fixed := by
    simp only [s2, s1]
    split <;> simp [h0]
  have h4 : s4.fixed = s.fixed := by
    simp only [s4, s3]
    split <;> simp [h2]
  clear_value s4 s2 gap
  (repeat' split) <;> simp [Fixes, h2, h4]

theorem execLinkFlitRelease_fixed (link : Fin 64) (s : State) : Fixes s (execLinkFlitRelease link s) := by
  unfold execLinkFlitRelease
  (try dsimp only)
  (repeat' split) <;> simp [Fixes]

theorem execLinkLossOfLock_fixed (link : Fin 64) (s : State) : Fixes s (execLinkLossOfLock link s) := by
  unfold execLinkLossOfLock
  (repeat' split) <;> simp [Fixes]

@[simp] theorem State.excludePort_fixed (j : Nat) (s : State) : (State.excludePort j s).fixed = s.fixed := by simp [State.excludePort]

theorem execLinkRetryTimer_fixed (link : Fin 64) (loopOk : Bool) (s : State) : Fixes s (execLinkRetryTimer link loopOk s) := by
  unfold execLinkRetryTimer
  (try dsimp only)
  (repeat' split) <;> simp [Fixes]

@[simp] theorem State.tellDomain_fixed (was s : State) : (State.tellDomain was s).fixed = s.fixed := by simp [State.tellDomain]

@[simp] theorem State.judge_fixed (j : Nat) (s : State) : (State.judge j s).fixed = s.fixed := by simp [State.judge]

@[simp] theorem State.qualified_fixed (j : Nat) (s : State) : (State.qualified j s).fixed = s.fixed := by simp [State.qualified]

theorem execQual_fixed (link : Fin 64) (part : BitVec 4) (body : BitVec 112) (s : State) : Fixes s (execQual link part body s) := by
  unfold execQual
  (try dsimp only)
  (repeat' split) <;> simp [Fixes]

theorem execIdent_fixed (link : Fin 64) (part : BitVec 4) (body : BitVec 112) (s : State) : Fixes s (execIdent link part body s) := by
  unfold execIdent
  (try dsimp only)
  (repeat' split) <;> simp [Fixes]

theorem execDigest_fixed (link : Fin 64) (part : BitVec 4) (body : BitVec 112) (s : State) :
    Fixes s (execDigest link part body s) := by
  unfold execDigest
  (try dsimp only)
  (repeat' split) <;> simp [Fixes]

theorem execTime_fixed (link : Fin 64) (part : BitVec 4) (body : BitVec 112) (stamp : Nat) (s : State) :
    Fixes s (execTime link part body stamp s) := by
  unfold execTime
  (try dsimp only)
  (repeat' split) <;> simp [Fixes]

theorem execUpmap_fixed (link : Fin 64) (part : BitVec 4) (body : BitVec 112) (s : State) : Fixes s (execUpmap link part body s) := by
  unfold execUpmap
  (try dsimp only)
  (repeat' split) <;> simp [Fixes]

@[simp] theorem State.fenceLink_fixed (j : Nat) (s : State) : (State.fenceLink j s).fixed = s.fixed := by simp [State.fenceLink]

@[simp] theorem State.fenceSelf_fixed (s : State) : (State.fenceSelf s).fixed = s.fixed := by simp [State.fenceSelf]

@[simp] theorem State.fenceRelayed_fixed (m : Nat) (s : State) : (State.fenceRelayed m s).fixed = s.fixed := by simp [State.fenceRelayed]

@[simp] theorem State.fencePeer_fixed (m : Nat) (s : State) : (State.fencePeer m s).fixed = s.fixed := by simp [State.fencePeer]

@[simp] theorem State.liftLinks_fixed (s : State) : (State.liftLinks s).fixed = s.fixed := by simp [State.liftLinks]

@[simp] theorem State.liftFence_fixed (m : Nat) (s : State) : (State.liftFence m s).fixed = s.fixed := by simp [State.liftFence]

theorem execFenceControlWord_fixed (link : Fin 64) (part : BitVec 4) (body : BitVec 112) (s : State) :
    Fixes s (execFenceControlWord link part body s) := by
  unfold execFenceControlWord
  (try dsimp only)
  (repeat' split) <;> simp [Fixes]

theorem execDown_fixed (link : Fin 64) (part : BitVec 4) (body : BitVec 112) (s : State) : Fixes s (execDown link part body s) := by
  unfold execDown
  (try dsimp only)
  (repeat' split) <;> simp [Fixes]

theorem execMap_fixed (link : Fin 64) (part : BitVec 4) (body : BitVec 112) (s : State) : Fixes s (execMap link part body s) := by
  unfold execMap
  (try dsimp only)
  (repeat' split) <;> simp [Fixes]

@[simp] theorem State.chooseMaster_fixed (s : State) : (State.chooseMaster s).fixed = s.fixed := by
  unfold State.chooseMaster
  (try dsimp only)
  (repeat' split) <;> simp

@[simp] theorem State.follow_fixed (s : State) : (State.follow s).fixed = s.fixed := by
  unfold State.follow
  (try dsimp only)
  (repeat' split) <;> simp

@[simp] theorem State.sendFence_fixed (m : Nat) (on : Bool) (s : State) : (State.sendFence m on s).fixed = s.fixed := by simp [State.sendFence]

@[simp] theorem State.measure_fixed (m : Nat) (s : State) : (State.measure m s).fixed = s.fixed := by simp [State.measure]

@[simp] theorem State.moveSlots_fixed (from' to' : Nat) (s : State) : (State.moveSlots from' to' s).fixed = s.fixed := by simp [State.moveSlots]

@[simp] theorem State.swapSpare_fixed (s : State) : (State.swapSpare s).fixed = s.fixed := by simp [State.swapSpare]

theorem execFrameBoundary_fixed (s : State) : Fixes s (execFrameBoundary s) := by
  unfold execFrameBoundary
  (try dsimp only)
  (repeat' split) <;> simp [Fixes]

@[simp] theorem State.writeLnkCtl_fixed (func j : Nat) (part : Part) (v : Word) (s : State) :
    (State.writeLnkCtl func j part v s).fixed = s.fixed := by simp [State.writeLnkCtl]

theorem execLinkEnableWrite_fixed (link : Fin 64) (en : Bool) (s : State) : Fixes s (execLinkEnableWrite link en s) := by
  unfold execLinkEnableWrite
  (try dsimp only)
  simp [Fixes]

theorem execLinkRetrain_fixed (link : Fin 64) (s : State) : Fixes s (execLinkRetrain link s) := by
  unfold execLinkRetrain
  (try dsimp only)
  simp [Fixes]

theorem execSpareConfigWrite_fixed (v : Word) (s : State) : Fixes s (execSpareConfigWrite v s) := by
  unfold execSpareConfigWrite
  simp [Fixes]

@[simp] theorem State.joinDomain_fixed (s : State) : (State.joinDomain s).fixed = s.fixed := by simp [State.joinDomain]

@[simp] theorem State.leaveDomain_fixed (s : State) : (State.leaveDomain s).fixed = s.fixed := by simp [State.leaveDomain]

@[simp] theorem State.rejoin_fixed (s : State) : (State.rejoin s).fixed = s.fixed := by simp [State.rejoin]

@[simp] theorem State.writeDomCfg_fixed (func : Nat) (part : Part) (v : Word) (s : State) :
    (State.writeDomCfg func part v s).fixed = s.fixed := by simp [State.writeDomCfg]

theorem execDomainEnWrite_fixed (part : Part) (v : Word) (s : State) : Fixes s (execDomainEnWrite part v s) := by
  unfold execDomainEnWrite
  simp [Fixes]

theorem execDomainRejoin_fixed (s : State) : Fixes s (execDomainRejoin s) := by
  unfold execDomainRejoin
  simp [Fixes]

end Sys2Proof.Machine
end

