-- ==== Sys2Proof/Laws/FixedRings.lean ====
section
/-! SUPPORT. More of what leaves the queue and the fuses alone: see Laws/Fixed.lean. -/

namespace Sys2Proof.Machine

@[simp] theorem State.modStore_fixed (f : Store → Store) (s : State) : (State.modStore f s).fixed = s.fixed := by simp [State.modStore]

@[simp] theorem State.record_fixed (kind : Nat) (s : State) : (State.record kind s).fixed = s.fixed := by simp [State.record]

@[simp] theorem State.revertBoot_fixed (cause : Nat) (s : State) : (State.revertBoot cause s).fixed = s.fixed := by simp [State.revertBoot]

@[simp] theorem State.loadImage_fixed (slot : Nat) (s : State) : (State.loadImage slot s).fixed = s.fixed := by simp [State.loadImage]

@[simp] theorem State.unverify_fixed (a n : Nat) (s : State) : (State.unverify a n s).fixed = s.fixed := by simp [State.unverify]

@[simp] theorem State.writeTraining_fixed (item fw partner starts tin lanes : Nat) (body : List Byte) (s : State) :
    (State.writeTraining item fw partner starts tin lanes body s).fixed = s.fixed := by simp [State.writeTraining]

theorem execDmaDescriptorStart_fixed (tile : Fin 64) (chan : Fin 4) (ecc : Secded) (s : State) :
    Fixes s (execDmaDescriptorStart tile chan ecc s) := by
  unfold execDmaDescriptorStart
  (try dsimp only)
  repeat' (first | (simp [Fixes]; done) | intro _ _ | refine (foldl_fixed _ _ ?_ _).trans ?_ | split | simp [Fixes] | dsimp only)

@[simp] theorem State.blur_fixed (g : Nat) (hbm : Bool) (as : List Nat) (s : State) : (State.blur g hbm as s).fixed = s.fixed := by simp [State.blur]

@[simp] theorem State.sendToken_fixed (g c : Nat) (d : List Byte) (s : State) : (State.sendToken g c d s).fixed = s.fixed := by simp [State.sendToken]

theorem execDmaDescriptorDone_fixed (tile : Fin 64) (chan : Fin 4) (s : State) : Fixes s (execDmaDescriptorDone tile chan s) := by
  unfold execDmaDescriptorDone
  (try dsimp only)
  (repeat' split) <;> simp [Fixes]

@[simp] theorem State.queueFault_fixed (g op queue count depth start value flags : Nat) (waiting : Bool) (status : Nat) (s : State) :
    (State.queueFault g op queue count depth start value flags waiting status s).fixed = s.fixed := by
  unfold State.queueFault
  (try dsimp only)
  (repeat' split) <;> simp

@[simp] theorem State.waitFault_fixed (g value flags status : Nat) (s : State) :
    (State.waitFault g value flags status s).fixed = s.fixed := by simp [State.waitFault]

@[simp] theorem State.wakeTile_fixed (g : Nat) (s : State) : (State.wakeTile g s).fixed = s.fixed := by simp [State.wakeTile]

@[simp] theorem State.releaseWait_fixed (g value : Nat) (s : State) : (State.releaseWait g value s).fixed = s.fixed := by simp [State.releaseWait]

@[simp] theorem State.checkLocalWait_fixed (g : Nat) (s : State) : (State.checkLocalWait g s).fixed = s.fixed := by simp [State.checkLocalWait]

@[simp] theorem State.answer_fixed (kind : IsoKind) (w : Waiter) (value status flags : Nat) (s : State) :
    (State.answer kind w value status flags s).fixed = s.fixed := by simp [State.answer]

@[simp] theorem State.answerOut_fixed (kind : IsoKind) (w : Waiter) (value status flags : Nat) (s : State) :
    (State.answerOut kind w value status flags s).fixed = s.fixed := by simp [State.answerOut]

@[simp] theorem State.serveTakes_fixed (q : Nat) (b : Bool) (ws : List Waiter) (s : State) : (State.serveTakes q b ws s).fixed = s.fixed := by
  induction ws generalizing b s with
  | nil => rfl
  | cons w ws ih =>
    unfold State.serveTakes
    dsimp only
    split
    · rw [ih]
      simp
    · split <;> rw [ih]
      simp

@[simp] theorem State.serveWait_fixed (q : Nat) (w : Waiter) (s : State) : (State.serveWait q w s).fixed = s.fixed := by simp [State.serveWait]

@[simp] theorem State.servePq_fixed (q : Nat) (s : State) : (State.servePq q s).fixed = s.fixed := by simp [State.servePq]

@[simp] theorem State.performAfter_fixed (g : Nat) (a : AfterCancel) (s : State) : (State.performAfter g a s).fixed = s.fixed := by
  unfold State.performAfter
  (try dsimp only)
  (repeat' split) <;> simp

@[simp] theorem State.sweepPacket_fixed (kind : IsoKind) (t g : Nat) (drift : Bool) (s : State) :
    (State.sweepPacket kind t g drift s).fixed = s.fixed := by simp [State.sweepPacket]

@[simp] theorem State.sweepTaken_fixed (kind : IsoKind) (t : Nat) (s : State) : (State.sweepTaken kind t s).fixed = s.fixed := by simp [State.sweepTaken]

@[simp] theorem State.sweepLatch_fixed (t q : Nat) (s : State) : (State.sweepLatch t q s).fixed = s.fixed := by simp [State.sweepLatch]

@[simp] theorem State.serveQueue_fixed (pool : Bool) (tile queue : Nat) (s : State) :
    (State.serveQueue pool tile queue s).fixed = s.fixed := by simp [State.serveQueue]

@[simp] theorem State.settleQueues_fixed (s : State) : (State.settleQueues s).fixed = s.fixed := by simp [State.settleQueues]

@[simp] theorem State.applyToken_fixed (p : Iso) (s : State) : (State.applyToken p s).fixed = s.fixed := by simp [State.applyToken]

@[simp] theorem State.takeStateWord_fixed (g v : Nat) (s : State) : (State.takeStateWord g v s).fixed = s.fixed := by simp [State.takeStateWord]

@[simp] theorem State.takeOwnerWord_fixed (g v : Nat) (s : State) : (State.takeOwnerWord g v s).fixed = s.fixed := by simp [State.takeOwnerWord]

@[simp] theorem State.writeRecord_fixed (g o v : Nat) (s : State) : (State.writeRecord g o v s).fixed = s.fixed := by simp [State.writeRecord]

@[simp] theorem State.writeDebug_fixed (g space o v : Nat) (s : State) : (State.writeDebug g space o v s).fixed = s.fixed := by
  unfold State.writeDebug
  (repeat' split) <;> simp

@[simp] theorem State.writeDebugBytes_fixed (g space o : Nat) (bs : List Byte) (s : State) :
    (State.writeDebugBytes g space o bs s).fixed = s.fixed := by simp [State.writeDebugBytes]

@[simp] theorem State.debugHaltNow_fixed (g : Nat) (s : State) : (State.debugHaltNow g s).fixed = s.fixed := by simp [State.debugHaltNow]

@[simp] theorem State.debugHalt_fixed (g : Nat) (s : State) : (State.debugHalt g s).fixed = s.fixed := by simp [State.debugHalt]

@[simp] theorem State.debugGo_fixed (g : Nat) (step : Bool) (s : State) : (State.debugGo g step s).fixed = s.fixed := by simp [State.debugGo]

@[simp] theorem State.logHandle_fixed (f r : Nat) (c : RingCmd) (st : Nat) (s : State) :
    (State.logHandle f r c st s).fixed = s.fixed := by
  unfold State.logHandle
  (repeat' split) <;> simp

@[simp] theorem State.rejectCmd_fixed (f r : Nat) (c : RingCmd) (st : Nat) (s : State) :
    (State.rejectCmd f r c st s).fixed = s.fixed := by simp [State.rejectCmd]

@[simp] theorem State.endAbort_fixed (f r a st : Nat) (s : State) : (State.endAbort f r a st s).fixed = s.fixed := by
  unfold State.endAbort
  (repeat' split) <;> simp

@[simp] theorem State.abortCmd_fixed (f r a tr idx : Nat) (s : State) : (State.abortCmd f r a tr idx s).fixed = s.fixed := by
  unfold State.abortCmd
  (try dsimp only)
  (repeat' split) <;> simp

@[simp] theorem State.actAbort_fixed (f r : Nat) (c : RingCmd) (s : State) : (State.actAbort f r c s).fixed = s.fixed := by simp [State.actAbort]

@[simp] theorem State.takeDescriptor_fixed (f r idx : Nat) (d : List Byte) (s : State) :
    (State.takeDescriptor f r idx d s).fixed = s.fixed := by
  unfold State.takeDescriptor
  (try dsimp only)
  (repeat' split) <;> simp

theorem execAbort_fixed (func : Fin 17) (ring : Fin 16) (index : BitVec 32) (s : State) : Fixes s (execAbort func ring index s) := by
  unfold execAbort
  (repeat' split) <;> simp [Fixes]

theorem execDoorbellPoll_fixed (func : Fin 17) (ring : Fin 16) (s : State) : Fixes s (execDoorbellPoll func ring s) := by
  unfold execDoorbellPoll
  (try dsimp only)
  (repeat' split) <;> simp [Fixes]

@[simp] theorem State.ringFail_fixed (f r st : Nat) (s : State) : (State.ringFail f r st s).fixed = s.fixed := by simp [State.ringFail]

@[simp] theorem State.askFetch_fixed (f r : Nat) (s : State) : (State.askFetch f r s).fixed = s.fixed := by simp [State.askFetch]

theorem execDoorbellReadDone_fixed (func : Fin 17) (ring : Fin 16) (res : HostRead) (s : State) :
    Fixes s (execDoorbellReadDone func ring res s) := by
  unfold execDoorbellReadDone
  (try dsimp only)
  (repeat' split) <;> simp [Fixes]

@[simp] theorem State.takeAll_fixed (f r n : Nat) (bs : List Byte) (s : State) : (State.takeAll f r n bs s).fixed = s.fixed := by
  induction n generalizing bs s with
  | zero => rfl
  | succ n ih =>
    unfold State.takeAll
    dsimp only
    rw [ih]
    simp

theorem execDescriptorFetchDone_fixed (func : Fin 17) (ring : Fin 16) (res : HostRead) (s : State) :
    Fixes s (execDescriptorFetchDone func ring res s) := by
  unfold execDescriptorFetchDone
  (try dsimp only)
  (repeat' split) <;> simp [Fixes]

theorem execCommandDispatch_fixed (func : Fin 17) (ring : Fin 16) (s : State) : Fixes s (execCommandDispatch func ring s) := by
  unfold execCommandDispatch
  (try dsimp only)
  (repeat' split) <;> simp [Fixes]

theorem execIrqTimer_fixed (func : Fin 17) (ring : Fin 16) (s : State) : Fixes s (execIrqTimer func ring s) := by
  unfold execIrqTimer
  (try dsimp only)
  (repeat' split) <;> simp [Fixes]

@[simp] theorem State.unmaskMsix_fixed (f v : Nat) (s : State) : (State.unmaskMsix f v s).fixed = s.fixed := by simp [State.unmaskMsix]

theorem execMsixUnmask_fixed (func : Fin 17) (vector : Fin 64) (s : State) : Fixes s (execMsixUnmask func vector s) := by
  unfold execMsixUnmask
  simp [Fixes]

@[simp] theorem State.startRing_fixed (f r : Nat) (s : State) : (State.startRing f r s).fixed = s.fixed := by simp [State.startRing]

@[simp] theorem State.stopRing_fixed (f r : Nat) (s : State) : (State.stopRing f r s).fixed = s.fixed := by simp [State.stopRing]

@[simp] theorem State.writeRingCtl_fixed (who f r : Nat) (part : Part) (v : Word) (s : State) :
    (State.writeRingCtl who f r part v s).fixed = s.fixed := by simp [State.writeRingCtl]

theorem execRingEnable_fixed (func : Fin 17) (ring : Fin 16) (part : Part) (v : Word) (s : State) :
    Fixes s (execRingEnable func ring part v s) := by
  unfold execRingEnable
  simp [Fixes]

theorem execRingDisable_fixed (func : Fin 17) (ring : Fin 16) (part : Part) (v : Word) (s : State) :
    Fixes s (execRingDisable func ring part v s) := by
  unfold execRingDisable
  simp [Fixes]

@[simp] theorem State.ringFollowsIde_fixed (f r : Nat) (s : State) : (State.ringFollowsIde f r s).fixed = s.fixed := by simp [State.ringFollowsIde]

@[simp] theorem State.setSecure_fixed (f : Nat) (secure : Bool) (s : State) : (State.setSecure f secure s).fixed = s.fixed := by simp [State.setSecure]

theorem execIdeStateChange_fixed (func : Fin 17) (secure : Bool) (s : State) : Fixes s (execIdeStateChange func secure s) := by
  unfold execIdeStateChange
  simp [Fixes]

@[simp] theorem State.flr_fixed (f : Nat) (s : State) : (State.flr f s).fixed = s.fixed := by simp [State.flr]

theorem execFlrVf_fixed (func : Fin 17) (s : State) : Fixes s (execFlrVf func s) := by
  unfold execFlrVf
  (repeat' split) <;> simp [Fixes]

theorem execFlrPf0_fixed (s : State) : Fixes s (execFlrPf0 s) := by
  unfold execFlrPf0
  (try dsimp only)
  (repeat' split) <;> simp [Fixes]

@[simp] theorem State.conventionalReset_fixed (s : State) : (State.conventionalReset s).fixed = s.fixed := by
  unfold State.conventionalReset
  dsimp only
  rw [State.logEvent_fixed, State.unset_fixed, State.set_fixed, State.fixed_mk, fixed_fold, foldl_fixed _ _ (by simp), State.bump_fixed]

theorem execHotReset_fixed (s : State) : Fixes s (execHotReset s) := by
  unfold execHotReset
  (repeat' split) <;> simp [Fixes]

theorem execUncommandedLinkDown_fixed (s : State) : Fixes s (execUncommandedLinkDown s) := by
  unfold execUncommandedLinkDown
  (repeat' split) <;> simp [Fixes]

theorem execPcieLinkUp_fixed (speed : Fin 4) (width : Fin 32) (flit : Bool) (s : State) :
    Fixes s (execPcieLinkUp speed width flit s) := by
  unfold execPcieLinkUp
  (repeat' split) <;> simp [Fixes]

theorem execLinkLightDetect_fixed (link : Fin 64) (serial : Word) (s : State) : Fixes s (execLinkLightDetect link serial s) := by
  unfold execLinkLightDetect
  (try dsimp only)
  (repeat' split) <;> simp [Fixes]

@[simp] theorem State.noteTrained_fixed (item : Nat) (cold : Bool) (s : State) : (State.noteTrained item cold s).fixed = s.fixed := by simp [State.noteTrained]

theorem execLinkTrainDone_fixed (link : Fin 64) (rx laneOrder verified : Bool) (flight lambda : BitVec 16) (s : State) :
    Fixes s (execLinkTrainDone link rx laneOrder verified flight lambda s) := by
  unfold execLinkTrainDone
  (try dsimp only)
  (repeat' split) <;> simp [Fixes]

@[simp] theorem State.windowFailed_fixed (j : Nat) (again : State → State) (s : State) (hagain : ∀ s, (again s).fixed = s.fixed) :
    (State.windowFailed j again s).fixed = s.fixed := by simp [State.windowFailed, hagain]

theorem execLinkTrainTimeout_fixed (link : Fin 64) (s : State) : Fixes s (execLinkTrainTimeout link s) := by
  unfold execLinkTrainTimeout
  (try dsimp only)
  (repeat' split) <;> simp [Fixes]

theorem execLinkQualWindowEnd_fixed (link : Fin 64) (s : State) : Fixes s (execLinkQualWindowEnd link s) := by
  unfold execLinkQualWindowEnd
  (try dsimp only)
  (repeat' split) <;> simp [Fixes]

theorem execLinkQualError_fixed (link : Fin 64) (s : State) : Fixes s (execLinkQualError link s) := by
  unfold execLinkQualError
  (try dsimp only)
  (repeat' split) <;> simp [Fixes]

theorem execTrainingRecordWrite_fixed (item : Fin 72) (device : Word) (body : List Byte) (s : State) :
    Fixes s (execTrainingRecordWrite item device body s) := by
  unfold execTrainingRecordWrite
  (try dsimp only)
  (repeat' split) <;> simp [Fixes]

@[simp] theorem State.whenHostUp_fixed (k : State → State) (s : State) (hk : ∀ s, (k s).fixed = s.fixed) :
    (State.whenHostUp k s).fixed = s.fixed := by
  unfold State.whenHostUp
  (repeat' split) <;> simp [hk]

@[simp] theorem State.discardRecords_fixed (s : State) : (State.discardRecords s).fixed = s.fixed := by simp [State.discardRecords]

@[simp] theorem State.writeBruCtl_fixed (part : Part) (v : Word) (s : State) : (State.writeBruCtl part v s).fixed = s.fixed := by simp [State.writeBruCtl]

theorem execBruDiscard_fixed (v : Word) (s : State) : Fixes s (execBruDiscard v s) := by
  unfold execBruDiscard
  simp [Fixes]

theorem execBruForcecoldWrite_fixed (part : Part) (v : Word) (s : State) : Fixes s (execBruForcecoldWrite part v s) := by
  unfold execBruForcecoldWrite
  simp [Fixes]

@[simp] theorem State.undoRetired_fixed (links : Bool) (part : Part) (v : Word) (s : State) :
    (State.undoRetired links part v s).fixed = s.fixed := by simp [State.undoRetired]

theorem execRetirementUndo_fixed (links : Bool) (part : Part) (v : Word) (s : State) :
    Fixes s (execRetirementUndo links part v s) := by
  unfold execRetirementUndo
  simp [Fixes]

theorem execRetirementRecordWrite_fixed (s : State) : Fixes s (execRetirementRecordWrite s) := by
  unfold execRetirementRecordWrite
  (try dsimp only)
  (repeat' split) <;> simp [Fixes]

theorem execUnitRecordWrite_fixed (s : State) : Fixes s (execUnitRecordWrite s) := by
  unfold execUnitRecordWrite
  (repeat' split) <;> simp [Fixes]

@[simp] theorem State.startStage0_fixed (s : State) : (State.startStage0 s).fixed = s.fixed := by simp [State.startStage0]

@[simp] theorem State.endStore_fixed (s : State) : (State.endStore s).fixed = s.fixed := by simp [State.endStore]

@[simp] theorem State.mbxAnswer_fixed (status tag : Nat) (payload : List Byte) (s : State) :
    (State.mbxAnswer status tag payload s).fixed = s.fixed := by simp [State.mbxAnswer]

@[simp] theorem State.mbxDone_fixed (status : Nat) (s : State) : (State.mbxDone status s).fixed = s.fixed := by
  unfold State.mbxDone
  (try dsimp only)
  (repeat' split) <;> simp

@[simp] theorem State.drainForSleep_fixed (g : Nat) (s : State) : (State.drainForSleep g s).fixed = s.fixed := by simp [State.drainForSleep]

@[simp] theorem State.tileToSleep_fixed (g depth : Nat) (s : State) : (State.tileToSleep g depth s).fixed = s.fixed := by simp [State.tileToSleep]

@[simp] theorem State.waitSleep_fixed (g depth : Nat) (s : State) : (State.waitSleep g depth s).fixed = s.fixed := by simp [State.waitSleep]

@[simp] theorem State.withCmd_fixed (f r idx op : Nat) (k : RingCmd → State → State) (s : State) (hk : ∀ c s, (k c s).fixed = s.fixed) :
    (State.withCmd f r idx op k s).fixed = s.fixed := by
  unfold State.withCmd
  (repeat' split) <;> simp [hk]

@[simp] theorem State.withRunning_fixed (f r idx op : Nat) (k : RingCmd → State → State) (s : State) (hk : ∀ c s, (k c s).fixed = s.fixed) :
    (State.withRunning f r idx op k s).fixed = s.fixed := by
  unfold State.withRunning
  (repeat' split) <;> simp [hk]

@[simp] theorem State.fresh_fixed (f r : Nat) (k : RingCmd → State → State) (c : RingCmd) (s : State) (hk : ∀ c s, (k c s).fixed = s.fixed) :
    (State.fresh f r k c s).fixed = s.fixed := by simp [State.fresh, hk]

@[simp] theorem State.noResource_fixed (f r : Nat) (c : RingCmd) (s : State) : (State.noResource f r c s).fixed = s.fixed := by simp [State.noResource]

theorem execNop_fixed (func : Fin 17) (ring : Fin 16) (index : BitVec 32) (s : State) : Fixes s (execNop func ring index s) := by
  unfold execNop
  simp [Fixes]

@[simp] theorem State.syncBufs_fixed (t : Nat) (s : State) : (State.syncBufs t s).fixed = s.fixed := by simp [State.syncBufs]

@[simp] theorem State.ownGranules_fixed (gs : List Nat) (owner : Nat) (s : State) :
    (State.ownGranules gs owner s).fixed = s.fixed := by simp [State.ownGranules]

@[simp] theorem State.clearGranule_fixed (G : Nat) (s : State) : (State.clearGranule G s).fixed = s.fixed := by simp [State.clearGranule]

@[simp] theorem State.quiesceBuffer_fixed (t : Nat) (s : State) : (State.quiesceBuffer t s).fixed = s.fixed := by simp [State.quiesceBuffer]

@[simp] theorem State.bufferChanged_fixed (t : Nat) (s : State) : (State.bufferChanged t s).fixed = s.fixed := by simp [State.bufferChanged]

@[simp] theorem State.alloc_fixed (f r : Nat) (failed : Option Nat) (c : RingCmd) (s : State) : (State.alloc f r failed c s).fixed = s.fixed := by
  unfold State.alloc
  dsimp only
  split
  · simp
  · split
    · simp
    · split
      · simp
      · simp

theorem execAlloc_fixed (func : Fin 17) (ring : Fin 16) (index : BitVec 32) (failed : Option Nat) (s : State) :
    Fixes s (execAlloc func ring index failed s) := by
  unfold execAlloc
  simp [Fixes]

@[simp] theorem State.freeBuf_fixed (f r : Nat) (c : RingCmd) (s : State) : (State.freeBuf f r c s).fixed = s.fixed := by
  unfold State.freeBuf
  (try dsimp only)
  (repeat' split) <;> simp

theorem execFree_fixed (func : Fin 17) (ring : Fin 16) (index : BitVec 32) (s : State) : Fixes s (execFree func ring index s) := by
  unfold execFree
  simp [Fixes]

@[simp] theorem State.copyIn_fixed (f r : Nat) (c : RingCmd) (s : State) : (State.copyIn f r c s).fixed = s.fixed := by simp [State.copyIn]

theorem execCopyin_fixed (func : Fin 17) (ring : Fin 16) (index : BitVec 32) (s : State) : Fixes s (execCopyin func ring index s) := by
  unfold execCopyin
  simp [Fixes]

@[simp] theorem State.copyOut_fixed (f r : Nat) (c : RingCmd) (s : State) : (State.copyOut f r c s).fixed = s.fixed := by simp [State.copyOut]

theorem execCopyout_fixed (func : Fin 17) (ring : Fin 16) (index : BitVec 32) (s : State) :
    Fixes s (execCopyout func ring index s) := by
  unfold execCopyout
  simp [Fixes]

@[simp] theorem State.hostToken_fixed (f tok count : Nat) (s : State) : (State.hostToken f tok count s).fixed = s.fixed := by simp [State.hostToken]

@[simp] theorem State.copyDone_fixed (f r : Nat) (c : RingCmd) (s : State) : (State.copyDone f r c s).fixed = s.fixed := by simp [State.copyDone]

theorem execCopyDone_fixed (func : Fin 17) (ring : Fin 16) (index : BitVec 32) (s : State) :
    Fixes s (execCopyDone func ring index s) := by
  unfold execCopyDone
  (try dsimp only)
  simp [Fixes]

@[simp] theorem State.atTile_fixed (f r : Nat) (k : RingCmd → State → State) (c : RingCmd) (s : State) (hk : ∀ c s, (k c s).fixed = s.fixed) :
    (State.atTile f r k c s).fixed = s.fixed := by simp [State.atTile, hk]

@[simp] theorem State.dbgCtl_fixed (f r : Nat) (pinnable : Bool) (act : Nat → State → State) (c : RingCmd) (s : State) (hact : ∀ c s, (act c s).fixed = s.fixed) :
    (State.dbgCtl f r pinnable act c s).fixed = s.fixed := by simp [State.dbgCtl, hact]

@[simp] theorem State.dbgRow_fixed (f r idx action : Nat) (pinnable : Bool) (act : Nat → State → State) (s : State) (hact : ∀ c s, (act c s).fixed = s.fixed) : (State.dbgRow f r idx action pinnable act s).fixed = s.fixed := by
  refine State.withCmd_fixed _ _ _ _ _ _ (fun c s => ?_)
  split
  · rfl
  · exact State.fresh_fixed _ _ _ _ _ (fun c s => State.atTile_fixed _ _ _ _ _ (fun c s => State.dbgCtl_fixed _ _ _ _ _ _ hact))

theorem execDbgctlHalt_fixed (func : Fin 17) (ring : Fin 16) (index : BitVec 32) (s : State) :
    Fixes s (execDbgctlHalt func ring index s) := by
  unfold execDbgctlHalt
  simp [Fixes]

theorem execDbgctlResume_fixed (func : Fin 17) (ring : Fin 16) (index : BitVec 32) (s : State) :
    Fixes s (execDbgctlResume func ring index s) := by
  unfold execDbgctlResume
  simp [Fixes]

theorem execDbgctlStep_fixed (func : Fin 17) (ring : Fin 16) (index : BitVec 32) (s : State) :
    Fixes s (execDbgctlStep func ring index s) := by
  unfold execDbgctlStep
  simp [Fixes]

theorem execDbgctlArm_fixed (func : Fin 17) (ring : Fin 16) (index : BitVec 32) (s : State) :
    Fixes s (execDbgctlArm func ring index s) := by
  unfold execDbgctlArm
  simp [Fixes]

theorem execDbgctlDisarm_fixed (func : Fin 17) (ring : Fin 16) (index : BitVec 32) (s : State) :
    Fixes s (execDbgctlDisarm func ring index s) := by
  unfold execDbgctlDisarm
  simp [Fixes]

@[simp] theorem State.dbgRead_fixed (f r : Nat) (c : RingCmd) (s : State) : (State.dbgRead f r c s).fixed = s.fixed := by simp [State.dbgRead]

theorem execDbgread_fixed (func : Fin 17) (ring : Fin 16) (index : BitVec 32) (s : State) : Fixes s (execDbgread func ring index s) := by
  exact State.withCmd_fixed _ _ _ _ _ _ (fun c s => State.fresh_fixed _ _ _ _ _ (fun c s => State.atTile_fixed _ _ _ _ _ (fun c s => by simp)))

@[simp] theorem State.dbgWrite_fixed (f r : Nat) (c : RingCmd) (s : State) : (State.dbgWrite f r c s).fixed = s.fixed := by simp [State.dbgWrite]

theorem execDbgwrite_fixed (func : Fin 17) (ring : Fin 16) (index : BitVec 32) (s : State) : Fixes s (execDbgwrite func ring index s) := by
  exact State.withCmd_fixed _ _ _ _ _ _ (fun c s => State.fresh_fixed _ _ _ _ _ (fun c s => State.atTile_fixed _ _ _ _ _ (fun c s => by simp)))

@[simp] theorem State.copyBytes_fixed (f r : Nat) (bs : List Byte) (c : RingCmd) (s : State) :
    (State.copyBytes f r bs c s).fixed = s.fixed := by simp [State.copyBytes]

@[simp] theorem State.dbgBytes_fixed (f r : Nat) (bs : List Byte) (c : RingCmd) (s : State) :
    (State.dbgBytes f r bs c s).fixed = s.fixed := by simp [State.dbgBytes]

@[simp] theorem State.hostFailed_fixed (f r : Nat) (c : RingCmd) (s : State) : (State.hostFailed f r c s).fixed = s.fixed := by simp [State.hostFailed]

theorem execHostReadCompletion_fixed (func : Fin 17) (ring : Fin 16) (index : BitVec 32) (res : HostRead) (s : State) :
    Fixes s (execHostReadCompletion func ring index res s) := by
  unfold execHostReadCompletion
  (try dsimp only)
  (repeat' split) <;> simp [Fixes]

theorem execHostCompletionTimeout_fixed (func : Fin 17) (ring : Fin 16) (index : BitVec 32) (s : State) :
    Fixes s (execHostCompletionTimeout func ring index s) := by
  unfold execHostCompletionTimeout
  (try dsimp only)
  (repeat' split) <;> simp [Fixes]

@[simp] theorem State.signalQ_fixed (f r : Nat) (c : RingCmd) (s : State) : (State.signalQ f r c s).fixed = s.fixed := by simp [State.signalQ]

theorem execSignalq_fixed (func : Fin 17) (ring : Fin 16) (index : BitVec 32) (s : State) :
    Fixes s (execSignalq func ring index s) := by
  unfold execSignalq
  simp [Fixes]

@[simp] theorem State.waitQ_fixed (f r : Nat) (c : RingCmd) (s : State) : (State.waitQ f r c s).fixed = s.fixed := by simp [State.waitQ]

theorem execWaitq_fixed (func : Fin 17) (ring : Fin 16) (index : BitVec 32) (s : State) : Fixes s (execWaitq func ring index s) := by
  unfold execWaitq
  simp [Fixes]

@[simp] theorem State.pollQ_fixed (f r : Nat) (c : RingCmd) (s : State) : (State.pollQ f r c s).fixed = s.fixed := by simp [State.pollQ]

theorem execWaitqPoll_fixed (func : Fin 17) (ring : Fin 16) (index : BitVec 32) (s : State) :
    Fixes s (execWaitqPoll func ring index s) := by
  unfold execWaitqPoll
  simp [Fixes]

@[simp] theorem State.rimeSend_fixed (f r : Nat) (c : RingCmd) (s : State) : (State.rimeSend f r c s).fixed = s.fixed := by simp [State.rimeSend]

theorem execRkeyload_fixed (func : Fin 17) (ring : Fin 16) (index : BitVec 32) (s : State) :
    Fixes s (execRkeyload func ring index s) := by
  unfold execRkeyload
  simp [Fixes]

theorem execRrefresh_fixed (func : Fin 17) (ring : Fin 16) (index : BitVec 32) (s : State) :
    Fixes s (execRrefresh func ring index s) := by
  unfold execRrefresh
  simp [Fixes]

theorem execRlinear_fixed (func : Fin 17) (ring : Fin 16) (index : BitVec 32) (s : State) :
    Fixes s (execRlinear func ring index s) := by
  unfold execRlinear
  simp [Fixes]

@[simp] theorem State.saveTile_fixed (g : Nat) (s : State) : (State.saveTile g s).fixed = s.fixed := by simp [State.saveTile]

@[simp] theorem State.restoreTile_fixed (g : Nat) (s : State) : (State.restoreTile g s).fixed = s.fixed := by simp [State.restoreTile]

@[simp] theorem State.refillStack_fixed (k : Nat) (s : State) : (State.refillStack k s).fixed = s.fixed := by simp [State.refillStack]

@[simp] theorem State.enterDomain_fixed (n st : Nat) (s : State) : (State.enterDomain n st s).fixed = s.fixed := by simp [State.enterDomain]

@[simp] theorem State.writeDomReq_fixed (func n : Nat) (v : Word) (s : State) : (State.writeDomReq func n v s).fixed = s.fixed := by simp [State.writeDomReq]

theorem execPwrDomReq_fixed (dom : Fin 86) (v : Word) (s : State) : Fixes s (execPwrDomReq dom v s) := by
  unfold execPwrDomReq
  simp [Fixes]

@[simp] theorem State.trainedCold_fixed (k : Nat) (s : State) : (State.trainedCold k s).fixed = s.fixed := by simp [State.trainedCold]

@[simp] theorem State.exitDone_fixed (n : Nat) (start : Word) (t : Nat) (s : State) :
    (State.exitDone n start t s).fixed = s.fixed := by simp [State.exitDone]

theorem execDomainExitDone_fixed (dom : Fin 86) (s : State) : Fixes s (execDomainExitDone dom s) := by
  unfold execDomainExitDone
  (try dsimp only)
  (repeat' split) <;> simp [Fixes]

theorem execExitTimeout_fixed (dom : Fin 86) (s : State) : Fixes s (execExitTimeout dom s) := by
  unfold execExitTimeout
  (try dsimp only)
  (repeat' split) <;> simp [Fixes]

theorem execShadowCopyDone_fixed (tile : Fin 64) (s : State) : Fixes s (execShadowCopyDone tile s) := by
  unfold execShadowCopyDone
  (try dsimp only)
  (repeat' split) <;> simp [Fixes]

theorem execContextSaveDone_fixed (tile : Fin 64) (ok : Bool) (s : State) : Fixes s (execContextSaveDone tile ok s) := by
  unfold execContextSaveDone
  (try dsimp only)
  (repeat' split) <;> simp [Fixes]

theorem execRimeIdleTimeout_fixed (die : Fin 4) (s : State) : Fixes s (execRimeIdleTimeout die s) := by
  unfold execRimeIdleTimeout
  (try dsimp only)
  (repeat' split) <;> simp [Fixes]

theorem execFabricIdleTimeout_fixed (dom : Fin 86) (s : State) : Fixes s (execFabricIdleTimeout dom s) := by
  unfold execFabricIdleTimeout
  (try dsimp only)
  (repeat' split) <;> simp [Fixes]

theorem execWaitDeepen_fixed (tile : Fin 64) (s : State) : Fixes s (execWaitDeepen tile s) := by
  unfold execWaitDeepen
  (try dsimp only)
  (repeat' split) <;> simp [Fixes]

@[simp] theorem State.riseToFrost_fixed (n : Nat) (s : State) : (State.riseToFrost n s).fixed = s.fixed := by simp [State.riseToFrost]

@[simp] theorem State.enterFrost_fixed (s : State) : (State.enterFrost s).1.fixed = s.fixed := by
  unfold State.enterFrost
  (try dsimp only)
  (repeat' split) <;> simp

theorem execDeepFrostWake_fixed (s : State) : Fixes s (execDeepFrostWake s) := by
  unfold execDeepFrostWake
  simp [Fixes]

theorem execDeepFrostExitDone_fixed (s : State) : Fixes s (execDeepFrostExitDone s) := by
  unfold execDeepFrostExitDone
  (try dsimp only)
  (repeat' split) <;> simp [Fixes]

@[simp] theorem State.memEvent_fixed (k word what cls status : Nat) (s : State) :
    (State.memEvent k word what cls status s).fixed = s.fixed := by simp [State.memEvent]

@[simp] theorem State.memCorrected_fixed (k word : Nat) (s : State) : (State.memCorrected k word s).fixed = s.fixed := by simp [State.memCorrected]

@[simp] theorem State.memUncorrected_fixed (k word what cls : Nat) (s : State) :
    (State.memUncorrected k word what cls s).fixed = s.fixed := by simp [State.memUncorrected]

@[simp] theorem State.countTraffic_fixed (k : Nat) (write : Bool) (n : Nat) (s : State) :
    (State.countTraffic k write n s).fixed = s.fixed := by simp [State.countTraffic]

@[simp] theorem State.popHc_fixed (k i : Nat) (s : State) : (State.popHc k i s).fixed = s.fixed := by simp [State.popHc]

@[simp] theorem State.serveRead_fixed (k : Nat) (f : Flit) (ecc : Secded) (s : State) :
    (State.serveRead k f ecc s).fixed = s.fixed := by
  unfold State.serveRead
  (try dsimp only)
  (repeat' split) <;> simp

@[simp] theorem State.serveWrite_fixed (k : Nat) (f : Flit) (s : State) : (State.serveWrite k f s).fixed = s.fixed := by simp [State.serveWrite]

@[simp] theorem State.servePartialRead_fixed (k i : Nat) (r : HcReq) (ecc : Secded) (s : State) :
    (State.servePartialRead k i r ecc s).fixed = s.fixed := by
  unfold State.servePartialRead
  (try dsimp only)
  (repeat' split) <;> simp

@[simp] theorem State.servePartialWrite_fixed (k : Nat) (f : Flit) (s : State) : (State.servePartialWrite k f s).fixed = s.fixed := by simp [State.servePartialWrite]

@[simp] theorem State.serveHc_fixed (k i : Nat) (r : HcReq) (ecc : Secded) (s : State) :
    (State.serveHc k i r ecc s).fixed = s.fixed := by simp [State.serveHc]

@[simp] theorem State.hcWake_fixed (k : Nat) (s : State) : (State.hcWake k s).fixed = s.fixed := by simp [State.hcWake]

theorem execMemorySlot_fixed (hc : Fin 8) (pcs : Fin 32) (busy : Bool) (ecc : Secded) (s : State) :
    Fixes s (execMemorySlot hc pcs busy ecc s) := by
  unfold execMemorySlot
  (try dsimp only)
  (repeat' split) <;> simp [Fixes]

@[simp] theorem State.countFreed_fixed (k pcs : Nat) (s : State) : (State.countFreed k pcs s).fixed = s.fixed := by simp [State.countFreed]

theorem execHbmDynamicAccess_fixed (hc : Fin 8) (pcs : Fin 32) (j : Nat) (ecc : Secded) (s : State) :
    Fixes s (execHbmDynamicAccess hc pcs j ecc s) := by
  unfold execHbmDynamicAccess
  (try dsimp only)
  (repeat' split) <;> simp [Fixes]

theorem execHbmCorrectedRewrite_fixed (hc : Fin 8) (pcs : Fin 32) (s : State) : Fixes s (execHbmCorrectedRewrite hc pcs s) := by
  unfold execHbmCorrectedRewrite
  (try dsimp only)
  (repeat' split) <;> simp [Fixes]

@[simp] theorem State.scrubOn_fixed (k : Nat) (s : State) : (State.scrubOn k s).fixed = s.fixed := by simp [State.scrubOn]

theorem execScrubRead_fixed (hc : Fin 8) (ecc : Secded) (s : State) : Fixes s (execScrubRead hc ecc s) := by
  unfold execScrubRead
  (try dsimp only)
  (repeat' split) <;> simp [Fixes]

@[simp] theorem State.groupsMoved_fixed (m : Nat) (s : State) : (State.groupsMoved m s).fixed = s.fixed := by simp [State.groupsMoved]

@[simp] theorem State.writeGroupMode_fixed (func v : Nat) (s : State) : (State.writeGroupMode func v s).fixed = s.fixed := by simp [State.writeGroupMode]

theorem execMemGroupmodeWrite_fixed (part : Part) (v : Word) (s : State) : Fixes s (execMemGroupmodeWrite part v s) := by
  unfold execMemGroupmodeWrite
  simp [Fixes]

@[simp] theorem State.dropIso_fixed (k : Nat) (s : State) : (State.dropIso k s).fixed = s.fixed := by simp [State.dropIso]

@[simp] theorem State.takeIso_fixed (k : Nat) (p : Iso) (effect : State → State) (s : State) (heffect : ∀ s, (effect s).fixed = s.fixed) :
    (State.takeIso k p effect s).fixed = s.fixed := by simp [State.takeIso, heffect]

@[simp] theorem State.rimeEnd_fixed (d : Nat) (status result : Nat) (s : State) :
    (State.rimeEnd d status result s).fixed = s.fixed := by
  unfold State.rimeEnd
  (try dsimp only)
  (repeat' split) <;> simp

@[simp] theorem State.rimeTokenDone_fixed (src : Source) (s : State) : (State.rimeTokenDone src s).fixed = s.fixed := by
  unfold State.rimeTokenDone
  (repeat' split) <;> simp

@[simp] theorem State.serveAfter_fixed (p : Iso) (more : Bool) (s : State) : (State.serveAfter p more s).fixed = s.fixed := by simp [State.serveAfter]

theorem execTokenApply_fixed (k : Nat) (more : Bool) (s : State) : Fixes s (execTokenApply k more s) := by
  unfold execTokenApply
  (repeat' split) <;> simp [Fixes]

@[simp] theorem State.arriveAt_fixed (p : Iso) (s : State) : (State.arriveAt p s).fixed = s.fixed := by simp [State.arriveAt]

theorem execPqWaitArrive_fixed (k : Nat) (more : Bool) (s : State) : Fixes s (execPqWaitArrive k more s) := by
  unfold execPqWaitArrive
  (repeat' split) <;> simp [Fixes]

@[simp] theorem State.rimeRefused_fixed (d status : Nat) (s : State) : (State.rimeRefused d status s).fixed = s.fixed := by simp [State.rimeRefused]

@[simp] theorem State.tileAnswer_fixed (p : Iso) (g : Nat) (s : State) : (State.tileAnswer p g s).fixed = s.fixed := by
  unfold State.tileAnswer
  (try dsimp only)
  (repeat' split) <;> simp

@[simp] theorem State.rimeAnswer_fixed (p : Iso) (s : State) : (State.rimeAnswer p s).fixed = s.fixed := by simp [State.rimeAnswer]

theorem execPqReplyArrive_fixed (k : Nat) (s : State) : Fixes s (execPqReplyArrive k s) := by
  unfold execPqReplyArrive
  (try dsimp only)
  (repeat' split) <;> simp [Fixes]

@[simp] theorem State.cancelAt_fixed (p : Iso) (s : State) : (State.cancelAt p s).fixed = s.fixed := by simp [State.cancelAt]

theorem execPqCancelArrive_fixed (k : Nat) (s : State) : Fixes s (execPqCancelArrive k s) := by
  unfold execPqCancelArrive
  (repeat' split) <;> simp [Fixes]

theorem execWaitTimeout_fixed (unit : Fin 68) (s : State) : Fixes s (execWaitTimeout unit s) := by
  unfold execWaitTimeout
  (try dsimp only)
  (repeat' split) <;> simp [Fixes]

@[simp] theorem State.markTenancy_fixed (t : Nat) (s : State) : (State.markTenancy t s).fixed = s.fixed := by simp [State.markTenancy]

@[simp] theorem State.correctedSource_fixed (p : Iso) (s : State) : (State.correctedSource p s).fixed = s.fixed := by
  unfold State.correctedSource
  (repeat' split) <;> simp

theorem execIsobarResend_fixed (k : Nat) (s : State) : Fixes s (execIsobarResend k s) := by
  unfold execIsobarResend
  (repeat' split) <;> simp [Fixes]

theorem execSweepCheckEnd_fixed (t : Fin 17) (s : State) : Fixes s (execSweepCheckEnd t s) := by
  unfold execSweepCheckEnd
  (try dsimp only)
  (repeat' split) <;> simp [Fixes]

@[simp] theorem State.setSweepLatch_fixed (g : Nat) (s : State) : (State.setSweepLatch g s).fixed = s.fixed := by simp [State.setSweepLatch]

@[simp] theorem State.sweepFault_fixed (g : Nat) (s : State) : (State.sweepFault g s).fixed = s.fixed := by simp [State.sweepFault]

theorem execSweepRelease_fixed (t : Fin 17) (s : State) : Fixes s (execSweepRelease t s) := by
  unfold execSweepRelease
  (try dsimp only)
  (repeat' split) <;> simp [Fixes]

@[simp] theorem State.takeSnapshot_fixed (s : State) : (State.takeSnapshot s).fixed = s.fixed := by simp [State.takeSnapshot]

theorem execPqSnapGo_fixed (v : Word) (s : State) : Fixes s (execPqSnapGo v s) := by
  unfold execPqSnapGo
  (repeat' split) <;> simp [Fixes]

@[simp] theorem State.setRange_fixed (t base count : Nat) (s : State) : (State.setRange t base count s).fixed = s.fixed := by simp [State.setRange]

@[simp] theorem State.writeTncfg_fixed (func t : Nat) (part : Part) (v : Word) (s : State) :
    (State.writeTncfg func t part v s).fixed = s.fixed := by simp [State.writeTncfg]

theorem execPqTncfgWrite_fixed (t : Fin 17) (part : Part) (v : Word) (s : State) : Fixes s (execPqTncfgWrite t part v s) := by
  unfold execPqTncfgWrite
  simp [Fixes]

end Sys2Proof.Machine
end

