-- ==== Sys2Proof/Laws/FixedUnits.lean ====
section
/-! SUPPORT. More of what leaves the queue and the fuses alone: see Laws/Fixed.lean. -/

namespace Sys2Proof.Machine

@[simp] theorem State.rimeFinish_fixed (d f : Nat) (c : RingCmd) (result : Nat) (s : State) :
    (State.rimeFinish d f c result s).fixed = s.fixed := by simp [State.rimeFinish]

@[simp] theorem State.rimePoison_fixed (d word : Nat) (s : State) : (State.rimePoison d word s).fixed = s.fixed := by simp [State.rimePoison]

@[simp] theorem State.watchHbm_fixed (d : Nat) (s : State) : (State.watchHbm d s).fixed = s.fixed := by simp [State.watchHbm]

@[simp] theorem State.startWaves_fixed (d : Nat) (s : State) : (State.startWaves d s).fixed = s.fixed := by simp [State.startWaves]

@[simp] theorem State.nextWave_fixed (d : Nat) (s : State) : (State.nextWave d s).fixed = s.fixed := by simp [State.nextWave]

@[simp] theorem State.mixed_fixed (s : State) (log : List (Nat × Nat)) (x : Nat × Nat) : (State.mixed s log x).fixed = s.fixed := by simp [State.mixed]

@[simp] theorem State.rimeCheck_fixed (d f r : Nat) (c : RingCmd) (s : State) : (State.rimeCheck d f r c s).fixed = s.fixed := by
  unfold State.rimeCheck
  (try dsimp only)
  (repeat' split) <;> simp

theorem execRimeCommandStart_fixed (die : Fin 4) (s : State) : Fixes s (execRimeCommandStart die s) := by
  unfold execRimeCommandStart
  dsimp only
  repeat' split
  all_goals first
    | (simp [Fixes]; done)
    | (have h := State.rateUp_held (by assumption); simp [Fixes, h]; done)

theorem execRimeKeyLoadDone_fixed (die : Fin 4) (s : State) : Fixes s (execRimeKeyLoadDone die s) := by
  unfold execRimeKeyLoadDone
  (try dsimp only)
  (repeat' split) <;> simp [Fixes]

@[simp] theorem State.writeOp_fixed (d i op : Nat) (bytes : List Byte) (log read : List (Nat × Nat)) (s : State) :
    (State.writeOp d i op bytes log read s).fixed = s.fixed := by
  unfold State.writeOp
  (try dsimp only)
  (repeat' split) <;> simp

@[simp] theorem State.rimeMemEcc_fixed (d : Nat) (mem : Option (Nat × Secded)) (reads : List (Nat × Nat)) (s : State) :
    (State.rimeMemEcc d mem reads s).fixed = s.fixed := by
  unfold State.rimeMemEcc
  (try dsimp only)
  (repeat' split) <;> simp

@[simp] theorem State.rimeEccEvent_fixed (d cls status : Nat) (s : State) : (State.rimeEccEvent d cls status s).fixed = s.fixed := by simp [State.rimeEccEvent]

@[simp] theorem State.rimeWave_fixed (d f r : Nat) (c : RingCmd) (mem : Option (Nat × Secded)) (s : State) :
    (State.rimeWave d f r c mem s).fixed = s.fixed := by
  unfold State.rimeWave
  (try dsimp only)
  (repeat' split) <;> simp

theorem execRimeWaveDone_fixed (die : Fin 4) (ecc : Secded) (mem : Option (Nat × Secded)) (s : State) :
    Fixes s (execRimeWaveDone die ecc mem s) := by
  unfold execRimeWaveDone
  (try dsimp only)
  (repeat' split) <;> simp [Fixes]

@[simp] theorem State.endSchedule_fixed (u : Nat) (s : State) : (State.endSchedule u s).fixed = s.fixed := by simp [State.endSchedule]

@[simp] theorem State.fenceUnit_fixed (q : Quiesce) (u : Nat) (s : State) : (State.fenceUnit q u s).fixed = s.fixed := by simp [State.fenceUnit]

theorem execQuiesceFence_fixed (unit : BitVec 8) (s : State) : Fixes s (execQuiesceFence unit s) := by
  unfold execQuiesceFence
  (try dsimp only)
  (repeat' split) <;> simp [Fixes]

@[simp] theorem State.abortServed_fixed (u : Nat) (s : State) (j : Nat) : (State.abortServed u s j).fixed = s.fixed := by simp [State.abortServed]

@[simp] theorem State.drainUnit_fixed (q : Quiesce) (u : Nat) (s : State) : (State.drainUnit q u s).fixed = s.fixed := by simp [State.drainUnit]

theorem execQuiesceDrainEnd_fixed (unit : BitVec 8) (s : State) : Fixes s (execQuiesceDrainEnd unit s) := by
  unfold execQuiesceDrainEnd
  (try dsimp only)
  (repeat' split) <;> simp [Fixes]

@[simp] theorem State.resetUnit_fixed (u : Nat) (s : State) : (State.resetUnit u s).fixed = s.fixed := by simp [State.resetUnit]

@[simp] theorem State.beginScrub_fixed (u : Nat) (s : State) : (State.beginScrub u s).fixed = s.fixed := by simp [State.beginScrub]

@[simp] theorem State.releaseUnit_fixed (q : Quiesce) (u : Nat) (s : State) : (State.releaseUnit q u s).fixed = s.fixed := by simp [State.releaseUnit]

theorem execEpochAudit_fixed (wrong : List (BitVec 8)) (s : State) : Fixes s (execEpochAudit wrong s) := by
  unfold execEpochAudit
  (try dsimp only)
  (repeat' split) <;> simp [Fixes]

@[simp] theorem State.lastStatus_fixed (t st : Nat) (s : State) : (State.lastStatus t st s).fixed = s.fixed := by simp [State.lastStatus]

@[simp] theorem State.tenancyEvent_fixed (t step sub : Nat) (s : State) : (State.tenancyEvent t step sub s).fixed = s.fixed := by simp [State.tenancyEvent]

@[simp] theorem State.refuseRequest_fixed (func t op : Nat) (s : State) : (State.refuseRequest func t op s).fixed = s.fixed := by simp [State.refuseRequest]

@[simp] theorem State.createTen_fixed (func t debug : Nat) (s : State) : (State.createTen func t debug s).fixed = s.fixed := by simp [State.createTen]

@[simp] theorem State.startTen_fixed (func t : Nat) (s : State) : (State.startTen func t s).fixed = s.fixed := by simp [State.startTen]

@[simp] theorem State.cutAllocs_fixed (t : Nat) (s : State) : (State.cutAllocs t s).fixed = s.fixed := by simp [State.cutAllocs]

@[simp] theorem State.stopTen_fixed (func t : Nat) (s : State) : (State.stopTen func t s).fixed = s.fixed := by simp [State.stopTen]

@[simp] theorem State.destroyTen_fixed (func t : Nat) (s : State) : (State.destroyTen func t s).fixed = s.fixed := by simp [State.destroyTen]

@[simp] theorem State.writeTnCtl_fixed (func t op debug : Nat) (v : Word) (s : State) :
    (State.writeTnCtl func t op debug v s).fixed = s.fixed := by
  unfold State.writeTnCtl
  (repeat' split) <;> simp

theorem execCreate_fixed (t : Fin 17) (perm : BitVec 2) (s : State) : Fixes s (execCreate t perm s) := by
  unfold execCreate
  simp [Fixes]

theorem execStart_fixed (t : Fin 17) (s : State) : Fixes s (execStart t s) := by
  unfold execStart
  simp [Fixes]

theorem execStop_fixed (t : Fin 17) (s : State) : Fixes s (execStop t s) := by
  unfold execStop
  simp [Fixes]

theorem execDestroy_fixed (t : Fin 17) (s : State) : Fixes s (execDestroy t s) := by
  unfold execDestroy
  simp [Fixes]

@[simp] theorem State.returnSlots_fixed (t : Nat) (s : State) : (State.returnSlots t s).fixed = s.fixed := by simp [State.returnSlots]

@[simp] theorem State.unpin_fixed (t : Nat) (s : State) : (State.unpin t s).fixed = s.fixed := by simp [State.unpin]

@[simp] theorem State.finishStop_fixed (t : Nat) (s : State) : (State.finishStop t s).fixed = s.fixed := by simp [State.finishStop]

@[simp] theorem State.freeAll_fixed (t : Nat) (s : State) : (State.freeAll t s).fixed = s.fixed := by simp [State.freeAll]

@[simp] theorem State.finishDestroy_fixed (t : Nat) (s : State) : (State.finishDestroy t s).fixed = s.fixed := by simp [State.finishDestroy]

@[simp] theorem State.answerStep_fixed (t : Nat) (s : State) : (State.answerStep t s).fixed = s.fixed := by
  unfold State.answerStep
  (repeat' split) <;> simp

theorem execTenancyStopDone_fixed (t : Fin 17) (s : State) : Fixes s (execTenancyStopDone t s) := by
  unfold execTenancyStopDone
  (try dsimp only)
  (repeat' split) <;> simp [Fixes]

@[simp] theorem State.refuseAssign_fixed (off func t : Nat) (v : Word) (s : State) :
    (State.refuseAssign off func t v s).fixed = s.fixed := by simp [State.refuseAssign]

@[simp] theorem State.writeTiles_fixed (func t : Nat) (part : Part) (v : Word) (s : State) :
    (State.writeTiles func t part v s).fixed = s.fixed := by simp [State.writeTiles]

theorem execTnTilesWrite_fixed (t : Fin 17) (part : Part) (v : Word) (s : State) : Fixes s (execTnTilesWrite t part v s) := by
  unfold execTnTilesWrite
  simp [Fixes]

@[simp] theorem State.writeTnCfg_fixed (func t : Nat) (part : Part) (v : Word) (s : State) :
    (State.writeTnCfg func t part v s).fixed = s.fixed := by simp [State.writeTnCfg]

theorem execTnCfgWrite_fixed (t : Fin 17) (part : Part) (v : Word) (s : State) : Fixes s (execTnCfgWrite t part v s) := by
  unfold execTnCfgWrite
  simp [Fixes]

@[simp] theorem State.writeSlotq_fixed (func t : Nat) (part : Part) (v : Word) (s : State) :
    (State.writeSlotq func t part v s).fixed = s.fixed := by simp [State.writeSlotq]

theorem execTnSlotqWrite_fixed (t : Fin 17) (part : Part) (v : Word) (s : State) : Fixes s (execTnSlotqWrite t part v s) := by
  unfold execTnSlotqWrite
  simp [Fixes]

@[simp] theorem State.writeSave_fixed (func t : Nat) (part : Part) (v : Word) (s : State) :
    (State.writeSave func t part v s).fixed = s.fixed := by simp [State.writeSave]

theorem execTnSaveWrite_fixed (t : Fin 17) (part : Part) (v : Word) (s : State) : Fixes s (execTnSaveWrite t part v s) := by
  unfold execTnSaveWrite
  simp [Fixes]

theorem execTileScrubDone_fixed (tile : Fin 64) (s : State) : Fixes s (execTileScrubDone tile s) := by
  unfold execTileScrubDone
  (try dsimp only)
  (repeat' split) <;> simp [Fixes]

theorem execScrubTimeout_fixed (tile : Fin 64) (s : State) : Fixes s (execScrubTimeout tile s) := by
  unfold execScrubTimeout
  (try dsimp only)
  (repeat' split) <;> simp [Fixes]

@[simp] theorem State.writeIso_fixed (func : Nat) (v : Word) (s : State) : (State.writeIso func v s).fixed = s.fixed := by simp [State.writeIso]

theorem execTnIsoClaimWrite_fixed (v : Word) (s : State) : Fixes s (execTnIsoClaimWrite v s) := by
  unfold execTnIsoClaimWrite
  simp [Fixes]

@[simp] theorem State.writeBufq_fixed (t : Nat) (part : Part) (v : Word) (s : State) :
    (State.writeBufq t part v s).fixed = s.fixed := by simp [State.writeBufq]

theorem execTnBufqWrite_fixed (t : Fin 17) (part : Part) (v : Word) (s : State) : Fixes s (execTnBufqWrite t part v s) := by
  unfold execTnBufqWrite
  simp [Fixes]

@[simp] theorem State.setBand_fixed (b : Nat) (s : State) : (State.setBand b s).fixed = s.fixed := by simp [State.setBand]

theorem execSurgeEntry_fixed (vin : BitVec 16) (s : State) : Fixes s (execSurgeEntry vin s) := by
  unfold execSurgeEntry
  (try dsimp only)
  (repeat' split) <;> simp [Fixes]

theorem execSurgeExit_fixed (vin : BitVec 16) (s : State) : Fixes s (execSurgeExit vin s) := by
  unfold execSurgeExit
  (repeat' split) <;> simp [Fixes]

theorem execDipEntry_fixed (vin : BitVec 16) (s : State) : Fixes s (execDipEntry vin s) := by
  unfold execDipEntry
  (repeat' split) <;> simp [Fixes]

theorem execDipExit_fixed (vin : BitVec 16) (s : State) : Fixes s (execDipExit vin s) := by
  unfold execDipExit
  (repeat' split) <;> simp [Fixes]

@[simp] theorem State.lull_fixed (g : Nat) (s : State) : (State.lull g s).fixed = s.fixed := by simp [State.lull]

theorem execUnpinnedStepDown_fixed (s : State) : Fixes s (execUnpinnedStepDown s) := by
  unfold execUnpinnedStepDown
  (try dsimp only)
  (repeat' split) <;> simp [Fixes]

theorem execUnpinnedStepUp_fixed (s : State) : Fixes s (execUnpinnedStepUp s) := by
  unfold execUnpinnedStepUp
  (try dsimp only)
  (repeat' split) <;> simp [Fixes]

theorem execRipple_fixed (on : Bool) (s : State) : Fixes s (execRipple on s) := by
  unfold execRipple
  (repeat' split) <;> simp [Fixes]

theorem execStopRecordWrite_fixed (s : State) : Fixes s (execStopRecordWrite s) := by
  unfold execStopRecordWrite
  (try dsimp only)
  (repeat' split) <;> simp [Fixes]

theorem execVtRailFault_fixed (die : Fin 4) (mv : BitVec 16) (s : State) : Fixes s (execVtRailFault die mv s) := by
  unfold execVtRailFault
  (try dsimp only)
  (repeat' split) <;> simp [Fixes]

@[simp] theorem State.granted_fixed (x : Quantum) (ns : Nat) (s : State) : (State.granted x ns s).fixed = s.fixed := by
  unfold State.granted
  (repeat' split) <;> simp

theorem execSlewGrant_fixed (share : Fin 18) (s : State) : Fixes s (execSlewGrant share s) := by
  unfold execSlewGrant
  (try dsimp only)
  (repeat' split) <;> simp [Fixes]

@[simp] theorem State.writeSlew_fixed (func : Nat) (part : Part) (v : Word) (s : State) :
    (State.writeSlew func part v s).fixed = s.fixed := by simp [State.writeSlew]

theorem execPwrSlewWrite_fixed (part : Part) (v : Word) (s : State) : Fixes s (execPwrSlewWrite part v s) := by
  unfold execPwrSlewWrite
  simp [Fixes]

@[simp] theorem State.writeDrizzle_fixed (func : Nat) (part : Part) (v : Word) (s : State) :
    (State.writeDrizzle func part v s).fixed = s.fixed := by simp [State.writeDrizzle]

theorem execPwrDrizzleWrite_fixed (part : Part) (v : Word) (s : State) : Fixes s (execPwrDrizzleWrite part v s) := by
  unfold execPwrDrizzleWrite
  simp [Fixes]

@[simp] theorem State.writeExtremes_fixed (v : Word) (s : State) : (State.writeExtremes v s).fixed = s.fixed := by simp [State.writeExtremes]

theorem execPwrInExtremesClear_fixed (v : Word) (s : State) : Fixes s (execPwrInExtremesClear v s) := by
  unfold execPwrInExtremesClear
  simp [Fixes]

@[simp] theorem State.writeRestart_fixed (part : Part) (v : Word) (s : State) : (State.writeRestart part v s).fixed = s.fixed := by simp [State.writeRestart]

theorem execPwrRestartWrite_fixed (part : Part) (v : Word) (s : State) : Fixes s (execPwrRestartWrite part v s) := by
  unfold execPwrRestartWrite
  simp [Fixes]

theorem execStartWaitExit_fixed (ga : BitVec 3) (scanEn : Bool) (vin held : BitVec 16) (s : State) :
    Fixes s (execStartWaitExit ga scanEn vin held s) := by
  unfold execStartWaitExit
  (try dsimp only)
  (repeat' split) <;> simp [Fixes]

theorem execBankCharged_fixed (vbank vin : BitVec 16) (s : State) : Fixes s (execBankCharged vbank vin s) := by
  unfold execBankCharged
  (try dsimp only)
  (repeat' split) <;> simp [Fixes]

theorem execThermalWaitEnd_fixed (inlet hottest : BitVec 8) (s : State) : Fixes s (execThermalWaitEnd inlet hottest s) := by
  unfold execThermalWaitEnd
  (try dsimp only)
  (repeat' split) <;> simp [Fixes]

@[simp] theorem State.report_fixed (n result path status detail : Nat) (words : List Nat) (s : State) :
    (State.report n result path status detail words s).fixed = s.fixed := by simp [State.report]

@[simp] theorem State.haltDead_fixed (idx : Nat) (s : State) : (State.haltDead idx s).fixed = s.fixed := by simp [State.haltDead]

@[simp] theorem State.bootExclude_fixed (u : Nat) (s : State) : (State.bootExclude u s).fixed = s.fixed := by simp [State.bootExclude]

@[simp] theorem State.raiseDomain_fixed (n : Nat) (s : State) : (State.raiseDomain n s).fixed = s.fixed := by simp [State.raiseDomain]

@[simp] theorem State.identifyModule_fixed (s : State) : (State.identifyModule s).fixed = s.fixed := by simp [State.identifyModule]

@[simp] theorem State.switchSlot_fixed (s : State) : (State.switchSlot s).fixed = s.fixed := by simp [State.switchSlot]

@[simp] theorem State.flushBoot_fixed (s : State) : (State.flushBoot s).fixed = s.fixed := by simp [State.flushBoot]

@[simp] theorem State.mxIssue_fixed (g w : Nat) (s : State) : (State.mxIssue g w s).fixed = s.fixed := by simp [State.mxIssue]

@[simp] theorem State.beginWait_fixed (g w : Nat) (b : List Byte) (phase : WaitPhase) (s : State) :
    (State.beginWait g w b phase s).fixed = s.fixed := by simp [State.beginWait]

/-- What the Q slot's gate leaves alone. -/
def QOut.Fixes (s : State) : QOut → Prop
  | .held t => t.fixed = s.fixed
  | .go _ => True
theorem State.qFault_fixed (s : State) (g w value flags status : Nat) : (s.qFault g w value flags status).Fixes s := by
  simp [State.qFault, QOut.Fixes]
theorem State.localWait_fixed (s : State) (g w : Nat) (b : List Byte) : (s.localWait g w b).Fixes s := by
  unfold State.localWait
  dsimp only
  repeat' split
  all_goals simp [State.qFault, QOut.Fixes]
theorem State.sweepWait_fixed (s : State) (g w : Nat) (b : List Byte) : (s.sweepWait g w b).Fixes s := by
  unfold State.sweepWait
  dsimp only
  repeat' split
  all_goals simp [State.qFault, QOut.Fixes]
theorem State.qGate_fixed (s : State) (g : Nat) (b : List Byte) : (s.qGate g b).Fixes s := by
  unfold State.qGate
  dsimp only
  repeat' split
  all_goals first
    | exact State.localWait_fixed _ _ _ _
    | exact State.sweepWait_fixed _ _ _ _
    | simp [State.qFault, QOut.Fixes]
theorem QOut.fixed_of_held {s t : State} {q : QOut} (h : q.Fixes s) (hq : q = .held t) : t.fixed = s.fixed := by
  subst hq
  exact h

@[simp] theorem State.storeEnd_fixed (status : Nat) (s : State) : (State.storeEnd status s).fixed = s.fixed := by simp [State.storeEnd]

@[simp] theorem State.setCsBuf_fixed (bs : List Byte) (s : State) : (State.setCsBuf bs s).fixed = s.fixed := by simp [State.setCsBuf]

@[simp] theorem State.storeBegin_fixed (op addr len : Nat) (s : State) : (State.storeBegin op addr len s).fixed = s.fixed := by simp [State.storeBegin]

@[simp] theorem State.storeCheck_fixed (op addr len : Nat) (s : State) : (State.storeCheck op addr len s).fixed = s.fixed := by
  unfold State.storeCheck
  (repeat' split) <;> simp

@[simp] theorem State.storeCmd_fixed (func : Nat) (v : Word) (s : State) : (State.storeCmd func v s).fixed = s.fixed := by simp [State.storeCmd]

@[simp] theorem State.whenStoreUp_fixed (k : State → State) (s : State) (hk : ∀ s, (k s).fixed = s.fixed) :
    (State.whenStoreUp k s).fixed = s.fixed := by simp [State.whenStoreUp, hk]

theorem execRead_fixed (len : BitVec 13) (s : State) : Fixes s (execRead len s) := by
  unfold execRead
  simp [Fixes]

theorem execProgram_fixed (len : BitVec 13) (s : State) : Fixes s (execProgram len s) := by
  unfold execProgram
  simp [Fixes]

theorem execErase_fixed (len : BitVec 13) (s : State) : Fixes s (execErase len s) := by
  unfold execErase
  simp [Fixes]

theorem execStoreReadDone_fixed (s : State) : Fixes s (execStoreReadDone s) := by
  unfold execStoreReadDone
  (repeat' split) <;> simp [Fixes]

@[simp] theorem State.storeFailed_fixed (addr : Nat) (s : State) : (State.storeFailed addr s).fixed = s.fixed := by simp [State.storeFailed]

@[simp] theorem State.spoilStore_fixed (addr len : Nat) (s : State) : (State.spoilStore addr len s).fixed = s.fixed := by simp [State.spoilStore]

theorem execStoreOpDone_fixed (ok : Bool) (s : State) : Fixes s (execStoreOpDone ok s) := by
  unfold execStoreOpDone
  (try dsimp only)
  (repeat' split) <;> simp [Fixes]

@[simp] theorem State.startErase_fixed (slot : Nat) (s : State) : (State.startErase slot s).fixed = s.fixed := by simp [State.startErase]

@[simp] theorem State.endErase_fixed (s : State) : (State.endErase s).fixed = s.fixed := by simp [State.endErase]

theorem execEraseSectorDone_fixed (ok : Bool) (s : State) : Fixes s (execEraseSectorDone ok s) := by
  unfold execEraseSectorDone
  (try dsimp only)
  (repeat' split) <;> simp [Fixes]

@[simp] theorem State.verifySlot_fixed (slot : Nat) (s : State) : (State.verifySlot slot s).1.fixed = s.fixed := by simp [State.verifySlot]

@[simp] theorem State.activateSlot_fixed (slot : Nat) (s : State) : (State.activateSlot slot s).fixed = s.fixed := by simp [State.activateSlot]

@[simp] theorem State.confirmTrial_fixed (s : State) : (State.confirmTrial s).fixed = s.fixed := by simp [State.confirmTrial]

@[simp] theorem State.afterCommit_fixed (s : State) : (State.afterCommit s).fixed = s.fixed := by simp [State.afterCommit]

@[simp] theorem State.setOwner_fixed (key : List Byte) (s : State) : (State.setOwner key s).fixed = s.fixed := by simp [State.setOwner]

@[simp] theorem State.stopRings_fixed (s : State) : (State.stopRings s).fixed = s.fixed := by simp [State.stopRings]

@[simp] theorem State.mbxTenancy_fixed (tag t op debug : Nat) (s : State) : (State.mbxTenancy tag t op debug s).fixed = s.fixed := by simp [State.mbxTenancy]

@[simp] theorem State.unhold_fixed (u : Nat) (s : State) : (State.unhold u s).fixed = s.fixed := by simp [State.unhold]

@[simp] theorem State.mbxQuiesce_fixed (tag u action : Nat) (s : State) : (State.mbxQuiesce tag u action s).fixed = s.fixed := by simp [State.mbxQuiesce]

@[simp] theorem State.mbxSnapshot_fixed (tag : Nat) (s : State) : (State.mbxSnapshot tag s).fixed = s.fixed := by simp [State.mbxSnapshot]

theorem execPqSnapDone_fixed (s : State) : Fixes s (execPqSnapDone s) := by
  unfold execPqSnapDone
  (try dsimp only)
  (repeat' split) <;> simp [Fixes]

@[simp] theorem State.failed_fixed (cause : Fin 3) (s : State) : (State.failed cause s).fixed = s.fixed := by simp [State.failed]

@[simp] theorem State.scrubTime_fixed (s : State) : (State.scrubTime s).fixed = s.fixed := by simp [State.scrubTime]

@[simp] theorem State.evFail_fixed (i : Nat) (s : State) : (State.evFail i s).fixed = s.fixed := by simp [State.evFail]

@[simp] theorem State.evWrite_fixed (i : Nat) (e : EvRec) (s : State) : (State.evWrite i e s).fixed = s.fixed := by simp [State.evWrite]

theorem execEventRecordWrite_fixed (ring : Fin 18) (ok : Bool) (s : State) : Fixes s (execEventRecordWrite ring ok s) := by
  unfold execEventRecordWrite
  (try dsimp only)
  (repeat' split) <;> simp [Fixes]

theorem execEvrDoorbellPoll_fixed (ring : Fin 18) (res : HostRead) (s : State) : Fixes s (execEvrDoorbellPoll ring res s) := by
  unfold execEvrDoorbellPoll
  (try dsimp only)
  (repeat' split) <;> simp [Fixes]

theorem execEvrMsix_fixed (ring : Fin 18) (s : State) : Fixes s (execEvrMsix ring s) := by
  unfold execEvrMsix
  (try dsimp only)
  (repeat' split) <;> simp [Fixes]

@[simp] theorem State.writeEvrCtl_fixed (func i : Nat) (part : Part) (v : Word) (s : State) :
    (State.writeEvrCtl func i part v s).fixed = s.fixed := by simp [State.writeEvrCtl]

theorem execEvrCtlWrite_fixed (ring : Fin 18) (part : Part) (v : Word) (s : State) : Fixes s (execEvrCtlWrite ring part v s) := by
  unfold execEvrCtlWrite
  simp [Fixes]

@[simp] theorem State.writeEvrAddr_fixed (func i : Nat) (f : Fld) (part : Part) (v : Word) (s : State) :
    (State.writeEvrAddr func i f part v s).fixed = s.fixed := by simp [State.writeEvrAddr]

@[simp] theorem State.undoWithheld_fixed (k : Nat) (part : Part) (v : Word) (s : State) :
    (State.undoWithheld k part v s).fixed = s.fixed := by simp [State.undoWithheld]

theorem execGranuleWithholdUndo_fixed (k : Fin 4) (part : Part) (v : Word) (s : State) :
    Fixes s (execGranuleWithholdUndo k part v s) := by
  unfold execGranuleWithholdUndo
  simp [Fixes]

@[simp] theorem State.failCheck_fixed (f r : Nat) (c : RingCmd) (st : Nat) (s : State) :
    (State.failCheck f r c st s).fixed = s.fixed := by simp [State.failCheck]

@[simp] theorem State.pinTenancy_fixed (t slew step : Nat) (s : State) : (State.pinTenancy t slew step s).fixed = s.fixed := by simp [State.pinTenancy]

@[simp] theorem State.wakeScheduled_fixed (s : State) : (State.wakeScheduled s).fixed = s.fixed := by simp [State.wakeScheduled]

@[simp] theorem State.setTwin_fixed (p : Nat × Nat) (s : State) : (State.setTwin p s).fixed = s.fixed := by simp [State.setTwin]

@[simp] theorem State.installImage_fixed (f : Nat) (h pt x : List Byte) (s : State) :
    (State.installImage f h pt x s).fixed = s.fixed := by simp [State.installImage]

@[simp] theorem State.sendLaunch_fixed (f r : Nat) (c : RingCmd) (base : Nat) (h tt : List Byte) (s : State) :
    (State.sendLaunch f r c base h tt s).fixed = s.fixed := by simp [State.sendLaunch]

@[simp] theorem State.yieldTiles_fixed (f place : Nat) (s : State) : (State.yieldTiles f place s).fixed = s.fixed := by simp [State.yieldTiles]

@[simp] theorem State.launch_fixed (f r : Nat) (c : RingCmd) (s : State) : (State.launch f r c s).fixed = s.fixed := by
  unfold State.launch
  simp only [ite_fixed, State.failCheck_fixed]
  repeat' split
  all_goals first | rfl | simp

theorem execLaunch_fixed (func : Fin 17) (ring : Fin 16) (index : BitVec 32) (s : State) : Fixes s (execLaunch func ring index s) := by
  unfold execLaunch
  simp [Fixes]

@[simp] theorem State.dropBz_fixed (k : Nat) (s : State) : (State.dropBz k s).fixed = s.fixed := by simp [State.dropBz]

@[simp] theorem State.takeBz_fixed (k : Nat) (p : Bz) (effect : State → State) (s : State) (heffect : ∀ s, (effect s).fixed = s.fixed) :
    (State.takeBz k p effect s).fixed = s.fixed := by simp [State.takeBz, heffect]

@[simp] theorem State.tileLaunch_fixed (g : Nat) (s : State) : (State.tileLaunch g s).fixed = s.fixed := by
  unfold State.tileLaunch
  (try dsimp only)
  (repeat' split) <;> simp

@[simp] theorem State.launchStale_fixed (g : Nat) (s : State) : (State.launchStale g s).fixed = s.fixed := by
  unfold State.launchStale
  (try dsimp only)
  (repeat' split) <;> simp

@[simp] theorem State.rimeTake_fixed (d : Nat) (p : Bz) (s : State) : (State.rimeTake d p s).fixed = s.fixed := by
  unfold State.rimeTake
  (repeat' split) <;> simp

@[simp] theorem State.rimeStale_fixed (p : Bz) (s : State) : (State.rimeStale p s).fixed = s.fixed := by
  unfold State.rimeStale
  (repeat' split) <;> simp

theorem execBreezeCmd_fixed (k : Nat) (s : State) : Fixes s (execBreezeCmd k s) := by
  unfold execBreezeCmd
  (try dsimp only)
  (repeat' split) <;> simp [Fixes]

theorem execBreezeEpoch_fixed (k : Nat) (s : State) : Fixes s (execBreezeEpoch k s) := by
  unfold execBreezeEpoch
  (try dsimp only)
  (repeat' split) <;> simp [Fixes]

@[simp] theorem State.takeReport_fixed (p : Bz) (s : State) : (State.takeReport p s).fixed = s.fixed := by simp [State.takeReport]

theorem execBreezeReport_fixed (k : Nat) (s : State) : Fixes s (execBreezeReport k s) := by
  unfold execBreezeReport
  (repeat' split) <;> simp [Fixes]

theorem execBreezeCtrl_fixed (k : Nat) (s : State) : Fixes s (execBreezeCtrl k s) := by
  unfold execBreezeCtrl
  (repeat' split) <;> simp [Fixes]

@[simp] theorem State.correctedPacket_fixed (p : Bz) (s : State) : (State.correctedPacket p s).fixed = s.fixed := by simp [State.correctedPacket]

theorem execBreezeResend_fixed (k : Nat) (s : State) : Fixes s (execBreezeResend k s) := by
  unfold execBreezeResend
  (repeat' split) <;> simp [Fixes]

@[simp] theorem State.startTile_fixed (g : Nat) (s : State) : (State.startTile g s).fixed = s.fixed := by simp [State.startTile]

@[simp] theorem State.loadTile_fixed (g a n : Nat) (s : State) : (State.loadTile g a n s).fixed = s.fixed := by simp [State.loadTile]

theorem execIstoreLoadDone_fixed (tile : Fin 64) (s : State) : Fixes s (execIstoreLoadDone tile s) := by
  unfold execIstoreLoadDone
  (try dsimp only)
  (repeat' split) <;> simp [Fixes]

@[simp] theorem State.rampTile_fixed (g level : Nat) (start : Word) (ns : Nat) (s : State) :
    (State.rampTile g level start ns s).fixed = s.fixed := by simp [State.rampTile]

theorem execPrewarm_fixed (func : Fin 17) (ring : Fin 16) (index : BitVec 32) (s : State) :
    Fixes s (execPrewarm func ring index s) := by
  unfold execPrewarm
  (try dsimp only)
  simp [Fixes]

theorem execPinnedCommonStart_fixed (func : Fin 17) (ring : Fin 16) (index : BitVec 32) (s : State) : Fixes s (execPinnedCommonStart func ring index s) := by
  refine State.withRunning_fixed _ _ _ _ _ _ (fun c s => ?_)
  split
  · split <;> simp
  · rfl

theorem execLoadMark_fixed (tile : Fin 64) (s : State) : Fixes s (execLoadMark tile s) := by
  unfold execLoadMark
  (try dsimp only)
  (repeat' split) <;> simp [Fixes]

theorem execLaunchComplete_fixed (func : Fin 17) (ring : Fin 16) (index : BitVec 32) (s : State) :
    Fixes s (execLaunchComplete func ring index s) := by
  unfold execLaunchComplete
  (try dsimp only)
  simp [Fixes]

@[simp] theorem State.engineSram_fixed (g addr : Nat) (s : State) : (State.engineSram g addr s).fixed = s.fixed := by simp [State.engineSram]

@[simp] theorem State.engineParity_fixed (g panel bank row : Nat) (s : State) :
    (State.engineParity g panel bank row s).fixed = s.fixed := by simp [State.engineParity]

@[simp] theorem State.engineCorrected_fixed (g : Nat) (e : EngErr) (s : State) : (State.engineCorrected g e s).fixed = s.fixed := by
  unfold State.engineCorrected
  (repeat' split) <;> simp

@[simp] theorem State.drizzleYields_fixed (g p : Nat) (s : State) : (State.drizzleYields g p s).fixed = s.fixed := by simp [State.drizzleYields]

@[simp] theorem State.mxPop_fixed (g : Nat) (o : MxOp) (s : State) : (State.mxPop g o s).fixed = s.fixed := by simp [State.mxPop]

@[simp] theorem State.mxReadPop_fixed (g : Nat) (o : MxOp) (s : State) : (State.mxReadPop g o s).fixed = s.fixed := by simp [State.mxReadPop]

@[simp] theorem State.mxSat_fixed (g : Nat) (b : Bool) (s : State) : (State.mxSat g b s).fixed = s.fixed := by simp [State.mxSat]

@[simp] theorem State.autoDrizzle_fixed (g : Nat) (ps : List Nat) (s : State) : (State.autoDrizzle g ps s).fixed = s.fixed := by simp [State.autoDrizzle]

theorem execMloadRun_fixed (tile : Fin 64) (panel : Fin 4) (err : EngErr) (s : State) : Fixes s (execMloadRun tile panel err s) := by
  unfold execMloadRun
  (try dsimp only)
  (repeat' split) <;> simp [Fixes]

@[simp] theorem State.checksumStop_fixed (g : Nat) (o : MxOp) (row pass : Nat) (x : Compare) (s : State) :
    (State.checksumStop g o row pass x s).fixed = s.fixed := by
  unfold State.checksumStop
  (try dsimp only)
  (repeat' split) <;> simp

theorem execMmulRun_fixed (tile : Fin 64) (panel : Fin 4) (err : EngErr) (upset : List (Nat × Nat × Int)) (tclk : Nat) (s : State) : Fixes s (execMmulRun tile panel err upset tclk s) := by
  unfold execMmulRun
  extract_lets g p
  split
  · simp [Fixes]
  · exact State.rateUp_held ‹_›
  · rename_i o t _ hr
    have h := State.rateUp_held hr
    extract_lets rows s0 entered written r pass s1 s2 lose
    have h0 : s0.fixed = s.fixed := by simp [s0, h]
    have h2 : s2.fixed = s.fixed := by simp [s2, s1, h0]
    have hl : ∀ lo hi x, (lose lo hi x).fixed = x.fixed := fun _ _ _ => by simp [lose]
    clear_value s2 lose r s1
    (repeat' split) <;> simp [Fixes, hl, h2]

theorem execMmomRun_fixed (tile : Fin 64) (panel : Fin 4) (err : EngErr) (tclk : Nat) (s : State) : Fixes s (execMmomRun tile panel err tclk s) := by
  unfold execMmomRun
  dsimp only
  split
  · simp [Fixes]
  · exact State.rateUp_held ‹_›
  · have h := State.rateUp_held ‹_›
    split <;> simp [Fixes, h]

@[simp] theorem State.outRun_fixed (g p op : Nat) (err : EngErr) (s : State) : (State.outRun g p op err s).fixed = s.fixed := by
  unfold State.outRun
  (try dsimp only)
  (repeat' split) <;> simp

theorem execMreadRun_fixed (tile : Fin 64) (panel : Fin 4) (err : EngErr) (s : State) : Fixes s (execMreadRun tile panel err s) := by
  unfold execMreadRun
  simp [Fixes]

theorem execMspillRun_fixed (tile : Fin 64) (panel : Fin 4) (err : EngErr) (s : State) : Fixes s (execMspillRun tile panel err s) := by
  unfold execMspillRun
  simp [Fixes]

theorem execMdrzRun_fixed (tile : Fin 64) (panel : Fin 4) (tclk : Nat) (s : State) : Fixes s (execMdrzRun tile panel tclk s) := by
  unfold execMdrzRun
  dsimp only
  split
  · simp [Fixes]
  · exact State.rateUp_held ‹_›
  · simp [Fixes, State.rateUp_held ‹_›]

theorem execDrizzleWindowEnd_fixed (tile : Fin 64) (panel : Fin 4) (s : State) : Fixes s (execDrizzleWindowEnd tile panel s) := by
  unfold execDrizzleWindowEnd
  (try dsimp only)
  (repeat' split) <;> simp [Fixes]

theorem execDomainWake_fixed (dom : Fin 86) (s : State) : Fixes s (execDomainWake dom s) := by
  unfold execDomainWake
  simp [Fixes]

theorem execRailTargetReached_fixed (die : Fin 4) (s : State) : Fixes s (execRailTargetReached die s) := by
  unfold execRailTargetReached
  (try dsimp only)
  repeat' (first | (simp [Fixes]; done) | intro _ _ | refine (foldl_fixed _ _ ?_ _).trans ?_ | split | simp [Fixes] | dsimp only)

@[simp] theorem State.sampleInput_fixed (vin iin pin vbank : Nat) (s : State) :
    (State.sampleInput vin iin pin vbank s).fixed = s.fixed := by simp [State.sampleInput]

@[simp] theorem State.sampleDraws_fixed (draws : List Nat) (s : State) : (State.sampleDraws draws s).fixed = s.fixed := by simp [State.sampleDraws]

@[simp] theorem State.boundary_fixed (s : State) : (State.boundary s).fixed = s.fixed := by simp [State.boundary]

@[simp] theorem State.samplePower_fixed (pin : Nat) (s : State) : (State.samplePower pin s).fixed = s.fixed := by simp [State.samplePower]

@[simp] theorem State.sampleWindow_fixed (draws : List Nat) (s : State) : (State.sampleWindow draws s).fixed = s.fixed := by simp [State.sampleWindow]

theorem execPowerManagerTick_fixed (vin iin pin vbank : BitVec 16) (draws : List Nat) (s : State) :
    Fixes s (execPowerManagerTick vin iin pin vbank draws s) := by
  unfold execPowerManagerTick
  (try dsimp only)
  (repeat' split) <;> simp [Fixes]

@[simp] theorem State.writeBudget_fixed (func : Nat) (part : Part) (v : Word) (s : State) :
    (State.writeBudget func part v s).fixed = s.fixed := by simp [State.writeBudget]

theorem execPwrBudgetWrite_fixed (part : Part) (v : Word) (s : State) : Fixes s (execPwrBudgetWrite part v s) := by
  unfold execPwrBudgetWrite
  simp [Fixes]

@[simp] theorem State.writeTncap_fixed (func t : Nat) (part : Part) (v : Word) (s : State) :
    (State.writeTncap func t part v s).fixed = s.fixed := by simp [State.writeTncap]

theorem execPwrTncapWrite_fixed (t : Fin 17) (part : Part) (v : Word) (s : State) : Fixes s (execPwrTncapWrite t part v s) := by
  unfold execPwrTncapWrite
  simp [Fixes]

theorem execAlwaysOnPowerLoss_fixed (s : State) : Fixes s (execAlwaysOnPowerLoss s) := by
  unfold execAlwaysOnPowerLoss
  (try dsimp only)
  (repeat' split) <;> simp [Fixes]

theorem execPowerOn_fixed (s : State) : Fixes s (execPowerOn s) := by
  unfold execPowerOn
  (try dsimp only)
  (repeat' split) <;> simp [Fixes]

@[simp] theorem State.reply_fixed (p : MgmtPort) (bs : List Byte) (s : State) : (State.reply p bs s).fixed = s.fixed := by simp [State.reply]

@[simp] theorem State.mctp_fixed (p : MgmtPort) (cmd : Byte) (k : State → State × List Byte) (s : State) (hk : ∀ s, (k s).1.fixed = s.fixed) :
    (State.mctp p cmd k s).fixed = s.fixed := by simp [State.mctp, hk]

theorem execSetEndpointId_fixed (port : MgmtPort) (eid : Byte) (s : State) : Fixes s (execSetEndpointId port eid s) := by
  unfold execSetEndpointId
  (try dsimp only)
  (repeat' split) <;> simp [Fixes]

theorem execGetEndpointId_fixed (port : MgmtPort) (s : State) : Fixes s (execGetEndpointId port s) := by
  unfold execGetEndpointId
  simp [Fixes]

theorem execGetEndpointUuid_fixed (port : MgmtPort) (s : State) : Fixes s (execGetEndpointUuid port s) := by
  unfold execGetEndpointUuid
  simp [Fixes]

theorem execGetMctpVersionSupport_fixed (port : MgmtPort) (msgType : Byte) (s : State) :
    Fixes s (execGetMctpVersionSupport port msgType s) := by
  unfold execGetMctpVersionSupport
  (repeat' split) <;> simp [Fixes]

theorem execGetMessageTypeSupport_fixed (port : MgmtPort) (s : State) : Fixes s (execGetMessageTypeSupport port s) := by
  unfold execGetMessageTypeSupport
  simp [Fixes]

@[simp] theorem State.pldm_fixed (p : MgmtPort) (type cmd : Byte) (early : State → Bool) (k : State → State × List Byte) (s : State) (hk : ∀ s, (k s).1.fixed = s.fixed) :
    (State.pldm p type cmd early k s).fixed = s.fixed := by simp [State.pldm, hk]

theorem execGetTid_fixed (port : MgmtPort) (s : State) : Fixes s (execGetTid port s) := by
  unfold execGetTid
  simp [Fixes]

theorem execSetTid_fixed (port : MgmtPort) (tid : Byte) (s : State) : Fixes s (execSetTid port tid s) := by
  unfold execSetTid
  (try dsimp only)
  (repeat' split) <;> simp [Fixes]

theorem execGetPldmVersion_fixed (port : MgmtPort) (type : Byte) (s : State) : Fixes s (execGetPldmVersion port type s) := by
  unfold execGetPldmVersion
  (repeat' split) <;> simp [Fixes]

theorem execGetPldmTypes_fixed (port : MgmtPort) (s : State) : Fixes s (execGetPldmTypes port s) := by
  unfold execGetPldmTypes
  simp [Fixes]

theorem execGetPldmCommands_fixed (port : MgmtPort) (type : Byte) (s : State) : Fixes s (execGetPldmCommands port type s) := by
  unfold execGetPldmCommands
  (repeat' split) <;> simp [Fixes]

theorem execGetSensorReading_fixed (port : MgmtPort) (sensor : BitVec 16) (s : State) :
    Fixes s (execGetSensorReading port sensor s) := by
  unfold execGetSensorReading
  simp [Fixes]

theorem execGetStateSensorReadings_fixed (port : MgmtPort) (sensor : BitVec 16) (s : State) :
    Fixes s (execGetStateSensorReadings port sensor s) := by
  unfold execGetStateSensorReadings
  (repeat' split) <;> simp [Fixes]

theorem execSetNumericEffecterValue_fixed (port : MgmtPort) (effecter : BitVec 16) (value : BitVec 32) (s : State) : Fixes s (execSetNumericEffecterValue port effecter value s) := by
  refine State.pldm_fixed _ _ _ _ _ _ (fun s => ?_)
  dsimp only
  split
  · rfl
  · split <;> simp

theorem execGetNumericEffecterValue_fixed (port : MgmtPort) (effecter : BitVec 16) (s : State) :
    Fixes s (execGetNumericEffecterValue port effecter s) := by
  unfold execGetNumericEffecterValue
  (repeat' split) <;> simp [Fixes]

@[simp] theorem State.askStart_fixed (s : State) : (State.askStart s).fixed = s.fixed := by simp [State.askStart]

theorem execGetStateEffecterStates_fixed (port : MgmtPort) (effecter : BitVec 16) (s : State) :
    Fixes s (execGetStateEffecterStates port effecter s) := by
  unfold execGetStateEffecterStates
  (try dsimp only)
  (repeat' split) <;> simp [Fixes]

theorem execGetPdrRepositoryInfo_fixed (port : MgmtPort) (s : State) : Fixes s (execGetPdrRepositoryInfo port s) := by
  unfold execGetPdrRepositoryInfo
  simp [Fixes]

theorem execGetPdr_fixed (port : MgmtPort) (handle : BitVec 32) (s : State) : Fixes s (execGetPdr port handle s) := by
  unfold execGetPdr
  (try dsimp only)
  (repeat' split) <;> simp [Fixes]

theorem execSetEventReceiver_fixed (port : MgmtPort) (enable : Bool) (s : State) : Fixes s (execSetEventReceiver port enable s) := by
  unfold execSetEventReceiver
  (try dsimp only)
  (repeat' split) <;> simp [Fixes]

theorem execEventMessageSupported_fixed (port : MgmtPort) (s : State) : Fixes s (execEventMessageSupported port s) := by
  unfold execEventMessageSupported
  simp [Fixes]

theorem execEventMessageBufferSize_fixed (port : MgmtPort) (size : BitVec 16) (s : State) :
    Fixes s (execEventMessageBufferSize port size s) := by
  unfold execEventMessageBufferSize
  (try dsimp only)
  simp [Fixes]

@[simp] theorem State.ackEvent_fixed (id : Nat) (s : State) : (State.ackEvent id s).fixed = s.fixed := by simp [State.ackEvent]

theorem execPollForPlatformEventMessage_fixed (port : MgmtPort) (ack : BitVec 16) (s : State) :
    Fixes s (execPollForPlatformEventMessage port ack s) := by
  unfold execPollForPlatformEventMessage
  (try dsimp only)
  simp [Fixes]

end Sys2Proof.Machine
end

