-- ==== Sys2Proof/Laws/FixedRows.lean ====
section
/-! SUPPORT. More of what leaves the queue and the fuses alone: see Laws/Fixed.lean. -/

namespace Sys2Proof.Machine

theorem execI3cSetdasa_fixed (static address : BitVec 7) (s : State) : Fixes s (execI3cSetdasa static address s) := by
  unfold execI3cSetdasa
  (try dsimp only)
  (repeat' split) <;> simp [Fixes]

theorem execI3cEntdaa_fixed (address : BitVec 7) (s : State) : Fixes s (execI3cEntdaa address s) := by
  unfold execI3cEntdaa
  (try dsimp only)
  (repeat' split) <;> simp [Fixes]

theorem execI3cGetstatus_fixed (s : State) : Fixes s (execI3cGetstatus s) := by
  unfold execI3cGetstatus
  (try dsimp only)
  (repeat' split) <;> simp [Fixes]

@[simp] theorem State.modTap_fixed (f : Tap → Tap) (s : State) : (State.modTap f s).fixed = s.fixed := by simp [State.modTap]

@[simp] theorem State.tdo_fixed (bs : List Byte) (s : State) : (State.tdo bs s).fixed = s.fixed := by simp [State.tdo]

theorem execTapReset_fixed (trst : Bool) (s : State) : Fixes s (execTapReset trst s) := by
  unfold execTapReset
  (try dsimp only)
  (repeat' split) <;> simp [Fixes]

@[simp] theorem State.bypassShift_fixed (tdi : Bool) (drive : Nat) (s : State) : (State.bypassShift tdi drive s).fixed = s.fixed := by simp [State.bypassShift]

theorem execBypass_fixed (tdi : Bool) (s : State) : Fixes s (execBypass tdi s) := by
  unfold execBypass
  simp [Fixes]

theorem execIdcode_fixed (s : State) : Fixes s (execIdcode s) := by
  unfold execIdcode
  simp [Fixes]

theorem execSamplePreload_fixed (pins cells : BitVec 58) (s : State) : Fixes s (execSamplePreload pins cells s) := by
  unfold execSamplePreload
  simp [Fixes]

@[simp] theorem State.scanDrive_fixed (code drive : Nat) (pins cells : BitVec 58) (s : State) :
    (State.scanDrive code drive pins cells s).fixed = s.fixed := by simp [State.scanDrive]

theorem execExtest_fixed (pins cells : BitVec 58) (s : State) : Fixes s (execExtest pins cells s) := by
  unfold execExtest
  simp [Fixes]

theorem execExtestPulse_fixed (pins cells : BitVec 58) (s : State) : Fixes s (execExtestPulse pins cells s) := by
  unfold execExtestPulse
  simp [Fixes]

theorem execExtestTrain_fixed (pins cells : BitVec 58) (s : State) : Fixes s (execExtestTrain pins cells s) := by
  unfold execExtestTrain
  simp [Fixes]

theorem execClamp_fixed (s : State) : Fixes s (execClamp s) := by
  unfold execClamp
  (repeat' split) <;> simp [Fixes]

theorem execHighz_fixed (s : State) : Fixes s (execHighz s) := by
  unfold execHighz
  (repeat' split) <;> simp [Fixes]

theorem execPerstAssert_fixed (s : State) : Fixes s (execPerstAssert s) := by
  unfold execPerstAssert
  (try dsimp only)
  (repeat' split) <;> simp [Fixes]

theorem execPerstDeassert_fixed (s : State) : Fixes s (execPerstDeassert s) := by
  unfold execPerstDeassert
  (try dsimp only)
  (repeat' split) <;> simp [Fixes]

@[simp] theorem State.flushMsix_fixed (f : Nat) (s : State) : (State.flushMsix f s).fixed = s.fixed := by simp [State.flushMsix]

@[simp] theorem State.cfgWrite_fixed (f off : Nat) (v : BitVec 32) (s : State) : (State.cfgWrite f off v s).fixed = s.fixed := by
  unfold State.cfgWrite
  (try dsimp only)
  (repeat' split) <;> simp

theorem execConfigRequest_fixed (func : Fin 17) (write : Bool) (off : BitVec 12) (v : BitVec 32) (s : State) :
    Fixes s (execConfigRequest func write off v s) := by
  unfold execConfigRequest
  (try dsimp only)
  (repeat' split) <;> simp [Fixes]

@[simp] theorem State.setUpd_fixed (u : Option Update) (s : State) : (State.setUpd u s).fixed = s.fixed := by simp [State.setUpd]

@[simp] theorem State.fw_fixed (p : MgmtPort) (cmd : Byte) (k : State → State × List Byte) (s : State) (hk : ∀ s, (k s).1.fixed = s.fixed) :
    (State.fw p cmd k s).fixed = s.fixed := by simp [State.fw, hk]

@[simp] theorem State.inUpdate_fixed (p : MgmtPort) (cmd : Byte) (ok : Update → Bool) (k : Update → State → State × List Byte) (s : State) (hk : ∀ c s, (k c s).1.fixed = s.fixed) : (State.inUpdate p cmd ok k s).fixed = s.fixed := by
  refine State.fw_fixed _ _ _ _ (fun s => ?_)
  split
  · rfl
  · split
    · exact hk _ _
    · rfl

theorem execQueryDeviceIdentifiers_fixed (port : MgmtPort) (s : State) : Fixes s (execQueryDeviceIdentifiers port s) := by
  unfold execQueryDeviceIdentifiers
  simp [Fixes]

theorem execGetFirmwareParameters_fixed (port : MgmtPort) (s : State) : Fixes s (execGetFirmwareParameters port s) := by
  unfold execGetFirmwareParameters
  (try dsimp only)
  simp [Fixes]

theorem execRequestUpdate_fixed (port : MgmtPort) (s : State) : Fixes s (execRequestUpdate port s) := by
  refine State.fw_fixed _ _ _ _ (fun s => ?_)
  split
  · rfl
  · split <;> simp

theorem execPassComponentTable_fixed (port : MgmtPort) (ident : BitVec 16) (s : State) :
    Fixes s (execPassComponentTable port ident s) := by
  unfold execPassComponentTable
  (repeat' split) <;> simp [Fixes]

theorem execUpdateComponent_fixed (port : MgmtPort) (ident : BitVec 16) (s : State) : Fixes s (execUpdateComponent port ident s) := by
  unfold execUpdateComponent
  (repeat' split) <;> simp [Fixes]

theorem execRequestFirmwareData_fixed (port : MgmtPort) (data : List Byte) (s : State) :
    Fixes s (execRequestFirmwareData port data s) := by
  unfold execRequestFirmwareData
  (try dsimp only)
  (repeat' split) <;> simp [Fixes]

@[simp] theorem State.fwTell_fixed (port : MgmtPort) (cmd : Byte) (ok : Update → Bool) (k : Update → State → State × List Byte) (s : State) (hk : ∀ c s, (k c s).1.fixed = s.fixed) :
    (State.fwTell port cmd ok k s).fixed = s.fixed := by
  unfold State.fwTell
  (repeat' split) <;> simp [hk]

theorem execTransferComplete_fixed (port : MgmtPort) (s : State) : Fixes s (execTransferComplete port s) := by
  unfold execTransferComplete
  simp [Fixes]

theorem execVerifyComplete_fixed (port : MgmtPort) (s : State) : Fixes s (execVerifyComplete port s) := by
  unfold execVerifyComplete
  (try dsimp only)
  simp [Fixes]

theorem execApplyComplete_fixed (port : MgmtPort) (s : State) : Fixes s (execApplyComplete port s) := by
  unfold execApplyComplete
  simp [Fixes]

@[simp] theorem State.endUpdate_fixed (s : State) : (State.endUpdate s).fixed = s.fixed := by simp [State.endUpdate]

theorem execGetStatus_fixed (port : MgmtPort) (s : State) : Fixes s (execGetStatus port s) := by
  unfold execGetStatus
  simp [Fixes]

@[simp] theorem State.dropTransfer_fixed (u : Update) (s : State) : (State.dropTransfer u s).fixed = s.fixed := by
  unfold State.dropTransfer
  (try dsimp only)
  (repeat' split) <;> simp

theorem execCancelUpdateComponent_fixed (port : MgmtPort) (s : State) : Fixes s (execCancelUpdateComponent port s) := by
  unfold execCancelUpdateComponent
  simp [Fixes]

theorem execCancelUpdate_fixed (port : MgmtPort) (s : State) : Fixes s (execCancelUpdate port s) := by
  unfold execCancelUpdate
  simp [Fixes]

@[simp] theorem State.spdm_fixed (p : MgmtPort) (k : State → State × List Byte) (s : State) (hk : ∀ s, (k s).1.fixed = s.fixed) :
    (State.spdm p k s).fixed = s.fixed := by simp [State.spdm, hk]

@[simp] theorem State.setLevel_fixed (p : MgmtPort) (n : Nat) (s : State) : (State.setLevel p n s).fixed = s.fixed := by simp [State.setLevel]

@[simp] theorem State.spdmAt_fixed (p : MgmtPort) (level : Nat) (k : State → State × List Byte) (s : State) (hk : ∀ s, (k s).1.fixed = s.fixed) : (State.spdmAt p level k s).fixed = s.fixed := by
  refine State.spdm_fixed _ _ _ (fun s => ?_)
  split
  · rfl
  · exact hk _

theorem execGetVersion_fixed (port : MgmtPort) (s : State) : Fixes s (execGetVersion port s) := by
  unfold execGetVersion
  simp [Fixes]

theorem execGetCapabilities_fixed (port : MgmtPort) (s : State) : Fixes s (execGetCapabilities port s) := by
  unfold execGetCapabilities
  simp [Fixes]

theorem execNegotiateAlgorithms_fixed (port : MgmtPort) (fit : Bool) (s : State) : Fixes s (execNegotiateAlgorithms port fit s) := by
  unfold execNegotiateAlgorithms
  (repeat' split) <;> simp [Fixes]

theorem execGetDigests_fixed (port : MgmtPort) (s : State) : Fixes s (execGetDigests port s) := by
  unfold execGetDigests
  simp [Fixes]

theorem execGetCertificate_fixed (port : MgmtPort) (slot : Byte) (off len : BitVec 16) (s : State) :
    Fixes s (execGetCertificate port slot off len s) := by
  unfold execGetCertificate
  (repeat' split) <;> simp [Fixes]

theorem execChallenge_fixed (port : MgmtPort) (slot : Byte) (s : State) : Fixes s (execChallenge port slot s) := by
  unfold execChallenge
  (repeat' split) <;> simp [Fixes]

theorem execGetMeasurements_fixed (port : MgmtPort) (index : Byte) (signature : Bool) (s : State) : Fixes s (execGetMeasurements port index signature s) := by
  refine State.spdmAt_fixed _ _ _ _ (fun s => ?_)
  dsimp only
  split
  · rfl
  · split <;> simp

@[simp] theorem State.setSession_fixed (p : MgmtPort) (id : Byte) (new : Option Session) (s : State) :
    (State.setSession p id new s).fixed = s.fixed := by simp [State.setSession]

theorem execKeyExchange_fixed (port : MgmtPort) (s : State) : Fixes s (execKeyExchange port s) := by
  refine State.spdmAt_fixed _ _ _ _ (fun s => ?_)
  split <;> simp

theorem execFinish_fixed (port : MgmtPort) (id : Byte) (ok : Bool) (s : State) : Fixes s (execFinish port id ok s) := by
  refine State.spdmAt_fixed _ _ _ _ (fun s => ?_)
  split
  · split
    · rfl
    · split <;> simp
  · rfl

@[simp] theorem State.inSession_fixed (p : MgmtPort) (id : Byte) (k : Session → State → State × List Byte) (s : State) (hk : ∀ c s, (k c s).1.fixed = s.fixed) : (State.inSession p id k s).fixed = s.fixed := by
  refine State.spdmAt_fixed _ _ _ _ (fun s => ?_)
  split
  · split
    · exact hk _ _
    · rfl
  · rfl

theorem execHeartbeat_fixed (port : MgmtPort) (id : Byte) (s : State) : Fixes s (execHeartbeat port id s) := by
  unfold execHeartbeat
  simp [Fixes]

theorem execKeyUpdate_fixed (port : MgmtPort) (id : Byte) (s : State) : Fixes s (execKeyUpdate port id s) := by
  unfold execKeyUpdate
  simp [Fixes]

theorem execEndSession_fixed (port : MgmtPort) (id : Byte) (s : State) : Fixes s (execEndSession port id s) := by
  unfold execEndSession
  simp [Fixes]

theorem execVendorDefinedRequest_fixed (port : MgmtPort) (id : Byte) (func : Fin 17) (op : Fin 3) (s : State) : Fixes s (execVendorDefinedRequest port id func op s) := by
  unfold execVendorDefinedRequest
  dsimp only
  split
  · exact State.spdm_fixed _ _ _ (fun s => rfl)
  · refine State.inSession_fixed _ _ _ _ (fun c s => ?_)
    split
    · simp
    · split
      · split <;> simp
      · simp

@[simp] theorem State.countIssue_fixed (g : Nat) (ecc : TileEcc) (b : List Byte) (s : State) :
    (State.countIssue g ecc b s).fixed = s.fixed := by simp [State.countIssue]

@[simp] theorem State.dropEntry_fixed (g : Nat) (e : Option (Bool × Nat)) (b : List Byte) (s : State) :
    (State.dropEntry g e b s).fixed = s.fixed := by
  unfold State.dropEntry
  (try dsimp only)
  (repeat' split) <;> simp

@[simp] theorem State.raiseAsync_fixed (g : Nat) (e : Option (Bool × Nat)) (b : List Byte) (s : State) :
    (State.raiseAsync g e b s).fixed = s.fixed := by
  unfold State.raiseAsync
  (try dsimp only)
  (repeat' split) <;> simp

@[simp] theorem State.settleHead_fixed (g n : Nat) (s : State) : (State.settleHead g n s).fixed = s.fixed := by simp [State.settleHead]

@[simp] theorem State.issueL_fixed (g w : Nat) (s : State) : (State.issueL g w s).fixed = s.fixed := by simp [State.issueL]

@[simp] theorem State.issueD_fixed (g w : Nat) (s : State) : (State.issueD g w s).fixed = s.fixed := by simp [State.issueD]

@[simp] theorem State.issueV_fixed (g w : Nat) (s : State) : (State.issueV g w s).fixed = s.fixed := by simp [State.issueV]

@[simp] theorem State.issueQ_fixed (g w : Nat) (s : State) : (State.issueQ g w s).fixed = s.fixed := by
  unfold State.issueQ
  (try dsimp only)
  (repeat' split) <;> simp

@[simp] theorem State.issueB_fixed (g : Nat) (on : Bool) (w : Nat) (target : Option Nat) (s : State) :
    (State.issueB g on w target s).fixed = s.fixed := by
  unfold State.issueB
  (try dsimp only)
  (repeat' split) <;> simp

@[simp] theorem State.bundleEffects_fixed (g dep mem other : Nat) (b : List Byte) (rest : Option Nat) (s : State) :
    (State.bundleEffects g dep mem other b rest s).fixed = s.fixed := by simp [State.bundleEffects]

@[simp] theorem State.afterIssue_fixed (g : Nat) (on : Bool) (b : List Byte) (after : AfterCancel) (s : State) :
    (State.afterIssue g on b after s).fixed = s.fixed := by simp [State.afterIssue]

theorem State.tryIssue_fixed (g dep mem other : Nat) (ecc : TileEcc) (s : State) : ∀ t, (State.tryIssue g dep mem other ecc s) = some t → t.fixed = s.fixed := by
  intro t ht
  unfold State.tryIssue at ht
  dsimp only at ht
  split at ht
  · cases ht
  · split at ht
    · cases ht
      simp
    · generalize hs : (if s.atBreakpoint g = true then s.logRefused (Reg.TILE_DBG_BP_BP0 g).off 0 (s.get (Reg.TILE_STATE_BA g)) else s) = s' at ht
      have h' : s'.fixed = s.fixed := by
        rw [← hs]
        split <;> simp
      rw [← h']
      have gate : ∀ r b, QOut.Fixes s' (if (s'.tile g).wait.phase = .released then QOut.go r else s'.qGate g b) := by
        intro r b
        split
        · exact True.intro
        · exact State.qGate_fixed _ _ _
      split at ht
      · cases ht
        simp
      · split at ht
        · cases ht
          simp
        · rw [show ∀ (c : Prop) [Decidable c] (o : Option State), ((if c then none else o) = some t) = (¬c ∧ o = some t) from
            fun c _ o => by by_cases h : c <;> simp [h]] at ht
          replace ht := ht.2
          generalize s'.bundleFault g ecc (s'.fetched g) = fault at ht
          split at ht
          · rename_i _ s1 hq
            have h1 := QOut.fixed_of_held (gate _ _) hq
            split at ht
            · cases ht
              exact h1
            · cases ht
              rw [State.raiseExc_fixed]
              split <;> simp
          · cases ht
            rw [State.raiseExc_fixed]
            split <;> simp
          · rename_i s1 hq
            cases ht
            exact QOut.fixed_of_held (gate _ _) hq
          · cases ht
            rw [State.raiseAsync_fixed, State.afterIssue_fixed, State.bundleEffects_fixed]
            split
            · split <;> simp
            · simp

@[simp] theorem State.setTwinHash_fixed (g v : Nat) (s : State) : (State.setTwinHash g v s).fixed = s.fixed := by simp [State.setTwinHash]

@[simp] theorem State.twinFault_fixed (w : Twin) (divergence : Nat) (s : State) :
    (State.twinFault w divergence s).fixed = s.fixed := by
  unfold State.twinFault
  (try dsimp only)
  (repeat' split) <;> simp

@[simp] theorem State.pairIssue_fixed (w : Twin) (dep mem other : Nat) (ecc : Nat → TileEcc) (s : State) : (State.pairIssue w dep mem other ecc s).fixed = s.fixed := by
  unfold State.pairIssue
  dsimp only
  split
  · rename_i sp sq hp hq
    have h1 := State.tryIssue_fixed _ _ _ _ _ _ _ hp
    have h2 := State.tryIssue_fixed _ _ _ _ _ _ _ hq
    have h3 : ((sp.tryIssue w.shadow dep mem other (ecc w.shadow)).getD s).fixed = s.fixed := by
      cases h : sp.tryIssue w.shadow dep mem other (ecc w.shadow) with
      | none => rfl
      | some t => exact (State.tryIssue_fixed _ _ _ _ _ _ _ h).trans h1
    generalize (sp.tryIssue w.shadow dep mem other (ecc w.shadow)).getD s = u at h3
    simp only [ite_fixed, State.setRun_fixed, State.recordFault_fixed, State.twinFault_fixed, h1, h2, h3, ite_self]
  · rfl

theorem execBundleIssue_fixed (tile : Fin 64) (dep mem other : Nat) (ecc : TileEcc) (s : State) : Fixes s (execBundleIssue tile dep mem other ecc s) := by
  unfold execBundleIssue
  dsimp only
  split
  · cases h : s.tryIssue tile.val dep mem other ecc with
    | none => rfl
    | some t => exact State.tryIssue_fixed _ _ _ _ _ _ _ h
  · exact State.pairIssue_fixed _ _ _ _ _ _

@[simp] theorem State.twinPass_fixed (w : Twin) (s : State) : (State.twinPass w s).fixed = s.fixed := by simp [State.twinPass]

theorem execTwinCompare_fixed (tile : Fin 64) (equal : Bool) (s : State) : Fixes s (execTwinCompare tile equal s) := by
  unfold execTwinCompare
  (try dsimp only)
  (repeat' split) <;> simp [Fixes]

@[simp] theorem State.drainHead_fixed (g : Nat) (ecc : Secded) (s : State) : (State.drainHead g ecc s).fixed = s.fixed := by
  unfold State.drainHead
  (try dsimp only)
  (repeat' split) <;> simp

theorem execStoreBufferDrain_fixed (tile : Fin 64) (ecc : Secded) (s : State) : Fixes s (execStoreBufferDrain tile ecc s) := by
  unfold execStoreBufferDrain
  (repeat' split) <;> simp [Fixes]

theorem execCorePortRescue_fixed (tile : Fin 64) (ecc : Secded) (s : State) : Fixes s (execCorePortRescue tile ecc s) := by
  unfold execCorePortRescue
  (repeat' split) <;> simp [Fixes]

theorem execHaltComplete_fixed (tile : Fin 64) (s : State) : Fixes s (execHaltComplete tile s) := by
  unfold execHaltComplete
  (try dsimp only)
  (repeat' split) <;> simp [Fixes]

@[simp] theorem State.debugRow_fixed (g off v : Nat) (stops : Bool) (act : State → State) (s : State) (hact : ∀ s, (act s).fixed = s.fixed) :
    (State.debugRow g off v stops act s).fixed = s.fixed := by simp [State.debugRow, hact]

theorem execTileDbgHalt_fixed (tile : Fin 64) (s : State) : Fixes s (execTileDbgHalt tile s) := by
  unfold execTileDbgHalt
  simp [Fixes]

theorem execTileDbgResume_fixed (tile : Fin 64) (s : State) : Fixes s (execTileDbgResume tile s) := by
  unfold execTileDbgResume
  simp [Fixes]

theorem execTileDbgStep_fixed (tile : Fin 64) (s : State) : Fixes s (execTileDbgStep tile s) := by
  unfold execTileDbgStep
  simp [Fixes]

@[simp] theorem State.dbgAdvance_fixed (g : Nat) (s : State) : (State.dbgAdvance g s).fixed = s.fixed := by simp [State.dbgAdvance]

@[simp] theorem State.dbgData_fixed (g : Nat) (write : Bool) (part : Part) (v : Word) (s : State) :
    (State.dbgData g write part v s).fixed = s.fixed := by simp [State.dbgData]

theorem execTileDbgDataAccess_fixed (tile : Fin 64) (write : Bool) (part : Part) (v : Word) (s : State) :
    Fixes s (execTileDbgDataAccess tile write part v s) := by
  unfold execTileDbgDataAccess
  simp [Fixes]

@[simp] theorem State.writeMsix_fixed (f k : Nat) (part : Part) (v : Word) (s : State) :
    (State.writeMsix f k part v s).fixed = s.fixed := by simp [State.writeMsix]

@[simp] theorem State.writeDbgCtl_fixed (g : Nat) (part : Part) (v : Word) (s : State) :
    (State.writeDbgCtl g part v s).fixed = s.fixed := by simp [State.writeDbgCtl]

theorem fixes_ite {s : State} {c : Prop} [Decidable c] {a b : Option State} (ha : ∀ t, a = some t → t.fixed = s.fixed)
    (hb : ∀ t, b = some t → t.fixed = s.fixed) : ∀ t, (if c then a else b) = some t → t.fixed = s.fixed := by
  split <;> assumption
theorem fixes_some {s x : State} (h : x.fixed = s.fixed) : ∀ t, some x = some t → t.fixed = s.fixed := by
  intro t ht
  cases ht
  exact h
theorem fixes_none {s : State} : ∀ t : State, none = some t → t.fixed = s.fixed :=
  fun _ h => by simp at h
@[simp] theorem State.writePqVal_fixed (func q : Nat) (part : Part) (v : Word) (s : State) :
    (s.writePqVal func q part v).fixed = s.fixed := by simp [State.writePqVal]

@[simp] theorem State.writePqSet_fixed (func q : Nat) (part : Part) (v : Word) (s : State) :
    (State.writePqSet func q part v s).fixed = s.fixed := by simp [State.writePqSet]

@[simp] theorem State.recount_fixed (f r : Nat) (s : State) : (State.recount f r s).fixed = s.fixed := by simp [State.recount]

@[simp] theorem State.plainWrite_fixed (func off : Nat) (r : RegRow) (i j : Nat) (part : Part) (v : Word) (s : State) :
    (State.plainWrite func off r i j part v s).fixed = s.fixed := by simp [State.plainWrite]

theorem State.writePower_fixed (func b i : Nat) (part : Part) (v : Word) (s : State) :
    ∀ t, (State.writePower func b i part v s) = some t → t.fixed = s.fixed := by
  unfold State.writePower
  (repeat' split) <;> simp

theorem State.writeTenancy_fixed (func b i j : Nat) (part : Part) (v : Word) (s : State) : ∀ t, (State.writeTenancy func b i j part v s) = some t → t.fixed = s.fixed := by
  unfold State.writeTenancy
  dsimp only
  repeat' first
    | exact fixes_none
    | refine fixes_some ?_
    | refine fixes_ite ?_ ?_
  all_goals first | (simp; done) | exact State.debugRow_fixed _ _ _ _ _ _ (fun s => by simp)

@[simp] theorem State.hostWake_fixed (s : State) : (State.hostWake s).fixed = s.fixed := by simp [State.hostWake]

@[simp] theorem State.busGet_fixed (func off : Nat) (s : State) : (State.busGet func off s).2.fixed = s.fixed := by
  unfold State.busGet
  (try dsimp only)
  (repeat' split) <;> simp

@[simp] theorem State.dropWrite_fixed (func off v : Nat) (s : State) : (State.dropWrite func off v s).fixed = s.fixed := by simp [State.dropWrite]

@[simp] theorem State.wideRead_fixed (func off n : Nat) (s : State) : (State.wideRead func off n s).2.fixed = s.fixed := by
  induction n generalizing off s with
  | zero => rfl
  | succ n ih =>
    unfold State.wideRead
    dsimp only
    rw [ih]
    simp

@[simp] theorem State.judgeGroup_fixed (g : ThermalGroup) (s : State) : (State.judgeGroup g s).fixed = s.fixed := by simp [State.judgeGroup]

@[simp] theorem State.dieCritical_fixed (d : Nat) (g : ThermalGroup) (s : State) : (State.dieCritical d g s).fixed = s.fixed := by simp [State.dieCritical]

@[simp] theorem State.vxPop_fixed (g : Nat) (s : State) : (State.vxPop g s).fixed = s.fixed := by simp [State.vxPop]

@[simp] theorem State.vxCount_fixed (g lanes : Nat) (r : VxRun) (s : State) : (State.vxCount g lanes r s).fixed = s.fixed := by simp [State.vxCount]

theorem execVectorOpRun_fixed (tile : Fin 64) (err : EngErr) (s : State) : Fixes s (execVectorOpRun tile err s) := by
  unfold execVectorOpRun
  (try dsimp only)
  (repeat' split) <;> simp [Fixes]

end Sys2Proof.Machine
end

