-- ==== Sys2Proof/Laws/Burns.lean ====
section
/-! SUPPORT. Fuses only burn: whatever the block does, a blown bit stays blown, and no command's effect touches the queue. -/

namespace Sys2Proof.Machine

def fuseAt (v : Vector Word 64) (i : Nat) : Nat := ((v[i]?).getD 0).toNat
def Burns (a b : List Instr × Vector Word 64) : Prop :=
  b.1 = a.1 ∧ ∀ i n, bitAt (fuseAt a.2 i) n = true → bitAt (fuseAt b.2 i) n = true
def BurnsRes (s : State) : Res → Prop
  | .next t => Burns s.fixed t.fixed
  | _ => True
@[simp] theorem burnsRes_next (s t : State) : BurnsRes s (.next t) = Burns s.fixed t.fixed := rfl
theorem burnsRes_ite (s : State) (c : Prop) [Decidable c] (a b : Res) (ha : BurnsRes s a) (hb : BurnsRes s b) :
    BurnsRes s (if c then a else b) := by split <;> assumption
@[simp] theorem Burns.refl (a : List Instr × Vector Word 64) : Burns a a := ⟨rfl, fun _ _ h => h⟩
theorem Burns.trans {a b c : List Instr × Vector Word 64} (h : Burns a b) (k : Burns b c) : Burns a c :=
  ⟨k.1.trans h.1, fun i n hi => k.2 i n (h.2 i n hi)⟩
theorem foldl_burns {α : Type} {a : List Instr × Vector Word 64} (l : List α) (f : State → α → State)
    (h : ∀ s x, Burns a s.fixed → Burns a (f s x).fixed) (s : State) (hs : Burns a s.fixed) : Burns a (l.foldl f s).fixed := by
  induction l generalizing s with
  | nil => exact hs
  | cons x l ih => exact ih _ (h _ _ hs)

theorem State.pldm_burns {a : List Instr × Vector Word 64} (p : MgmtPort) (type cmd : Byte) (early : State → Bool) (k : State → State × List Byte)
    (s : State) (ha : Burns a s.fixed) (hk : ∀ s, Burns a s.fixed → Burns a (k s).1.fixed) : Burns a (s.pldm p type cmd early k).fixed := by
  unfold State.pldm
  split
  · exact ha
  · split
    · simpa using ha
    · rw [State.reply_fixed]
      exact hk _ (by simpa using ha)
theorem State.fw_burns {a : List Instr × Vector Word 64} (p : MgmtPort) (cmd : Byte) (k : State → State × List Byte)
    (s : State) (ha : Burns a s.fixed) (hk : ∀ s, Burns a s.fixed → Burns a (k s).1.fixed) : Burns a (s.fw p cmd k).fixed :=
  State.pldm_burns _ _ _ _ _ _ ha hk
theorem State.inUpdate_burns {a : List Instr × Vector Word 64} (p : MgmtPort) (cmd : Byte) (ok : Update → Bool) (k : Update → State → State × List Byte)
    (s : State) (ha : Burns a s.fixed) (hk : ∀ u s, Burns a s.fixed → Burns a (k u s).1.fixed) : Burns a (s.inUpdate p cmd ok k).fixed := by
  refine State.fw_burns _ _ _ _ ha (fun s h => ?_)
  split
  · exact h
  · split
    · exact hk _ _ h
    · exact h
theorem burns_ite {a : List Instr × Vector Word 64} {c : Prop} [Decidable c] {x y : Option State} (hx : ∀ t, x = some t → Burns a t.fixed)
    (hy : ∀ t, y = some t → Burns a t.fixed) : ∀ t, (if c then x else y) = some t → Burns a t.fixed := by
  split <;> assumption
theorem burns_some {a : List Instr × Vector Word 64} {x : State} (h : Burns a x.fixed) : ∀ t, some x = some t → Burns a t.fixed := by
  intro t ht
  cases ht
  exact h
theorem orElse_some {α : Type} {o : Option α} {f : Unit → Option α} {t : α} (h : o.orElse f = some t) : o = some t ∨ f () = some t := by
  cases o with
  | none => exact Or.inr h
  | some x => exact Or.inl h
theorem burns_none {a : List Instr × Vector Word 64} : ∀ t : State, none = some t → Burns a t.fixed := fun _ h => by simp at h
theorem burns_of_fixes {a : List Instr × Vector Word 64} {s : State} {o : Option State} (ha : Burns a s.fixed) (h : ∀ t, o = some t → t.fixed = s.fixed) :
    ∀ t, o = some t → Burns a t.fixed := fun t ht => by rw [h t ht]; exact ha
theorem bitAt_eq_testBit (x i : Nat) : bitAt x i = x.testBit i := by
  simp only [bitAt, Nat.testBit_eq_decide_div_mod_eq]
  by_cases h : x / 2 ^ i % 2 = 1 <;> simp [h]
theorem State.blowBit_burns {a : List Instr × Vector Word 64} (i : Nat) (s : State) (ha : Burns a s.fixed) : Burns a (s.blowBit i).fixed := by
  refine Burns.trans ha ⟨rfl, fun j n h => ?_⟩
  change bitAt (fuseAt (s.fuses.setIfInBounds _ _) j) n = true
  change bitAt (fuseAt s.fuses j) n = true at h
  simp only [bitAt_eq_testBit, fuseAt, State.fuse, Vector.getElem?_setIfInBounds] at *
  split
  · rename_i hj
    subst hj
    split
    · have hn : n < 64 := by
        refine Nat.lt_of_not_le fun hc => ?_
        rw [Nat.testBit_lt_two_pow (Nat.lt_of_lt_of_le (BitVec.isLt _) (Nat.pow_le_pow_right (by decide) hc))] at h
        cases h
      simp only [Option.getD_some, BitVec.toNat_ofNat, Nat.testBit_mod_two_pow, hn, decide_true, Bool.true_and, Nat.testBit_or, Bool.or_eq_true]
      exact Or.inl h
    · rename_i hj
      simp [Vector.getElem?_eq_none (Nat.le_of_not_lt hj)] at h
  · exact h

theorem State.blowStarted_burns {a : List Instr × Vector Word 64} (s : State) (ha : Burns a s.fixed) : Burns a (State.blowStarted s).fixed := by
  unfold State.blowStarted
  repeat' first
    | (with_reducible first | exact ha | exact True.intro)
    | (simp; done)
    | (with_reducible first | apply State.blowBit_burns)
    | split
    | (with_reducible refine foldl_burns _ _ (fun _ _ _ => ?_) _ ?_)
    | (with_reducible assumption)
    | simp [ha]
    | dsimp only

theorem State.orderlyStop_burns {a : List Instr × Vector Word 64} (cause status : Nat) (record : List Byte) (s : State) (ha : Burns a s.fixed) : Burns a (State.orderlyStop cause status record s).fixed := by
  unfold State.orderlyStop
  repeat' first
    | (with_reducible first | exact ha | exact True.intro)
    | (simp; done)
    | (with_reducible first | apply State.blowStarted_burns)
    | split
    | (with_reducible refine foldl_burns _ _ (fun _ _ _ => ?_) _ ?_)
    | (with_reducible assumption)
    | simp [ha]
    | dsimp only

theorem State.moduleEvent_burns {a : List Instr × Vector Word 64} (e : EvRec) (s : State) (ha : Burns a s.fixed) : Burns a (State.moduleEvent e s).fixed := by
  unfold State.moduleEvent
  repeat' first
    | (with_reducible first | exact ha | exact True.intro)
    | (simp; done)
    | (with_reducible first | apply State.orderlyStop_burns)
    | split
    | (with_reducible refine foldl_burns _ _ (fun _ _ _ => ?_) _ ?_)
    | (with_reducible assumption)
    | simp [ha]
    | dsimp only

theorem State.fabricFault_burns {a : List Instr × Vector Word 64} (net die unit port : Nat) (s : State) (ha : Burns a s.fixed) : Burns a (State.fabricFault net die unit port s).fixed := by
  unfold State.fabricFault
  repeat' first
    | (with_reducible first | exact ha | exact True.intro)
    | (simp; done)
    | (with_reducible first | apply State.moduleEvent_burns)
    | split
    | (with_reducible refine foldl_burns _ _ (fun _ _ _ => ?_) _ ?_)
    | (with_reducible assumption)
    | simp [ha]
    | dsimp only

theorem State.crossOutput_burns {a : List Instr × Vector Word 64} (k port : Nat) (f : Flit) (to' : Loc) (ecc : Secded) (s : State) (ha : Burns a s.fixed) : Burns a (State.crossOutput k port f to' ecc s).fixed := by
  unfold State.crossOutput
  repeat' first
    | (with_reducible first | exact ha | exact True.intro)
    | (simp; done)
    | (with_reducible first | apply State.fabricFault_burns)
    | split
    | (with_reducible refine foldl_burns _ _ (fun _ _ _ => ?_) _ ?_)
    | (with_reducible assumption)
    | simp [ha]
    | dsimp only

theorem State.through_burns {a : List Instr × Vector Word 64} (ds : List Nat) (k l : State → State) (s : State) (ha : Burns a s.fixed)
    (hk : ∀ s, Burns a s.fixed → Burns a (k s).fixed) (hl : ∀ s, (l s).fixed = s.fixed) : Burns a (s.through ds k l).fixed := by
  unfold State.through
  split
  · rw [hl]
    exact ha
  · split
    · refine hk _ ?_
      simpa using ha
    · have h : (ds.foldl (fun s n => if s.domState n = 0 then s else s.wakeDomain n) s).fixed = s.fixed :=
        foldl_fixed _ _ (fun s n => by split <;> simp) s
      rw [h]
      exact ha
theorem State.passFlit_burns {a : List Instr × Vector Word 64} (k port : Nat) (f : Flit) (to' : Loc) (count : State → State) (ecc : Secded) (s : State)
    (ha : Burns a s.fixed) (hcount : ∀ s, (count s).fixed = s.fixed) : Burns a (State.passFlit k port f to' count ecc s).fixed := by
  refine State.through_burns _ _ _ _ ha (fun s h => ?_) (fun s => by simp)
  refine State.crossOutput_burns _ _ _ _ _ _ ?_
  rw [hcount]
  exact h

theorem execFlitForward_burns (k port : Nat) (half : Bool) (waited : Nat) (ecc : Secded) (s : State) : BurnsRes s (execFlitForward k port half waited ecc s) := by
  unfold execFlitForward
  have ha := Burns.refl s.fixed
  repeat' first
    | (with_reducible first | exact ha | exact True.intro)
    | (simp; done)
    | (with_reducible first | apply State.passFlit_burns)
    | (simp only [burnsRes_next]; done)
    | split
    | (with_reducible refine foldl_burns _ _ (fun _ _ _ => ?_) _ ?_)
    | (with_reducible assumption)
    | simp [ha]
    | dsimp only

theorem State.restartNow_burns {a : List Instr × Vector Word 64} (s : State) (ha : Burns a s.fixed) : Burns a (State.restartNow s).fixed := by
  unfold State.restartNow
  repeat' first
    | (with_reducible first | exact ha | exact True.intro)
    | (simp; done)
    | (with_reducible first | apply State.blowStarted_burns)
    | split
    | (with_reducible refine foldl_burns _ _ (fun _ _ _ => ?_) _ ?_)
    | (with_reducible assumption)
    | simp [ha]
    | dsimp only

theorem State.powerOffNow_burns {a : List Instr × Vector Word 64} (s : State) (ha : Burns a s.fixed) : Burns a (State.powerOffNow s).fixed := by
  unfold State.powerOffNow
  repeat' first
    | (with_reducible first | exact ha | exact True.intro)
    | (simp; done)
    | (with_reducible first | apply State.blowStarted_burns)
    | split
    | (with_reducible refine foldl_burns _ _ (fun _ _ _ => ?_) _ ?_)
    | (with_reducible assumption)
    | simp [ha]
    | dsimp only

theorem execIsobarCrcError_burns (k station : Nat) (s : State) : BurnsRes s (execIsobarCrcError k station s) := by
  unfold execIsobarCrcError
  have ha := Burns.refl s.fixed
  repeat' first
    | (with_reducible first | exact ha | exact True.intro)
    | (simp; done)
    | (with_reducible first | apply State.fabricFault_burns)
    | (simp only [burnsRes_next]; done)
    | split
    | (with_reducible refine foldl_burns _ _ (fun _ _ _ => ?_) _ ?_)
    | (with_reducible assumption)
    | simp [ha]
    | dsimp only

theorem State.afterQuiesce_burns {a : List Instr × Vector Word 64} (q : Quiesce) (s : State) (ha : Burns a s.fixed) : Burns a (State.afterQuiesce q s).fixed := by
  unfold State.afterQuiesce
  repeat' first
    | (with_reducible first | exact ha | exact True.intro)
    | (simp; done)
    | (with_reducible first | apply State.powerOffNow_burns | apply State.restartNow_burns)
    | split
    | (with_reducible refine foldl_burns _ _ (fun _ _ _ => ?_) _ ?_)
    | (with_reducible assumption)
    | simp [ha]
    | dsimp only

theorem State.endQuiesce_burns {a : List Instr × Vector Word 64} (q : Quiesce) (us : List Nat) (s : State) (ha : Burns a s.fixed) : Burns a (State.endQuiesce q us s).fixed := by
  unfold State.endQuiesce
  repeat' first
    | (with_reducible first | exact ha | exact True.intro)
    | (simp; done)
    | (with_reducible first | apply State.afterQuiesce_burns)
    | split
    | (with_reducible refine foldl_burns _ _ (fun _ _ _ => ?_) _ ?_)
    | (with_reducible assumption)
    | simp [ha]
    | dsimp only

theorem execQuiesceResetDone_burns (unit : BitVec 8) (s : State) : BurnsRes s (execQuiesceResetDone unit s) := by
  unfold execQuiesceResetDone
  have ha := Burns.refl s.fixed
  repeat' first
    | (with_reducible first | exact ha | exact True.intro)
    | (simp; done)
    | (with_reducible first | apply State.endQuiesce_burns)
    | (simp only [burnsRes_next]; done)
    | split
    | (with_reducible refine foldl_burns _ _ (fun _ _ _ => ?_) _ ?_)
    | (with_reducible assumption)
    | simp [ha]
    | dsimp only

theorem execQuiesceDrainTimeout_burns (unit : BitVec 8) (s : State) : BurnsRes s (execQuiesceDrainTimeout unit s) := by
  unfold execQuiesceDrainTimeout
  have ha := Burns.refl s.fixed
  repeat' first
    | (with_reducible first | exact ha | exact True.intro)
    | (simp; done)
    | (with_reducible first | apply State.endQuiesce_burns)
    | (simp only [burnsRes_next]; done)
    | split
    | (with_reducible refine foldl_burns _ _ (fun _ _ _ => ?_) _ ?_)
    | (with_reducible assumption)
    | simp [ha]
    | dsimp only

theorem State.supplyTrip_burns {a : List Instr × Vector Word 64} (cause vin : Nat) (s : State) (ha : Burns a s.fixed) : Burns a (State.supplyTrip cause vin s).fixed := by
  unfold State.supplyTrip
  repeat' first
    | (with_reducible first | exact ha | exact True.intro)
    | (simp; done)
    | (with_reducible first | apply State.orderlyStop_burns)
    | split
    | (with_reducible refine foldl_burns _ _ (fun _ _ _ => ?_) _ ?_)
    | (with_reducible assumption)
    | simp [ha]
    | dsimp only

theorem execSag_burns (vin : BitVec 16) (s : State) : BurnsRes s (execSag vin s) := by
  unfold execSag
  have ha := Burns.refl s.fixed
  repeat' first
    | (with_reducible first | exact ha | exact True.intro)
    | (simp; done)
    | (with_reducible first | apply State.supplyTrip_burns)
    | (simp only [burnsRes_next]; done)
    | split
    | (with_reducible refine foldl_burns _ _ (fun _ _ _ => ?_) _ ?_)
    | (with_reducible assumption)
    | simp [ha]
    | dsimp only

theorem execOvercurrent_burns (vin : BitVec 16) (s : State) : BurnsRes s (execOvercurrent vin s) := by
  unfold execOvercurrent
  have ha := Burns.refl s.fixed
  repeat' first
    | (with_reducible first | exact ha | exact True.intro)
    | (simp; done)
    | (with_reducible first | apply State.supplyTrip_burns)
    | (simp only [burnsRes_next]; done)
    | split
    | (with_reducible refine foldl_burns _ _ (fun _ _ _ => ?_) _ ?_)
    | (with_reducible assumption)
    | simp [ha]
    | dsimp only

theorem execOvervolt_burns (vin : BitVec 16) (s : State) : BurnsRes s (execOvervolt vin s) := by
  unfold execOvervolt
  have ha := Burns.refl s.fixed
  repeat' first
    | (with_reducible first | exact ha | exact True.intro)
    | (simp; done)
    | (with_reducible first | apply State.supplyTrip_burns)
    | (simp only [burnsRes_next]; done)
    | split
    | (with_reducible refine foldl_burns _ _ (fun _ _ _ => ?_) _ ?_)
    | (with_reducible assumption)
    | simp [ha]
    | dsimp only

theorem execSurgeLong_burns (vin : BitVec 16) (s : State) : BurnsRes s (execSurgeLong vin s) := by
  unfold execSurgeLong
  have ha := Burns.refl s.fixed
  repeat' first
    | (with_reducible first | exact ha | exact True.intro)
    | (simp; done)
    | (with_reducible first | apply State.supplyTrip_burns)
    | (simp only [burnsRes_next]; done)
    | split
    | (with_reducible refine foldl_burns _ _ (fun _ _ _ => ?_) _ ?_)
    | (with_reducible assumption)
    | simp [ha]
    | dsimp only

theorem execPowerConnectorPull_burns (vin : BitVec 16) (s : State) : BurnsRes s (execPowerConnectorPull vin s) := by
  unfold execPowerConnectorPull
  have ha := Burns.refl s.fixed
  repeat' first
    | (with_reducible first | exact ha | exact True.intro)
    | (simp; done)
    | (with_reducible first | apply State.supplyTrip_burns)
    | (simp only [burnsRes_next]; done)
    | split
    | (with_reducible refine foldl_burns _ _ (fun _ _ _ => ?_) _ ?_)
    | (with_reducible assumption)
    | simp [ha]
    | dsimp only

theorem execOtherRailFault_burns (rail : Fin 16) (mv : BitVec 16) (s : State) : BurnsRes s (execOtherRailFault rail mv s) := by
  unfold execOtherRailFault
  have ha := Burns.refl s.fixed
  repeat' first
    | (with_reducible first | exact ha | exact True.intro)
    | (simp; done)
    | (with_reducible first | apply State.moduleEvent_burns)
    | (simp only [burnsRes_next]; done)
    | split
    | (with_reducible refine foldl_burns _ _ (fun _ _ _ => ?_) _ ?_)
    | (with_reducible assumption)
    | simp [ha]
    | dsimp only

theorem State.offNow_burns {a : List Instr × Vector Word 64} (s : State) (ha : Burns a s.fixed) : Burns a (State.offNow s).fixed := by
  unfold State.offNow
  repeat' first
    | (with_reducible first | exact ha | exact True.intro)
    | (simp; done)
    | (with_reducible first | apply State.powerOffNow_burns)
    | split
    | (with_reducible refine foldl_burns _ _ (fun _ _ _ => ?_) _ ?_)
    | (with_reducible assumption)
    | simp [ha]
    | dsimp only

theorem State.nextStage_burns {a : List Instr × Vector Word 64} (n : Nat) (s : State) (ha : Burns a s.fixed) : Burns a (State.nextStage n s).fixed := by
  unfold State.nextStage
  repeat' first
    | (with_reducible first | exact ha | exact True.intro)
    | (simp; done)
    | (with_reducible first | apply State.offNow_burns)
    | split
    | (with_reducible refine foldl_burns _ _ (fun _ _ _ => ?_) _ ?_)
    | (with_reducible assumption)
    | simp [ha]
    | dsimp only

theorem State.halt_burns {a : List Instr × Vector Word 64} (n path status detail : Nat) (words : List Nat) (s : State) (ha : Burns a s.fixed) : Burns a (State.halt n path status detail words s).fixed := by
  unfold State.halt
  repeat' first
    | (with_reducible first | exact ha | exact True.intro)
    | (simp; done)
    | (with_reducible first | apply State.offNow_burns)
    | split
    | (with_reducible refine foldl_burns _ _ (fun _ _ _ => ?_) _ ?_)
    | (with_reducible assumption)
    | simp [ha]
    | dsimp only

theorem execBringupStage0_burns (vin capacity : BitVec 16) (vaonOk coolantOk : Bool) (bad : List (BitVec 8)) (inlet hot : BitVec 8) (s : State) : BurnsRes s (execBringupStage0 vin capacity vaonOk coolantOk bad inlet hot s) := by
  unfold execBringupStage0
  have ha := Burns.refl s.fixed
  repeat' first
    | (with_reducible first | exact ha | exact True.intro)
    | (simp; done)
    | (with_reducible first | apply State.halt_burns | apply State.nextStage_burns)
    | (simp only [burnsRes_next]; done)
    | split
    | (with_reducible refine foldl_burns _ _ (fun _ _ _ => ?_) _ ?_)
    | (with_reducible assumption)
    | simp [ha]
    | dsimp only

theorem execBringupStage1_burns (lockstepOk romOk sramOk : Bool) (sense : List (Fin 64)) (s : State) : BurnsRes s (execBringupStage1 lockstepOk romOk sramOk sense s) := by
  unfold execBringupStage1
  have ha := Burns.refl s.fixed
  repeat' first
    | (with_reducible first | exact ha | exact True.intro)
    | (simp; done)
    | (with_reducible first | apply State.halt_burns | apply State.nextStage_burns)
    | (simp only [burnsRes_next]; done)
    | split
    | (with_reducible refine foldl_burns _ _ (fun _ _ _ => ?_) _ ?_)
    | (with_reducible assumption)
    | simp [ha]
    | dsimp only

theorem execBringupStage2_burns (ok : Bool) (phyUs : BitVec 32) (s : State) : BurnsRes s (execBringupStage2 ok phyUs s) := by
  unfold execBringupStage2
  have ha := Burns.refl s.fixed
  repeat' first
    | (with_reducible first | exact ha | exact True.intro)
    | (simp; done)
    | (with_reducible first | apply State.halt_burns | apply State.nextStage_burns)
    | (simp only [burnsRes_next]; done)
    | split
    | (with_reducible refine foldl_burns _ _ (fun _ _ _ => ?_) _ ?_)
    | (with_reducible assumption)
    | simp [ha]
    | dsimp only

theorem State.chooseImage_burns {a : List Instr × Vector Word 64} (s : State) (ha : Burns a s.fixed) : Burns a (State.chooseImage s).fixed := by
  unfold State.chooseImage
  repeat' first
    | (with_reducible first | exact ha | exact True.intro)
    | (simp; done)
    | (with_reducible first | apply State.halt_burns | apply State.nextStage_burns)
    | split
    | (with_reducible refine foldl_burns _ _ (fun _ _ _ => ?_) _ ?_)
    | (with_reducible assumption)
    | simp [ha]
    | dsimp only

theorem execBringupStage3_burns (s : State) : BurnsRes s (execBringupStage3 s) := by
  unfold execBringupStage3
  have ha := Burns.refl s.fixed
  repeat' first
    | (with_reducible first | exact ha | exact True.intro)
    | (simp; done)
    | (with_reducible first | apply State.chooseImage_burns)
    | (simp only [burnsRes_next]; done)
    | split
    | (with_reducible refine foldl_burns _ _ (fun _ _ _ => ?_) _ ?_)
    | (with_reducible assumption)
    | simp [ha]
    | dsimp only

theorem execBringupStage4_burns (bad : List (Fin 16)) (s : State) : BurnsRes s (execBringupStage4 bad s) := by
  unfold execBringupStage4
  have ha := Burns.refl s.fixed
  repeat' first
    | (with_reducible first | exact ha | exact True.intro)
    | (simp; done)
    | (with_reducible first | apply State.halt_burns | apply State.nextStage_burns)
    | (simp only [burnsRes_next]; done)
    | split
    | (with_reducible refine foldl_burns _ _ (fun _ _ _ => ?_) _ ?_)
    | (with_reducible assumption)
    | simp [ha]
    | dsimp only

theorem execBringupStage5_burns (hbmStacks : List StackTest) (s : State) : BurnsRes s (execBringupStage5 hbmStacks s) := by
  unfold execBringupStage5
  have ha := Burns.refl s.fixed
  repeat' first
    | (with_reducible first | exact ha | exact True.intro)
    | (simp; done)
    | (with_reducible first | apply State.halt_burns | apply State.nextStage_burns)
    | (simp only [burnsRes_next]; done)
    | split
    | (with_reducible refine foldl_burns _ _ (fun _ _ _ => ?_) _ ?_)
    | (with_reducible assumption)
    | simp [ha]
    | dsimp only

theorem execBringupStage6_burns (badTiles : List (Fin 64)) (badRime badFabric : List (Fin 4)) (s : State) : BurnsRes s (execBringupStage6 badTiles badRime badFabric s) := by
  have ha := Burns.refl s.fixed
  unfold execBringupStage6
  extract_lets path fabs down trips held gone s1 tiles ok words det clean s2 s3 s4
  have h1 : s1.fixed = s.fixed := by simp [s1]
  have h2 : Burns s.fixed s2.fixed := by
    have h : s2.fixed = s.fixed := by
      simp only [s2]
      rw [foldl_fixed _ _ (fun s n => by split <;> simp), h1]
    rw [h]
    exact ha
  have h3 : Burns s.fixed s3.fixed := by
    simp only [s3]
    refine State.nextStage_burns _ _ ?_
    rw [State.report_fixed]
    exact h2
  have h4 : Burns s.fixed s4.fixed := by
    have h : s4.fixed = s3.fixed := by simp [s4]
    rw [h]
    exact h3
  clear_value s1 s2 s3 s4
  split
  · exact ha
  · split
    · refine State.halt_burns _ _ _ _ _ _ ?_
      rw [h1]
      exact ha
    · split
      · exact h3
      · rw [burnsRes_next, foldl_fixed _ _ (fun s j => by simp)]
        exact h4

theorem execBringupStage7_burns (badLinks : List (Fin 64)) (s : State) : BurnsRes s (execBringupStage7 badLinks s) := by
  unfold execBringupStage7
  have ha := Burns.refl s.fixed
  repeat' first
    | (with_reducible first | exact ha | exact True.intro)
    | (simp; done)
    | (with_reducible first | apply State.nextStage_burns)
    | (simp only [burnsRes_next]; done)
    | split
    | (with_reducible refine foldl_burns _ _ (fun _ _ _ => ?_) _ ?_)
    | (with_reducible assumption)
    | simp [ha]
    | dsimp only

theorem execBringupStage8_burns (ok : Bool) (s : State) : BurnsRes s (execBringupStage8 ok s) := by
  unfold execBringupStage8
  have ha := Burns.refl s.fixed
  repeat' first
    | (with_reducible first | exact ha | exact True.intro)
    | (simp; done)
    | (with_reducible first | apply State.halt_burns | apply State.nextStage_burns)
    | (simp only [burnsRes_next]; done)
    | split
    | (with_reducible refine foldl_burns _ _ (fun _ _ _ => ?_) _ ?_)
    | (with_reducible assumption)
    | simp [ha]
    | dsimp only

theorem execBringupStage9_burns (s : State) : BurnsRes s (execBringupStage9 s) := by
  unfold execBringupStage9
  have ha := Burns.refl s.fixed
  repeat' first
    | (with_reducible first | exact ha | exact True.intro)
    | (simp; done)
    | (with_reducible first | apply State.offNow_burns)
    | (simp only [burnsRes_next]; done)
    | split
    | (with_reducible refine foldl_burns _ _ (fun _ _ _ => ?_) _ ?_)
    | (with_reducible assumption)
    | simp [ha]
    | dsimp only

theorem execFuseBitBlown_burns (ok : Bool) (s : State) : BurnsRes s (execFuseBitBlown ok s) := by
  unfold execFuseBitBlown
  have ha := Burns.refl s.fixed
  repeat' first
    | (with_reducible first | exact ha | exact True.intro)
    | (simp; done)
    | (with_reducible first | apply State.blowBit_burns)
    | (simp only [burnsRes_next]; done)
    | split
    | (with_reducible refine foldl_burns _ _ (fun _ _ _ => ?_) _ ?_)
    | (with_reducible assumption)
    | simp [ha]
    | dsimp only

theorem State.askEnd_burns {a : List Instr × Vector Word 64} (off : Bool) (s : State) (ha : Burns a s.fixed) : Burns a (State.askEnd off s).fixed := by
  unfold State.askEnd
  repeat' first
    | (with_reducible first | exact ha | exact True.intro)
    | (simp; done)
    | (with_reducible first | apply State.afterQuiesce_burns)
    | split
    | (with_reducible refine foldl_burns _ _ (fun _ _ _ => ?_) _ ?_)
    | (with_reducible assumption)
    | simp [ha]
    | dsimp only

theorem State.mbxPower_burns {a : List Instr × Vector Word 64} (tag action : Nat) (s : State) (ha : Burns a s.fixed) : Burns a (State.mbxPower tag action s).fixed := by
  unfold State.mbxPower
  repeat' first
    | (with_reducible first | exact ha | exact True.intro)
    | (simp; done)
    | (with_reducible first | apply State.askEnd_burns)
    | split
    | (with_reducible refine foldl_burns _ _ (fun _ _ _ => ?_) _ ?_)
    | (with_reducible assumption)
    | simp [ha]
    | dsimp only

theorem State.mbxStore_burns {a : List Instr × Vector Word 64} (r : List Byte) (s : State) (ha : Burns a s.fixed) : Burns a (State.mbxStore r s).fixed := by
  unfold State.mbxStore
  repeat' first
    | (with_reducible first | exact ha | exact True.intro)
    | (simp; done)
    | (with_reducible first | apply State.askEnd_burns)
    | split
    | (with_reducible refine foldl_burns _ _ (fun _ _ _ => ?_) _ ?_)
    | (with_reducible assumption)
    | simp [ha]
    | dsimp only

theorem State.mbxServe_burns {a : List Instr × Vector Word 64} (r : List Byte) (s : State) (ha : Burns a s.fixed) : Burns a (State.mbxServe r s).fixed := by
  unfold State.mbxServe
  repeat' first
    | (with_reducible first | exact ha | exact True.intro)
    | (simp; done)
    | (with_reducible first | apply State.mbxPower_burns | apply State.mbxStore_burns)
    | split
    | (with_reducible refine foldl_burns _ _ (fun _ _ _ => ?_) _ ?_)
    | (with_reducible assumption)
    | simp [ha]
    | dsimp only

theorem State.mbxResume_burns {a : List Instr × Vector Word 64} (s : State) (ha : Burns a s.fixed) : Burns a (State.mbxResume s).fixed := by
  unfold State.mbxResume
  repeat' first
    | (with_reducible first | exact ha | exact True.intro)
    | (simp; done)
    | (with_reducible first | apply State.mbxServe_burns)
    | split
    | (with_reducible refine foldl_burns _ _ (fun _ _ _ => ?_) _ ?_)
    | (with_reducible assumption)
    | simp [ha]
    | dsimp only

theorem State.mbxGo_burns {a : List Instr × Vector Word 64} (func : Nat) (s : State) (ha : Burns a s.fixed) : Burns a (State.mbxGo func s).fixed := by
  unfold State.mbxGo
  repeat' first
    | (with_reducible first | exact ha | exact True.intro)
    | (simp; done)
    | (with_reducible first | apply State.mbxResume_burns)
    | split
    | (with_reducible refine foldl_burns _ _ (fun _ _ _ => ?_) _ ?_)
    | (with_reducible assumption)
    | simp [ha]
    | dsimp only

theorem State.writeMbxCtl_burns {a : List Instr × Vector Word 64} (func : Nat) (part : Part) (v : Word) (s : State) (ha : Burns a s.fixed) : Burns a (State.writeMbxCtl func part v s).fixed := by
  unfold State.writeMbxCtl
  repeat' first
    | (with_reducible first | exact ha | exact True.intro)
    | (simp; done)
    | (with_reducible first | apply State.mbxGo_burns)
    | split
    | (with_reducible refine foldl_burns _ _ (fun _ _ _ => ?_) _ ?_)
    | (with_reducible assumption)
    | simp [ha]
    | dsimp only

theorem State.mbxRequest_burns {a : List Instr × Vector Word 64} (op : Nat) (tag : BitVec 16) (payload : List Byte) (s : State) (ha : Burns a s.fixed) : Burns a (State.mbxRequest op tag payload s).fixed := by
  unfold State.mbxRequest
  repeat' first
    | (with_reducible first | exact ha | exact True.intro)
    | (simp; done)
    | (with_reducible first | apply State.mbxGo_burns)
    | split
    | (with_reducible refine foldl_burns _ _ (fun _ _ _ => ?_) _ ?_)
    | (with_reducible assumption)
    | simp [ha]
    | dsimp only

theorem whenHostUp_burns {a : List Instr × Vector Word 64} (k : State → State) (s : State) (ha : Burns a s.fixed)
    (hk : ∀ s, Burns a s.fixed → Burns a (k s).fixed) : Burns a (s.whenHostUp k).fixed := by
  unfold State.whenHostUp
  split
  all_goals first | assumption | exact hk _ ha | skip
  all_goals split
  all_goals first | exact hk _ ha | exact ha
theorem execStatus_burns (tag : BitVec 16) (s : State) : BurnsRes s (execStatus tag s) :=
  whenHostUp_burns _ _ (Burns.refl _) (fun _ h => State.mbxRequest_burns _ _ _ _ h)

theorem execEpochread_burns (tag : BitVec 16) (unit : Byte) (s : State) : BurnsRes s (execEpochread tag unit s) :=
  whenHostUp_burns _ _ (Burns.refl _) (fun _ h => State.mbxRequest_burns _ _ _ _ h)

theorem execTenancy_burns (tag : BitVec 16) (t op debug : Byte) (s : State) : BurnsRes s (execTenancy tag t op debug s) :=
  whenHostUp_burns _ _ (Burns.refl _) (fun _ h => State.mbxRequest_burns _ _ _ _ h)

theorem execQuiesceResetRelease_burns (tag : BitVec 16) (unit : Byte) (s : State) : BurnsRes s (execQuiesceResetRelease tag unit s) :=
  whenHostUp_burns _ _ (Burns.refl _) (fun _ h => State.mbxRequest_burns _ _ _ _ h)

theorem execQuiesceFenceHold_burns (tag : BitVec 16) (unit : Byte) (s : State) : BurnsRes s (execQuiesceFenceHold tag unit s) :=
  whenHostUp_burns _ _ (Burns.refl _) (fun _ h => State.mbxRequest_burns _ _ _ _ h)

theorem execQuiesceReleaseHeld_burns (tag : BitVec 16) (unit : Byte) (s : State) : BurnsRes s (execQuiesceReleaseHeld tag unit s) :=
  whenHostUp_burns _ _ (Burns.refl _) (fun _ h => State.mbxRequest_burns _ _ _ _ h)

theorem execSnapshot_burns (tag : BitVec 16) (s : State) : BurnsRes s (execSnapshot tag s) :=
  whenHostUp_burns _ _ (Burns.refl _) (fun _ h => State.mbxRequest_burns _ _ _ _ h)

theorem execPowerDeepFrostEnter_burns (tag : BitVec 16) (s : State) : BurnsRes s (execPowerDeepFrostEnter tag s) :=
  whenHostUp_burns _ _ (Burns.refl _) (fun _ h => State.mbxRequest_burns _ _ _ _ h)

theorem execPowerDeepFrostLeave_burns (tag : BitVec 16) (s : State) : BurnsRes s (execPowerDeepFrostLeave tag s) :=
  whenHostUp_burns _ _ (Burns.refl _) (fun _ h => State.mbxRequest_burns _ _ _ _ h)

theorem execPowerOff_burns (tag : BitVec 16) (s : State) : BurnsRes s (execPowerOff tag s) :=
  whenHostUp_burns _ _ (Burns.refl _) (fun _ h => State.mbxRequest_burns _ _ _ _ h)

theorem execPowerRestart_burns (tag : BitVec 16) (s : State) : BurnsRes s (execPowerRestart tag s) :=
  whenHostUp_burns _ _ (Burns.refl _) (fun _ h => State.mbxRequest_burns _ _ _ _ h)

theorem execSlotinfo_burns (tag : BitVec 16) (s : State) : BurnsRes s (execSlotinfo tag s) :=
  whenHostUp_burns _ _ (Burns.refl _) (fun _ h => State.mbxRequest_burns _ _ _ _ h)

theorem execEraseslot_burns (tag : BitVec 16) (slot : Byte) (s : State) : BurnsRes s (execEraseslot tag slot s) :=
  whenHostUp_burns _ _ (Burns.refl _) (fun _ h => State.mbxRequest_burns _ _ _ _ h)

theorem execVerify_burns (tag : BitVec 16) (slot : Byte) (s : State) : BurnsRes s (execVerify tag slot s) :=
  whenHostUp_burns _ _ (Burns.refl _) (fun _ h => State.mbxRequest_burns _ _ _ _ h)

theorem execActivate_burns (tag : BitVec 16) (slot flags : Byte) (s : State) : BurnsRes s (execActivate tag slot flags s) :=
  whenHostUp_burns _ _ (Burns.refl _) (fun _ h => State.mbxRequest_burns _ _ _ _ h)

theorem execConfirm_burns (tag : BitVec 16) (s : State) : BurnsRes s (execConfirm tag s) :=
  whenHostUp_burns _ _ (Burns.refl _) (fun _ h => State.mbxRequest_burns _ _ _ _ h)

theorem execRevert_burns (tag : BitVec 16) (s : State) : BurnsRes s (execRevert tag s) :=
  whenHostUp_burns _ _ (Burns.refl _) (fun _ h => State.mbxRequest_burns _ _ _ _ h)

theorem execCommitsvn_burns (tag : BitVec 16) (s : State) : BurnsRes s (execCommitsvn tag s) :=
  whenHostUp_burns _ _ (Burns.refl _) (fun _ h => State.mbxRequest_burns _ _ _ _ h)

theorem execOwnerkey_burns (tag : BitVec 16) (key sig : List Byte) (s : State) : BurnsRes s (execOwnerkey tag key sig s) :=
  whenHostUp_burns _ _ (Burns.refl _) (fun _ h => State.mbxRequest_burns _ _ _ _ h)

theorem execControllerFailure_burns (cause : Fin 3) (s : State) : BurnsRes s (execControllerFailure cause s) := by
  unfold execControllerFailure
  have ha := Burns.refl s.fixed
  repeat' first
    | (with_reducible first | exact ha | exact True.intro)
    | (simp; done)
    | (with_reducible first | apply State.blowStarted_burns)
    | (simp only [burnsRes_next]; done)
    | split
    | (with_reducible refine foldl_burns _ _ (fun _ _ _ => ?_) _ ?_)
    | (with_reducible assumption)
    | simp [ha]
    | dsimp only

theorem State.idleStep_burns {a : List Instr × Vector Word 64} (s : State) (ha : Burns a s.fixed) : Burns a (State.idleStep s).fixed := by
  unfold State.idleStep
  repeat' first
    | (with_reducible first | exact ha | exact True.intro)
    | (simp; done)
    | (with_reducible first | apply State.mbxResume_burns)
    | split
    | (with_reducible refine foldl_burns _ _ (fun _ _ _ => ?_) _ ?_)
    | (with_reducible assumption)
    | simp [ha]
    | dsimp only

theorem execBreezeCrcError_burns (k unit : Nat) (s : State) : BurnsRes s (execBreezeCrcError k unit s) := by
  unfold execBreezeCrcError
  have ha := Burns.refl s.fixed
  repeat' first
    | (with_reducible first | exact ha | exact True.intro)
    | (simp; done)
    | (with_reducible first | apply State.fabricFault_burns)
    | (simp only [burnsRes_next]; done)
    | split
    | (with_reducible refine foldl_burns _ _ (fun _ _ _ => ?_) _ ?_)
    | (with_reducible assumption)
    | simp [ha]
    | dsimp only

theorem State.setPower_burns {a : List Instr × Vector Word 64} (st : Nat) (s : State) (ha : Burns a s.fixed) : Burns a (State.setPower st s).1.fixed := by
  unfold State.setPower
  repeat' first
    | (with_reducible first | exact ha | exact True.intro)
    | (simp; done)
    | (with_reducible first | apply State.askEnd_burns)
    | split
    | (with_reducible refine foldl_burns _ _ (fun _ _ _ => ?_) _ ?_)
    | (with_reducible assumption)
    | simp [ha]
    | dsimp only

theorem execSetStateEffecterStates_burns (port : MgmtPort) (effecter : BitVec 16) (state : Byte) (s : State) :
    BurnsRes s (execSetStateEffecterStates port effecter state s) := by
  unfold execSetStateEffecterStates
  split
  · rw [burnsRes_next]
    split
    · simp [State.askStart]
    · exact Burns.refl _
  · refine State.pldm_burns _ _ _ _ _ _ (Burns.refl _) (fun s h => ?_)
    split
    · exact State.setPower_burns _ _ h
    · exact h

theorem execActivateFirmware_burns (port : MgmtPort) (selfContained : Bool) (s : State) : BurnsRes s (execActivateFirmware port selfContained s) := by
  refine State.inUpdate_burns _ _ _ _ _ (Burns.refl _) (fun u s h => ?_)
  split
  · exact h
  · dsimp only
    split
    · exact State.askEnd_burns _ _ (by simpa using h)
    · simpa using h

theorem State.writeController_burns {a : List Instr × Vector Word 64} (func b i : Nat) (part : Part) (v : Word) (s : State) (ha : Burns a s.fixed) :
    ∀ t, (s.writeController func b i part v) = some t → Burns a t.fixed := by
  unfold State.writeController
  repeat' first | exact burns_none | refine burns_some ?_ | refine burns_ite ?_ ?_
  all_goals first | (simpa using ha) | exact State.writeMbxCtl_burns _ _ _ _ ha

theorem State.regWrite_burns {a : List Instr × Vector Word 64} (func off : Nat) (part : Part) (v : Word) (s : State) (ha : Burns a s.fixed) :
    Burns a (s.regWrite func off part v).fixed := by
  unfold State.regWrite
  dsimp only
  split
  · simpa using ha
  · split
    · split
      · simpa using ha
      · exact ha
    · rename_i r i j _
      split
      · exact ha
      · split
        · rename_i s1 h
          rcases orElse_some h with h | h
          · exact burns_of_fixes ha (State.writePower_fixed _ _ _ _ _ _) _ h
          rcases orElse_some h with h | h
          · exact State.writeController_burns _ _ _ _ _ _ ha _ h
          · exact burns_of_fixes ha (State.writeTenancy_fixed _ _ _ _ _ _ _) _ h
        · simpa using ha

theorem State.busWrite_burns {a : List Instr × Vector Word 64} (func off : Nat) (part : Part) (v : Word) (s : State) (ha : Burns a s.fixed) : Burns a (State.busWrite func off part v s).fixed := by
  unfold State.busWrite
  repeat' first
    | (with_reducible first | exact ha | exact True.intro)
    | (simp; done)
    | (with_reducible first | apply State.regWrite_burns)
    | split
    | (with_reducible refine foldl_burns _ _ (fun _ _ _ => ?_) _ ?_)
    | (with_reducible assumption)
    | simp [ha]
    | dsimp only

theorem execRegisterWrite_burns (func : Fin 17) (off : Nat) (part : Part) (v : Word) (s : State) : BurnsRes s (execRegisterWrite func off part v s) := by
  unfold execRegisterWrite
  have ha := Burns.refl s.fixed
  repeat' first
    | (with_reducible first | exact ha | exact True.intro)
    | (simp; done)
    | (with_reducible first | apply State.busWrite_burns)
    | (simp only [burnsRes_next]; done)
    | split
    | (with_reducible refine foldl_burns _ _ (fun _ _ _ => ?_) _ ?_)
    | (with_reducible assumption)
    | simp [ha]
    | dsimp only

theorem State.wideWrite_burns {a : List Instr × Vector Word 64} (func off : Nat) (data : List Byte) (n : Nat) (s : State) (ha : Burns a s.fixed) : Burns a (State.wideWrite func off data n s).fixed := by
  unfold State.wideWrite
  repeat' first
    | (with_reducible first | exact ha | exact True.intro)
    | (simp; done)
    | (with_reducible first | apply State.busWrite_burns)
    | split
    | (with_reducible refine foldl_burns _ _ (fun _ _ _ => ?_) _ ?_)
    | (with_reducible assumption)
    | simp [ha]
    | dsimp only

theorem execBarWideRequest_burns (func : Fin 17) (write : Bool) (off len : Nat) (data : List Byte) (s : State) : BurnsRes s (execBarWideRequest func write off len data s) := by
  unfold execBarWideRequest
  have ha := Burns.refl s.fixed
  repeat' first
    | (with_reducible first | exact ha | exact True.intro)
    | (simp; done)
    | (with_reducible first | apply State.busWrite_burns | apply State.wideWrite_burns)
    | (simp only [burnsRes_next]; done)
    | split
    | (with_reducible refine foldl_burns _ _ (fun _ _ _ => ?_) _ ?_)
    | (with_reducible assumption)
    | simp [ha]
    | dsimp only

theorem execThermalSensorRead_burns (dies base hbmStacks : List (BitVec 8)) (inlet outlet : BitVec 8) (s : State) : BurnsRes s (execThermalSensorRead dies base hbmStacks inlet outlet s) := by
  unfold execThermalSensorRead
  have ha := Burns.refl s.fixed
  repeat' first
    | (with_reducible first | exact ha | exact True.intro)
    | (simp; done)
    | (with_reducible first | apply State.moduleEvent_burns)
    | (simp only [burnsRes_next]; done)
    | split
    | (with_reducible refine foldl_burns _ _ (fun _ _ _ => ?_) _ ?_)
    | (with_reducible assumption)
    | simp [ha]
    | dsimp only

theorem execHardwareThermalTrip_burns (s : State) : BurnsRes s (execHardwareThermalTrip s) := by
  unfold execHardwareThermalTrip
  have ha := Burns.refl s.fixed
  repeat' first
    | (with_reducible first | exact ha | exact True.intro)
    | (simp; done)
    | (with_reducible first | apply State.blowStarted_burns)
    | (simp only [burnsRes_next]; done)
    | split
    | (with_reducible refine foldl_burns _ _ (fun _ _ _ => ?_) _ ?_)
    | (with_reducible assumption)
    | simp [ha]
    | dsimp only

end Sys2Proof.Machine
end

