-- ==== Sys2Proof/Laws/Sparse.lean ====
section
/-! SUPPORT. What the operations on sparse tables and byte memories do: a read after a write, the reads a write leaves alone, and that every
operation keeps the canonical form. -/

namespace Sys2Proof.Machine

variable {α : Type}

/-! ### Reads after writes -/

theorem spGet_spDel (d : α) (l : List (Nat × α)) (i j : Nat) :
    spGet d (spDel l i) j = if j = i then d else spGet d l j := by
  induction l with
  | nil => simp [spDel, spGet]
  | cons e l ih =>
    obtain ⟨k, v⟩ := e
    by_cases hk : k = i
    · subst hk
      simp only [spDel, if_true, ih, spGet]
      by_cases hj : j = k
      · simp [hj]
      · simp [hj, Ne.symm hj]
    · by_cases hkj : k = j
      · subst hkj
        simp [spDel, hk, spGet]
      · simp [spDel, hk, spGet, hkj, ih]

theorem spGet_spIns (d : α) (l : List (Nat × α)) (i j : Nat) (v : α) :
    spGet d (spIns l i v) j = if j = i then v else spGet d l j := by
  induction l with
  | nil =>
    by_cases hj : j = i
    · simp [spIns, spGet, hj]
    · simp [spIns, spGet, hj, Ne.symm hj]
  | cons e l ih =>
    obtain ⟨k, w⟩ := e
    by_cases hj : j = i
    · subst hj
      simp only [if_true] at ih ⊢
      unfold spIns
      split
      · simp [spGet]
      · split
        · simp [spGet]
        · simp [spGet, ih, Ne.symm ‹¬j = k›]
    · simp only [hj, if_false] at ih ⊢
      unfold spIns
      split
      · simp [spGet, Ne.symm hj]
      · split
        · rename_i hk
          subst hk
          simp [spGet, Ne.symm hj]
        · simp [spGet, ih]

/-- A read of a key after a write of a key. -/
theorem spGet_spSet [DecidableEq α] (d : α) (l : List (Nat × α)) (i j : Nat) (v : α) :
    spGet d (spSet d l i v) j = if j = i then v else spGet d l j := by
  unfold spSet
  split
  · rename_i h
    simp [spGet_spDel, h]
  · exact spGet_spIns d l i j v

theorem spGet_spClear (d : α) (f : Nat → Bool) (l : List (Nat × α)) (j : Nat) :
    spGet d (spClear f l) j = if f j then d else spGet d l j := by
  induction l with
  | nil => simp [spClear, spGet]
  | cons e l ih =>
    obtain ⟨k, v⟩ := e
    unfold spClear at ih ⊢
    rw [List.filter_cons]
    by_cases hk : f k
    · simp only [hk, Bool.not_true, Bool.false_eq_true, if_false, ih, spGet]
      by_cases hkj : k = j
      · subst hkj
        simp [hk]
      · simp [hkj]
    · by_cases hkj : k = j
      · subst hkj
        simp [hk, spGet]
      · simp [hk, spGet, hkj, ih]

/-! ### The canonical form -/

theorem spWfFrom_mono [DecidableEq α] (d : α) {n m : Nat} (h : m ≤ n) (l : List (Nat × α)) (hw : spWfFrom d n l = true) :
    spWfFrom d m l = true := by
  cases l with
  | nil => rfl
  | cons e l =>
    simp only [spWfFrom, Bool.and_eq_true, decide_eq_true_eq] at hw ⊢
    exact ⟨⟨Nat.le_trans h hw.1.1, hw.1.2⟩, hw.2⟩

theorem spWfFrom_spDel [DecidableEq α] (d : α) (l : List (Nat × α)) (i n : Nat) (hw : spWfFrom d n l = true) :
    spWfFrom d n (spDel l i) = true := by
  induction l generalizing n with
  | nil => rfl
  | cons e l ih =>
    obtain ⟨k, v⟩ := e
    simp only [spWfFrom, Bool.and_eq_true, decide_eq_true_eq] at hw
    unfold spDel
    split
    · exact ih n (spWfFrom_mono d (Nat.le_succ_of_le hw.1.1) l hw.2)
    · simp only [spWfFrom, Bool.and_eq_true, decide_eq_true_eq]
      exact ⟨hw.1, ih (k + 1) hw.2⟩

theorem spWfFrom_spIns [DecidableEq α] (d : α) (l : List (Nat × α)) (i n : Nat) (v : α) (hv : v ≠ d) (hn : n ≤ i)
    (hw : spWfFrom d n l = true) : spWfFrom d n (spIns l i v) = true := by
  induction l generalizing n with
  | nil => simp [spIns, spWfFrom, hn, hv]
  | cons e l ih =>
    obtain ⟨k, w⟩ := e
    simp only [spWfFrom, Bool.and_eq_true, decide_eq_true_eq] at hw
    unfold spIns
    split
    · rename_i h
      simp only [spWfFrom, Bool.and_eq_true, decide_eq_true_eq]
      exact ⟨⟨hn, hv⟩, ⟨h, hw.1.2⟩, hw.2⟩
    · split
      · rename_i h
        subst h
        simp only [spWfFrom, Bool.and_eq_true, decide_eq_true_eq]
        exact ⟨⟨hn, hv⟩, hw.2⟩
      · simp only [spWfFrom, Bool.and_eq_true, decide_eq_true_eq]
        exact ⟨hw.1, ih (k + 1) (by omega) hw.2⟩

/-- A write of a key keeps the canonical form. -/
theorem spWf_spSet [DecidableEq α] (d : α) (l : List (Nat × α)) (i : Nat) (v : α) (hw : spWf d l = true) :
    spWf d (spSet d l i v) = true := by
  unfold spSet spWf
  split
  · exact spWfFrom_spDel d l i 0 hw
  · exact spWfFrom_spIns d l i 0 v ‹_› (Nat.zero_le i) hw

theorem spWf_spClear [DecidableEq α] (d : α) (f : Nat → Bool) (l : List (Nat × α)) (hw : spWf d l = true) :
    spWf d (spClear f l) = true := by
  have gen : ∀ n, spWfFrom d n l = true → spWfFrom d n (spClear f l) = true := by
    intro n h
    induction l generalizing n with
    | nil => rfl
    | cons e l ih =>
      obtain ⟨k, v⟩ := e
      have hk : spWfFrom d (k + 1) l = true := by
        simp only [spWfFrom, Bool.and_eq_true] at h
        exact h.2
      have ih' := ih (spWfFrom_mono d (Nat.zero_le _) l hk)
      unfold spClear at ih' ⊢
      rw [List.filter_cons]
      split
      · simp only [spWfFrom, Bool.and_eq_true] at h ⊢
        exact ⟨h.1, ih' (k + 1) hk⟩
      · have hn : n ≤ k + 1 := by
          simp only [spWfFrom, Bool.and_eq_true, decide_eq_true_eq] at h
          omega
        exact spWfFrom_mono d hn _ (ih' (k + 1) hk)
  exact gen 0 hw

/-! ### Byte memories -/

/-- A write of a byte string keeps the canonical form of a memory. -/
theorem memWrite_wf (d : Byte) (m : List Host.Cell) (a : Nat) (bs : List Byte) (hw : Memory.wf d m = true) :
    Memory.wf d (memWrite d m a bs) = true := by
  induction bs generalizing m a with
  | nil => exact hw
  | cons b bs ih => exact ih _ _ (spWf_spSet d m a b hw)

/-- Clearing a range keeps the canonical form of a memory. -/
theorem memClear_wf (d : Byte) (m : List Host.Cell) (a n : Nat) (hw : Memory.wf d m = true) :
    Memory.wf d (memClear m a n) = true := spWf_spClear d _ m hw

/-- A byte after a write of a byte string: a byte of the string inside its range, what was there outside it. -/
theorem spGet_memWrite (d : Byte) (m : List Host.Cell) (a : Nat) (bs : List Byte) (i : Nat) :
    spGet d (memWrite d m a bs) i = if a ≤ i ∧ i < a + bs.length then bs.getD (i - a) d else spGet d m i := by
  induction bs generalizing m a with
  | nil =>
    have : ¬(a ≤ i ∧ i < a + ([] : List Byte).length) := by simp
    rw [if_neg this]
    rfl
  | cons b bs ih =>
    rw [memWrite, ih, spGet_spSet]
    by_cases h : a + 1 ≤ i ∧ i < a + 1 + bs.length
    · have h' : a ≤ i ∧ i < a + (b :: bs).length := by
        simp only [List.length_cons]
        omega
      rw [if_pos h, if_pos h']
      have : i - a = (i - (a + 1)) + 1 := by omega
      rw [this, List.getD_cons_succ]
    · rw [if_neg h]
      by_cases hi : i = a
      · subst hi
        simp
      · have h' : ¬(a ≤ i ∧ i < a + (b :: bs).length) := by
          simp only [List.length_cons]
          omega
        rw [if_neg hi, if_neg h']

/-- The bytes that a read returns, one by one. -/
theorem memRead_getD (d : Byte) (m : List Host.Cell) (a n k : Nat) (h : k < n) :
    (memRead d m a n).getD k d = spGet d m (a + k) := by
  induction n generalizing a k with
  | zero => omega
  | succ n ih =>
    cases k with
    | zero => rfl
    | succ k =>
      have := ih (a + 1) k (by omega)
      rw [memRead, List.getD_cons_succ, this]
      congr 1
      omega

theorem memRead_length (d : Byte) (m : List Host.Cell) (a n : Nat) : (memRead d m a n).length = n := by
  induction n generalizing a with
  | zero => rfl
  | succ n ih => simp [memRead, ih]

end Sys2Proof.Machine
end

