-- ==== Sys2Proof/Laws/State.lean ====
section
/-! SUPPORT. What each update of the state does to each of its fields, and what the register file and the numbered parts read after
an update: no later proof opens a record. -/

namespace Sys2Proof.Machine

/-! ### A register field after a write -/

/-- A written field reads what was written, cut to its width. -/
@[simp] theorem State.get_set_self (f : Fld) (v : Nat) (s : State) : (s.set f v).get f = v % 2 ^ f.width := by
  simp [State.get, State.set, spGet_spSet, Nat.xor_assoc]

/-- Another field reads as before. -/
theorem State.get_set_ne {f g : Fld} (h : g.key ≠ f.key) (v : Nat) (s : State) : (s.set f v).get g = s.get g := by
  simp [State.get, State.set, spGet_spSet, h]

/-- A read of any field after a write of a field. -/
theorem State.get_set (f g : Fld) (v : Nat) (s : State) :
    (s.set f v).get g = if g.key = f.key then (v % 2 ^ f.width) ^^^ f.reset ^^^ g.reset else s.get g := by
  by_cases h : g.key = f.key <;> simp [State.get, State.set, spGet_spSet, h]

/-- A register field depends on the register file alone. -/
theorem State.get_congr {s t : State} (h : t.regs = s.regs) (x : Fld) : t.get x = s.get x := by
  simp only [State.get, h]

/-! ### Register fields after the other updates -/

@[simp] theorem State.get_draw (s : State) (x : Fld) : s.draw.get x = s.get x := rfl

@[simp] theorem State.get_emit (o : Out) (s : State) (x : Fld) : (s.emit o).get x = s.get x := rfl

@[simp] theorem State.get_setPq (q : Nat) (v : Queue) (s : State) (x : Fld) : (s.setPq q v).get x = s.get x := rfl

@[simp] theorem State.get_hbmWrite (a : Nat) (bs : List Byte) (s : State) (x : Fld) : (s.hbmWrite a bs).get x = s.get x := rfl

@[simp] theorem State.get_modTile (g : Nat) (h : Tile → Tile) (s : State) (x : Fld) : (s.modTile g h).get x = s.get x := rfl

@[simp] theorem State.get_modFunc (f : Nat) (h : Func → Func) (s : State) (x : Fld) : (s.modFunc f h).get x = s.get x := rfl

@[simp] theorem State.get_modTen (t : Nat) (h : Tenancy → Tenancy) (s : State) (x : Fld) : (s.modTen t h).get x = s.get x := rfl

@[simp] theorem State.get_modEvRing (i : Nat) (h : EvRing → EvRing) (s : State) (x : Fld) : (s.modEvRing i h).get x = s.get x := rfl

@[simp] theorem State.get_modLink (j : Nat) (h : Link → Link) (s : State) (x : Fld) : (s.modLink j h).get x = s.get x := rfl

@[simp] theorem State.get_modRime (d : Nat) (h : Rime → Rime) (s : State) (x : Fld) : (s.modRime d h).get x = s.get x := rfl

/-! ### Numbered parts after an update -/

@[simp] theorem State.tile_modTile_self (i : Nat) (h : Tile → Tile) (s : State) (hi : i < 64) : (s.modTile i h).tile i = h (s.tile i) := by
  simp [State.tile, State.modTile, hi]

theorem State.tile_modTile_ne {i j : Nat} (hij : i ≠ j) (h : Tile → Tile) (s : State) : (s.modTile i h).tile j = s.tile j := by
  simp [State.tile, State.modTile, hij]

@[simp] theorem State.func_modFunc_self (i : Nat) (h : Func → Func) (s : State) (hi : i < 17) : (s.modFunc i h).func i = h (s.func i) := by
  simp [State.func, State.modFunc, hi]

theorem State.func_modFunc_ne {i j : Nat} (hij : i ≠ j) (h : Func → Func) (s : State) : (s.modFunc i h).func j = s.func j := by
  simp [State.func, State.modFunc, hij]

@[simp] theorem State.ten_modTen_self (i : Nat) (h : Tenancy → Tenancy) (s : State) (hi : i < 17) : (s.modTen i h).ten i = h (s.ten i) := by
  simp [State.ten, State.modTen, hi]

theorem State.ten_modTen_ne {i j : Nat} (hij : i ≠ j) (h : Tenancy → Tenancy) (s : State) : (s.modTen i h).ten j = s.ten j := by
  simp [State.ten, State.modTen, hij]

@[simp] theorem State.evRing_modEvRing_self (i : Nat) (h : EvRing → EvRing) (s : State) (hi : i < 18) : (s.modEvRing i h).evRing i = h (s.evRing i) := by
  simp [State.evRing, State.modEvRing, hi]

theorem State.evRing_modEvRing_ne {i j : Nat} (hij : i ≠ j) (h : EvRing → EvRing) (s : State) : (s.modEvRing i h).evRing j = s.evRing j := by
  simp [State.evRing, State.modEvRing, hij]

@[simp] theorem State.link_modLink_self (i : Nat) (h : Link → Link) (s : State) (hi : i < 64) : (s.modLink i h).link i = h (s.link i) := by
  simp [State.link, State.modLink, hi]

theorem State.link_modLink_ne {i j : Nat} (hij : i ≠ j) (h : Link → Link) (s : State) : (s.modLink i h).link j = s.link j := by
  simp [State.link, State.modLink, hij]

@[simp] theorem State.rime_modRime_self (i : Nat) (h : Rime → Rime) (s : State) (hi : i < 4) : (s.modRime i h).rime i = h (s.rime i) := by
  simp [State.rime, State.modRime, hi]

theorem State.rime_modRime_ne {i j : Nat} (hij : i ≠ j) (h : Rime → Rime) (s : State) : (s.modRime i h).rime j = s.rime j := by
  simp [State.rime, State.modRime, hij]

@[simp] theorem State.ring_modRing_self (f r : Nat) (h : Ring → Ring) (s : State) (hf : f < 17) (hr : r < 16) :
    (s.modRing f r h).ring f r = h (s.ring f r) := by
  simp [State.ring, State.modRing, hf, hr]

theorem State.ring_modRing_ne {f r f' r' : Nat} (hne : f ≠ f' ∨ r ≠ r') (h : Ring → Ring) (s : State) :
    (s.modRing f r h).ring f' r' = s.ring f' r' := by
  unfold State.modRing
  split
  · rfl
  · rename_i v hv
    by_cases hf : f = f'
    · subst hf
      have hr : r ≠ r' := by simpa using hne
      obtain ⟨hb, rfl⟩ := Vector.getElem?_eq_some_iff.mp hv
      simp [State.ring, hr, hb]
    · simp [State.ring, hf]

@[simp] theorem State.pq_setPq_self (q : Nat) (v : Queue) (s : State) : (s.setPq q v).pq q = v := by
  simp [State.pq, State.setPq, spGet_spSet]

theorem State.pq_setPq_ne {q q' : Nat} (h : q' ≠ q) (v : Queue) (s : State) : (s.setPq q v).pq q' = s.pq q' := by
  simp [State.pq, State.setPq, spGet_spSet, h]

@[simp] theorem State.get_modRing (f r : Nat) (h : Ring → Ring) (s : State) (x : Fld) : (s.modRing f r h).get x = s.get x := by
  unfold State.modRing
  split <;> rfl

/-! ### Each field of the state after each update -/

@[simp] theorem State.set_phase (f : Fld) (v : Nat) (s : State) : (s.set f v).phase = s.phase := rfl
@[simp] theorem State.set_frost (f : Fld) (v : Nat) (s : State) : (s.set f v).frost = s.frost := rfl
@[simp] theorem State.set_tick (f : Fld) (v : Nat) (s : State) : (s.set f v).tick = s.tick := rfl
@[simp] theorem State.set_free (f : Fld) (v : Nat) (s : State) : (s.set f v).free = s.free := rfl
@[simp] theorem State.set_out (f : Fld) (v : Nat) (s : State) : (s.set f v).out = s.out := rfl
@[simp] theorem State.set_pending (f : Fld) (v : Nat) (s : State) : (s.set f v).pending = s.pending := rfl
@[simp] theorem State.set_pins (f : Fld) (v : Nat) (s : State) : (s.set f v).pins = s.pins := rfl
@[simp] theorem State.set_tiles (f : Fld) (v : Nat) (s : State) : (s.set f v).tiles = s.tiles := rfl
@[simp] theorem State.set_isobar (f : Fld) (v : Nat) (s : State) : (s.set f v).isobar = s.isobar := rfl
@[simp] theorem State.set_isoSeq (f : Fld) (v : Nat) (s : State) : (s.set f v).isoSeq = s.isoSeq := rfl
@[simp] theorem State.set_waiters (f : Fld) (v : Nat) (s : State) : (s.set f v).waiters = s.waiters := rfl
@[simp] theorem State.set_touched (f : Fld) (v : Nat) (s : State) : (s.set f v).touched = s.touched := rfl
@[simp] theorem State.set_pqs (f : Fld) (v : Nat) (s : State) : (s.set f v).pqs = s.pqs := rfl
@[simp] theorem State.set_flits (f : Fld) (v : Nat) (s : State) : (s.set f v).flits = s.flits := rfl
@[simp] theorem State.set_hcq (f : Fld) (v : Nat) (s : State) : (s.set f v).hcq = s.hcq := rfl
@[simp] theorem State.set_hbm (f : Fld) (v : Nat) (s : State) : (s.set f v).hbm = s.hbm := rfl
@[simp] theorem State.set_poison (f : Fld) (v : Nat) (s : State) : (s.set f v).poison = s.poison := rfl
@[simp] theorem State.set_moved (f : Fld) (v : Nat) (s : State) : (s.set f v).moved = s.moved := rfl
@[simp] theorem State.set_rewrites (f : Fld) (v : Nat) (s : State) : (s.set f v).rewrites = s.rewrites := rfl
@[simp] theorem State.set_slotsJ (f : Fld) (v : Nat) (s : State) : (s.set f v).slotsJ = s.slotsJ := rfl
@[simp] theorem State.set_slotsB (f : Fld) (v : Nat) (s : State) : (s.set f v).slotsB = s.slotsB := rfl
@[simp] theorem State.set_slotsM (f : Fld) (v : Nat) (s : State) : (s.set f v).slotsM = s.slotsM := rfl
@[simp] theorem State.set_slotsL (f : Fld) (v : Nat) (s : State) : (s.set f v).slotsL = s.slotsL := rfl
@[simp] theorem State.set_breeze (f : Fld) (v : Nat) (s : State) : (s.set f v).breeze = s.breeze := rfl
@[simp] theorem State.set_rings (f : Fld) (v : Nat) (s : State) : (s.set f v).rings = s.rings := rfl
@[simp] theorem State.set_polls (f : Fld) (v : Nat) (s : State) : (s.set f v).polls = s.polls := rfl
@[simp] theorem State.set_funcs (f : Fld) (v : Nat) (s : State) : (s.set f v).funcs = s.funcs := rfl
@[simp] theorem State.set_vfEnable (f : Fld) (v : Nat) (s : State) : (s.set f v).vfEnable = s.vfEnable := rfl
@[simp] theorem State.set_tens (f : Fld) (v : Nat) (s : State) : (s.set f v).tens = s.tens := rfl
@[simp] theorem State.set_granules (f : Fld) (v : Nat) (s : State) : (s.set f v).granules = s.granules := rfl
@[simp] theorem State.set_granPoison (f : Fld) (v : Nat) (s : State) : (s.set f v).granPoison = s.granPoison := rfl
@[simp] theorem State.set_handles (f : Fld) (v : Nat) (s : State) : (s.set f v).handles = s.handles := rfl
@[simp] theorem State.set_startCount (f : Fld) (v : Nat) (s : State) : (s.set f v).startCount = s.startCount := rfl
@[simp] theorem State.set_unitEpoch (f : Fld) (v : Nat) (s : State) : (s.set f v).unitEpoch = s.unitEpoch := rfl
@[simp] theorem State.set_reqEpoch (f : Fld) (v : Nat) (s : State) : (s.set f v).reqEpoch = s.reqEpoch := rfl
@[simp] theorem State.set_lastCommit (f : Fld) (v : Nat) (s : State) : (s.set f v).lastCommit = s.lastCommit := rfl
@[simp] theorem State.set_quiesces (f : Fld) (v : Nat) (s : State) : (s.set f v).quiesces = s.quiesces := rfl
@[simp] theorem State.set_evRings (f : Fld) (v : Nat) (s : State) : (s.set f v).evRings = s.evRings := rfl
@[simp] theorem State.set_coalesce (f : Fld) (v : Nat) (s : State) : (s.set f v).coalesce = s.coalesce := rfl
@[simp] theorem State.set_twins (f : Fld) (v : Nat) (s : State) : (s.set f v).twins = s.twins := rfl
@[simp] theorem State.set_excluded (f : Fld) (v : Nat) (s : State) : (s.set f v).excluded = s.excluded := rfl
@[simp] theorem State.set_heldEv (f : Fld) (v : Nat) (s : State) : (s.set f v).heldEv = s.heldEv := rfl
@[simp] theorem State.set_mgmt (f : Fld) (v : Nat) (s : State) : (s.set f v).mgmt = s.mgmt := rfl
@[simp] theorem State.set_doms (f : Fld) (v : Nat) (s : State) : (s.set f v).doms = s.doms := rfl
@[simp] theorem State.set_supply (f : Fld) (v : Nat) (s : State) : (s.set f v).supply = s.supply := rfl
@[simp] theorem State.set_store (f : Fld) (v : Nat) (s : State) : (s.set f v).store = s.store := rfl
@[simp] theorem State.set_fuses (f : Fld) (v : Nat) (s : State) : (s.set f v).fuses = s.fuses := rfl
@[simp] theorem State.set_boot (f : Fld) (v : Nat) (s : State) : (s.set f v).boot = s.boot := rfl
@[simp] theorem State.set_links (f : Fld) (v : Nat) (s : State) : (s.set f v).links = s.links := rfl
@[simp] theorem State.set_domain (f : Fld) (v : Nat) (s : State) : (s.set f v).domain = s.domain := rfl
@[simp] theorem State.set_rimes (f : Fld) (v : Nat) (s : State) : (s.set f v).rimes = s.rimes := rfl
@[simp] theorem State.set_hbmLog (f : Fld) (v : Nat) (s : State) : (s.set f v).hbmLog = s.hbmLog := rfl
@[simp] theorem State.set_hbmRow (f : Fld) (v : Nat) (s : State) : (s.set f v).hbmRow = s.hbmRow := rfl
@[simp] theorem State.set_hbmAhead (f : Fld) (v : Nat) (s : State) : (s.set f v).hbmAhead = s.hbmAhead := rfl
@[simp] theorem State.set_hbmBytes (f : Fld) (v : Nat) (s : State) : (s.set f v).hbmBytes = s.hbmBytes := rfl
@[simp] theorem State.set_scrubs (f : Fld) (v : Nat) (s : State) : (s.set f v).scrubs = s.scrubs := rfl
@[simp] theorem State.set_exclWait (f : Fld) (v : Nat) (s : State) : (s.set f v).exclWait = s.exclWait := rfl
@[simp] theorem State.set_retiring (f : Fld) (v : Nat) (s : State) : (s.set f v).retiring = s.retiring := rfl
@[simp] theorem State.set_turn (f : Fld) (v : Nat) (s : State) : (s.set f v).turn = s.turn := rfl
@[simp] theorem State.set_mbx (f : Fld) (v : Nat) (s : State) : (s.set f v).mbx = s.mbx := rfl
@[simp] theorem State.set_mbxHeld (f : Fld) (v : Nat) (s : State) : (s.set f v).mbxHeld = s.mbxHeld := rfl
@[simp] theorem State.set_snap (f : Fld) (v : Nat) (s : State) : (s.set f v).snap = s.snap := rfl

@[simp] theorem State.unsetRange_phase (lo hi : Nat) (s : State) : (s.unsetRange lo hi).phase = s.phase := rfl
@[simp] theorem State.unsetRange_frost (lo hi : Nat) (s : State) : (s.unsetRange lo hi).frost = s.frost := rfl
@[simp] theorem State.unsetRange_tick (lo hi : Nat) (s : State) : (s.unsetRange lo hi).tick = s.tick := rfl
@[simp] theorem State.unsetRange_free (lo hi : Nat) (s : State) : (s.unsetRange lo hi).free = s.free := rfl
@[simp] theorem State.unsetRange_out (lo hi : Nat) (s : State) : (s.unsetRange lo hi).out = s.out := rfl
@[simp] theorem State.unsetRange_pending (lo hi : Nat) (s : State) : (s.unsetRange lo hi).pending = s.pending := rfl
@[simp] theorem State.unsetRange_pins (lo hi : Nat) (s : State) : (s.unsetRange lo hi).pins = s.pins := rfl
@[simp] theorem State.unsetRange_tiles (lo hi : Nat) (s : State) : (s.unsetRange lo hi).tiles = s.tiles := rfl
@[simp] theorem State.unsetRange_isobar (lo hi : Nat) (s : State) : (s.unsetRange lo hi).isobar = s.isobar := rfl
@[simp] theorem State.unsetRange_isoSeq (lo hi : Nat) (s : State) : (s.unsetRange lo hi).isoSeq = s.isoSeq := rfl
@[simp] theorem State.unsetRange_waiters (lo hi : Nat) (s : State) : (s.unsetRange lo hi).waiters = s.waiters := rfl
@[simp] theorem State.unsetRange_touched (lo hi : Nat) (s : State) : (s.unsetRange lo hi).touched = s.touched := rfl
@[simp] theorem State.unsetRange_pqs (lo hi : Nat) (s : State) : (s.unsetRange lo hi).pqs = s.pqs := rfl
@[simp] theorem State.unsetRange_flits (lo hi : Nat) (s : State) : (s.unsetRange lo hi).flits = s.flits := rfl
@[simp] theorem State.unsetRange_hcq (lo hi : Nat) (s : State) : (s.unsetRange lo hi).hcq = s.hcq := rfl
@[simp] theorem State.unsetRange_hbm (lo hi : Nat) (s : State) : (s.unsetRange lo hi).hbm = s.hbm := rfl
@[simp] theorem State.unsetRange_poison (lo hi : Nat) (s : State) : (s.unsetRange lo hi).poison = s.poison := rfl
@[simp] theorem State.unsetRange_moved (lo hi : Nat) (s : State) : (s.unsetRange lo hi).moved = s.moved := rfl
@[simp] theorem State.unsetRange_rewrites (lo hi : Nat) (s : State) : (s.unsetRange lo hi).rewrites = s.rewrites := rfl
@[simp] theorem State.unsetRange_slotsJ (lo hi : Nat) (s : State) : (s.unsetRange lo hi).slotsJ = s.slotsJ := rfl
@[simp] theorem State.unsetRange_slotsB (lo hi : Nat) (s : State) : (s.unsetRange lo hi).slotsB = s.slotsB := rfl
@[simp] theorem State.unsetRange_slotsM (lo hi : Nat) (s : State) : (s.unsetRange lo hi).slotsM = s.slotsM := rfl
@[simp] theorem State.unsetRange_slotsL (lo hi : Nat) (s : State) : (s.unsetRange lo hi).slotsL = s.slotsL := rfl
@[simp] theorem State.unsetRange_breeze (lo hi : Nat) (s : State) : (s.unsetRange lo hi).breeze = s.breeze := rfl
@[simp] theorem State.unsetRange_rings (lo hi : Nat) (s : State) : (s.unsetRange lo hi).rings = s.rings := rfl
@[simp] theorem State.unsetRange_polls (lo hi : Nat) (s : State) : (s.unsetRange lo hi).polls = s.polls := rfl
@[simp] theorem State.unsetRange_funcs (lo hi : Nat) (s : State) : (s.unsetRange lo hi).funcs = s.funcs := rfl
@[simp] theorem State.unsetRange_vfEnable (lo hi : Nat) (s : State) : (s.unsetRange lo hi).vfEnable = s.vfEnable := rfl
@[simp] theorem State.unsetRange_tens (lo hi : Nat) (s : State) : (s.unsetRange lo hi).tens = s.tens := rfl
@[simp] theorem State.unsetRange_granules (lo hi : Nat) (s : State) : (s.unsetRange lo hi).granules = s.granules := rfl
@[simp] theorem State.unsetRange_granPoison (lo hi : Nat) (s : State) : (s.unsetRange lo hi).granPoison = s.granPoison := rfl
@[simp] theorem State.unsetRange_handles (lo hi : Nat) (s : State) : (s.unsetRange lo hi).handles = s.handles := rfl
@[simp] theorem State.unsetRange_startCount (lo hi : Nat) (s : State) : (s.unsetRange lo hi).startCount = s.startCount := rfl
@[simp] theorem State.unsetRange_unitEpoch (lo hi : Nat) (s : State) : (s.unsetRange lo hi).unitEpoch = s.unitEpoch := rfl
@[simp] theorem State.unsetRange_reqEpoch (lo hi : Nat) (s : State) : (s.unsetRange lo hi).reqEpoch = s.reqEpoch := rfl
@[simp] theorem State.unsetRange_lastCommit (lo hi : Nat) (s : State) : (s.unsetRange lo hi).lastCommit = s.lastCommit := rfl
@[simp] theorem State.unsetRange_quiesces (lo hi : Nat) (s : State) : (s.unsetRange lo hi).quiesces = s.quiesces := rfl
@[simp] theorem State.unsetRange_evRings (lo hi : Nat) (s : State) : (s.unsetRange lo hi).evRings = s.evRings := rfl
@[simp] theorem State.unsetRange_coalesce (lo hi : Nat) (s : State) : (s.unsetRange lo hi).coalesce = s.coalesce := rfl
@[simp] theorem State.unsetRange_twins (lo hi : Nat) (s : State) : (s.unsetRange lo hi).twins = s.twins := rfl
@[simp] theorem State.unsetRange_excluded (lo hi : Nat) (s : State) : (s.unsetRange lo hi).excluded = s.excluded := rfl
@[simp] theorem State.unsetRange_heldEv (lo hi : Nat) (s : State) : (s.unsetRange lo hi).heldEv = s.heldEv := rfl
@[simp] theorem State.unsetRange_mgmt (lo hi : Nat) (s : State) : (s.unsetRange lo hi).mgmt = s.mgmt := rfl
@[simp] theorem State.unsetRange_doms (lo hi : Nat) (s : State) : (s.unsetRange lo hi).doms = s.doms := rfl
@[simp] theorem State.unsetRange_supply (lo hi : Nat) (s : State) : (s.unsetRange lo hi).supply = s.supply := rfl
@[simp] theorem State.unsetRange_store (lo hi : Nat) (s : State) : (s.unsetRange lo hi).store = s.store := rfl
@[simp] theorem State.unsetRange_fuses (lo hi : Nat) (s : State) : (s.unsetRange lo hi).fuses = s.fuses := rfl
@[simp] theorem State.unsetRange_boot (lo hi : Nat) (s : State) : (s.unsetRange lo hi).boot = s.boot := rfl
@[simp] theorem State.unsetRange_links (lo hi : Nat) (s : State) : (s.unsetRange lo hi).links = s.links := rfl
@[simp] theorem State.unsetRange_domain (lo hi : Nat) (s : State) : (s.unsetRange lo hi).domain = s.domain := rfl
@[simp] theorem State.unsetRange_rimes (lo hi : Nat) (s : State) : (s.unsetRange lo hi).rimes = s.rimes := rfl
@[simp] theorem State.unsetRange_hbmLog (lo hi : Nat) (s : State) : (s.unsetRange lo hi).hbmLog = s.hbmLog := rfl
@[simp] theorem State.unsetRange_hbmRow (lo hi : Nat) (s : State) : (s.unsetRange lo hi).hbmRow = s.hbmRow := rfl
@[simp] theorem State.unsetRange_hbmAhead (lo hi : Nat) (s : State) : (s.unsetRange lo hi).hbmAhead = s.hbmAhead := rfl
@[simp] theorem State.unsetRange_hbmBytes (lo hi : Nat) (s : State) : (s.unsetRange lo hi).hbmBytes = s.hbmBytes := rfl
@[simp] theorem State.unsetRange_scrubs (lo hi : Nat) (s : State) : (s.unsetRange lo hi).scrubs = s.scrubs := rfl
@[simp] theorem State.unsetRange_exclWait (lo hi : Nat) (s : State) : (s.unsetRange lo hi).exclWait = s.exclWait := rfl
@[simp] theorem State.unsetRange_retiring (lo hi : Nat) (s : State) : (s.unsetRange lo hi).retiring = s.retiring := rfl
@[simp] theorem State.unsetRange_turn (lo hi : Nat) (s : State) : (s.unsetRange lo hi).turn = s.turn := rfl
@[simp] theorem State.unsetRange_mbx (lo hi : Nat) (s : State) : (s.unsetRange lo hi).mbx = s.mbx := rfl
@[simp] theorem State.unsetRange_mbxHeld (lo hi : Nat) (s : State) : (s.unsetRange lo hi).mbxHeld = s.mbxHeld := rfl
@[simp] theorem State.unsetRange_snap (lo hi : Nat) (s : State) : (s.unsetRange lo hi).snap = s.snap := rfl

@[simp] theorem State.draw_phase (s : State) : s.draw.phase = s.phase := rfl
@[simp] theorem State.draw_frost (s : State) : s.draw.frost = s.frost := rfl
@[simp] theorem State.draw_tick (s : State) : s.draw.tick = s.tick := rfl
@[simp] theorem State.draw_regs (s : State) : s.draw.regs = s.regs := rfl
@[simp] theorem State.draw_out (s : State) : s.draw.out = s.out := rfl
@[simp] theorem State.draw_pending (s : State) : s.draw.pending = s.pending := rfl
@[simp] theorem State.draw_pins (s : State) : s.draw.pins = s.pins := rfl
@[simp] theorem State.draw_tiles (s : State) : s.draw.tiles = s.tiles := rfl
@[simp] theorem State.draw_isobar (s : State) : s.draw.isobar = s.isobar := rfl
@[simp] theorem State.draw_isoSeq (s : State) : s.draw.isoSeq = s.isoSeq := rfl
@[simp] theorem State.draw_waiters (s : State) : s.draw.waiters = s.waiters := rfl
@[simp] theorem State.draw_touched (s : State) : s.draw.touched = s.touched := rfl
@[simp] theorem State.draw_pqs (s : State) : s.draw.pqs = s.pqs := rfl
@[simp] theorem State.draw_flits (s : State) : s.draw.flits = s.flits := rfl
@[simp] theorem State.draw_hcq (s : State) : s.draw.hcq = s.hcq := rfl
@[simp] theorem State.draw_hbm (s : State) : s.draw.hbm = s.hbm := rfl
@[simp] theorem State.draw_poison (s : State) : s.draw.poison = s.poison := rfl
@[simp] theorem State.draw_moved (s : State) : s.draw.moved = s.moved := rfl
@[simp] theorem State.draw_rewrites (s : State) : s.draw.rewrites = s.rewrites := rfl
@[simp] theorem State.draw_slotsJ (s : State) : s.draw.slotsJ = s.slotsJ := rfl
@[simp] theorem State.draw_slotsB (s : State) : s.draw.slotsB = s.slotsB := rfl
@[simp] theorem State.draw_slotsM (s : State) : s.draw.slotsM = s.slotsM := rfl
@[simp] theorem State.draw_slotsL (s : State) : s.draw.slotsL = s.slotsL := rfl
@[simp] theorem State.draw_breeze (s : State) : s.draw.breeze = s.breeze := rfl
@[simp] theorem State.draw_rings (s : State) : s.draw.rings = s.rings := rfl
@[simp] theorem State.draw_polls (s : State) : s.draw.polls = s.polls := rfl
@[simp] theorem State.draw_funcs (s : State) : s.draw.funcs = s.funcs := rfl
@[simp] theorem State.draw_vfEnable (s : State) : s.draw.vfEnable = s.vfEnable := rfl
@[simp] theorem State.draw_tens (s : State) : s.draw.tens = s.tens := rfl
@[simp] theorem State.draw_granules (s : State) : s.draw.granules = s.granules := rfl
@[simp] theorem State.draw_granPoison (s : State) : s.draw.granPoison = s.granPoison := rfl
@[simp] theorem State.draw_handles (s : State) : s.draw.handles = s.handles := rfl
@[simp] theorem State.draw_startCount (s : State) : s.draw.startCount = s.startCount := rfl
@[simp] theorem State.draw_unitEpoch (s : State) : s.draw.unitEpoch = s.unitEpoch := rfl
@[simp] theorem State.draw_reqEpoch (s : State) : s.draw.reqEpoch = s.reqEpoch := rfl
@[simp] theorem State.draw_lastCommit (s : State) : s.draw.lastCommit = s.lastCommit := rfl
@[simp] theorem State.draw_quiesces (s : State) : s.draw.quiesces = s.quiesces := rfl
@[simp] theorem State.draw_evRings (s : State) : s.draw.evRings = s.evRings := rfl
@[simp] theorem State.draw_coalesce (s : State) : s.draw.coalesce = s.coalesce := rfl
@[simp] theorem State.draw_twins (s : State) : s.draw.twins = s.twins := rfl
@[simp] theorem State.draw_excluded (s : State) : s.draw.excluded = s.excluded := rfl
@[simp] theorem State.draw_heldEv (s : State) : s.draw.heldEv = s.heldEv := rfl
@[simp] theorem State.draw_mgmt (s : State) : s.draw.mgmt = s.mgmt := rfl
@[simp] theorem State.draw_doms (s : State) : s.draw.doms = s.doms := rfl
@[simp] theorem State.draw_supply (s : State) : s.draw.supply = s.supply := rfl
@[simp] theorem State.draw_store (s : State) : s.draw.store = s.store := rfl
@[simp] theorem State.draw_fuses (s : State) : s.draw.fuses = s.fuses := rfl
@[simp] theorem State.draw_boot (s : State) : s.draw.boot = s.boot := rfl
@[simp] theorem State.draw_links (s : State) : s.draw.links = s.links := rfl
@[simp] theorem State.draw_domain (s : State) : s.draw.domain = s.domain := rfl
@[simp] theorem State.draw_rimes (s : State) : s.draw.rimes = s.rimes := rfl
@[simp] theorem State.draw_hbmLog (s : State) : s.draw.hbmLog = s.hbmLog := rfl
@[simp] theorem State.draw_hbmRow (s : State) : s.draw.hbmRow = s.hbmRow := rfl
@[simp] theorem State.draw_hbmAhead (s : State) : s.draw.hbmAhead = s.hbmAhead := rfl
@[simp] theorem State.draw_hbmBytes (s : State) : s.draw.hbmBytes = s.hbmBytes := rfl
@[simp] theorem State.draw_scrubs (s : State) : s.draw.scrubs = s.scrubs := rfl
@[simp] theorem State.draw_exclWait (s : State) : s.draw.exclWait = s.exclWait := rfl
@[simp] theorem State.draw_retiring (s : State) : s.draw.retiring = s.retiring := rfl
@[simp] theorem State.draw_turn (s : State) : s.draw.turn = s.turn := rfl
@[simp] theorem State.draw_mbx (s : State) : s.draw.mbx = s.mbx := rfl
@[simp] theorem State.draw_mbxHeld (s : State) : s.draw.mbxHeld = s.mbxHeld := rfl
@[simp] theorem State.draw_snap (s : State) : s.draw.snap = s.snap := rfl

@[simp] theorem State.emit_phase (o : Out) (s : State) : (s.emit o).phase = s.phase := rfl
@[simp] theorem State.emit_frost (o : Out) (s : State) : (s.emit o).frost = s.frost := rfl
@[simp] theorem State.emit_tick (o : Out) (s : State) : (s.emit o).tick = s.tick := rfl
@[simp] theorem State.emit_regs (o : Out) (s : State) : (s.emit o).regs = s.regs := rfl
@[simp] theorem State.emit_free (o : Out) (s : State) : (s.emit o).free = s.free := rfl
@[simp] theorem State.emit_pending (o : Out) (s : State) : (s.emit o).pending = s.pending := rfl
@[simp] theorem State.emit_pins (o : Out) (s : State) : (s.emit o).pins = s.pins := rfl
@[simp] theorem State.emit_tiles (o : Out) (s : State) : (s.emit o).tiles = s.tiles := rfl
@[simp] theorem State.emit_isobar (o : Out) (s : State) : (s.emit o).isobar = s.isobar := rfl
@[simp] theorem State.emit_isoSeq (o : Out) (s : State) : (s.emit o).isoSeq = s.isoSeq := rfl
@[simp] theorem State.emit_waiters (o : Out) (s : State) : (s.emit o).waiters = s.waiters := rfl
@[simp] theorem State.emit_touched (o : Out) (s : State) : (s.emit o).touched = s.touched := rfl
@[simp] theorem State.emit_pqs (o : Out) (s : State) : (s.emit o).pqs = s.pqs := rfl
@[simp] theorem State.emit_flits (o : Out) (s : State) : (s.emit o).flits = s.flits := rfl
@[simp] theorem State.emit_hcq (o : Out) (s : State) : (s.emit o).hcq = s.hcq := rfl
@[simp] theorem State.emit_hbm (o : Out) (s : State) : (s.emit o).hbm = s.hbm := rfl
@[simp] theorem State.emit_poison (o : Out) (s : State) : (s.emit o).poison = s.poison := rfl
@[simp] theorem State.emit_moved (o : Out) (s : State) : (s.emit o).moved = s.moved := rfl
@[simp] theorem State.emit_rewrites (o : Out) (s : State) : (s.emit o).rewrites = s.rewrites := rfl
@[simp] theorem State.emit_slotsJ (o : Out) (s : State) : (s.emit o).slotsJ = s.slotsJ := rfl
@[simp] theorem State.emit_slotsB (o : Out) (s : State) : (s.emit o).slotsB = s.slotsB := rfl
@[simp] theorem State.emit_slotsM (o : Out) (s : State) : (s.emit o).slotsM = s.slotsM := rfl
@[simp] theorem State.emit_slotsL (o : Out) (s : State) : (s.emit o).slotsL = s.slotsL := rfl
@[simp] theorem State.emit_breeze (o : Out) (s : State) : (s.emit o).breeze = s.breeze := rfl
@[simp] theorem State.emit_rings (o : Out) (s : State) : (s.emit o).rings = s.rings := rfl
@[simp] theorem State.emit_polls (o : Out) (s : State) : (s.emit o).polls = s.polls := rfl
@[simp] theorem State.emit_funcs (o : Out) (s : State) : (s.emit o).funcs = s.funcs := rfl
@[simp] theorem State.emit_vfEnable (o : Out) (s : State) : (s.emit o).vfEnable = s.vfEnable := rfl
@[simp] theorem State.emit_tens (o : Out) (s : State) : (s.emit o).tens = s.tens := rfl
@[simp] theorem State.emit_granules (o : Out) (s : State) : (s.emit o).granules = s.granules := rfl
@[simp] theorem State.emit_granPoison (o : Out) (s : State) : (s.emit o).granPoison = s.granPoison := rfl
@[simp] theorem State.emit_handles (o : Out) (s : State) : (s.emit o).handles = s.handles := rfl
@[simp] theorem State.emit_startCount (o : Out) (s : State) : (s.emit o).startCount = s.startCount := rfl
@[simp] theorem State.emit_unitEpoch (o : Out) (s : State) : (s.emit o).unitEpoch = s.unitEpoch := rfl
@[simp] theorem State.emit_reqEpoch (o : Out) (s : State) : (s.emit o).reqEpoch = s.reqEpoch := rfl
@[simp] theorem State.emit_lastCommit (o : Out) (s : State) : (s.emit o).lastCommit = s.lastCommit := rfl
@[simp] theorem State.emit_quiesces (o : Out) (s : State) : (s.emit o).quiesces = s.quiesces := rfl
@[simp] theorem State.emit_evRings (o : Out) (s : State) : (s.emit o).evRings = s.evRings := rfl
@[simp] theorem State.emit_coalesce (o : Out) (s : State) : (s.emit o).coalesce = s.coalesce := rfl
@[simp] theorem State.emit_twins (o : Out) (s : State) : (s.emit o).twins = s.twins := rfl
@[simp] theorem State.emit_excluded (o : Out) (s : State) : (s.emit o).excluded = s.excluded := rfl
@[simp] theorem State.emit_heldEv (o : Out) (s : State) : (s.emit o).heldEv = s.heldEv := rfl
@[simp] theorem State.emit_mgmt (o : Out) (s : State) : (s.emit o).mgmt = s.mgmt := rfl
@[simp] theorem State.emit_doms (o : Out) (s : State) : (s.emit o).doms = s.doms := rfl
@[simp] theorem State.emit_supply (o : Out) (s : State) : (s.emit o).supply = s.supply := rfl
@[simp] theorem State.emit_store (o : Out) (s : State) : (s.emit o).store = s.store := rfl
@[simp] theorem State.emit_fuses (o : Out) (s : State) : (s.emit o).fuses = s.fuses := rfl
@[simp] theorem State.emit_boot (o : Out) (s : State) : (s.emit o).boot = s.boot := rfl
@[simp] theorem State.emit_links (o : Out) (s : State) : (s.emit o).links = s.links := rfl
@[simp] theorem State.emit_domain (o : Out) (s : State) : (s.emit o).domain = s.domain := rfl
@[simp] theorem State.emit_rimes (o : Out) (s : State) : (s.emit o).rimes = s.rimes := rfl
@[simp] theorem State.emit_hbmLog (o : Out) (s : State) : (s.emit o).hbmLog = s.hbmLog := rfl
@[simp] theorem State.emit_hbmRow (o : Out) (s : State) : (s.emit o).hbmRow = s.hbmRow := rfl
@[simp] theorem State.emit_hbmAhead (o : Out) (s : State) : (s.emit o).hbmAhead = s.hbmAhead := rfl
@[simp] theorem State.emit_hbmBytes (o : Out) (s : State) : (s.emit o).hbmBytes = s.hbmBytes := rfl
@[simp] theorem State.emit_scrubs (o : Out) (s : State) : (s.emit o).scrubs = s.scrubs := rfl
@[simp] theorem State.emit_exclWait (o : Out) (s : State) : (s.emit o).exclWait = s.exclWait := rfl
@[simp] theorem State.emit_retiring (o : Out) (s : State) : (s.emit o).retiring = s.retiring := rfl
@[simp] theorem State.emit_turn (o : Out) (s : State) : (s.emit o).turn = s.turn := rfl
@[simp] theorem State.emit_mbx (o : Out) (s : State) : (s.emit o).mbx = s.mbx := rfl
@[simp] theorem State.emit_mbxHeld (o : Out) (s : State) : (s.emit o).mbxHeld = s.mbxHeld := rfl
@[simp] theorem State.emit_snap (o : Out) (s : State) : (s.emit o).snap = s.snap := rfl

@[simp] theorem State.setPq_phase (q : Nat) (v : Queue) (s : State) : (s.setPq q v).phase = s.phase := rfl
@[simp] theorem State.setPq_frost (q : Nat) (v : Queue) (s : State) : (s.setPq q v).frost = s.frost := rfl
@[simp] theorem State.setPq_tick (q : Nat) (v : Queue) (s : State) : (s.setPq q v).tick = s.tick := rfl
@[simp] theorem State.setPq_regs (q : Nat) (v : Queue) (s : State) : (s.setPq q v).regs = s.regs := rfl
@[simp] theorem State.setPq_free (q : Nat) (v : Queue) (s : State) : (s.setPq q v).free = s.free := rfl
@[simp] theorem State.setPq_out (q : Nat) (v : Queue) (s : State) : (s.setPq q v).out = s.out := rfl
@[simp] theorem State.setPq_pending (q : Nat) (v : Queue) (s : State) : (s.setPq q v).pending = s.pending := rfl
@[simp] theorem State.setPq_pins (q : Nat) (v : Queue) (s : State) : (s.setPq q v).pins = s.pins := rfl
@[simp] theorem State.setPq_tiles (q : Nat) (v : Queue) (s : State) : (s.setPq q v).tiles = s.tiles := rfl
@[simp] theorem State.setPq_isobar (q : Nat) (v : Queue) (s : State) : (s.setPq q v).isobar = s.isobar := rfl
@[simp] theorem State.setPq_isoSeq (q : Nat) (v : Queue) (s : State) : (s.setPq q v).isoSeq = s.isoSeq := rfl
@[simp] theorem State.setPq_waiters (q : Nat) (v : Queue) (s : State) : (s.setPq q v).waiters = s.waiters := rfl
@[simp] theorem State.setPq_touched (q : Nat) (v : Queue) (s : State) : (s.setPq q v).touched = s.touched := rfl
@[simp] theorem State.setPq_flits (q : Nat) (v : Queue) (s : State) : (s.setPq q v).flits = s.flits := rfl
@[simp] theorem State.setPq_hcq (q : Nat) (v : Queue) (s : State) : (s.setPq q v).hcq = s.hcq := rfl
@[simp] theorem State.setPq_hbm (q : Nat) (v : Queue) (s : State) : (s.setPq q v).hbm = s.hbm := rfl
@[simp] theorem State.setPq_poison (q : Nat) (v : Queue) (s : State) : (s.setPq q v).poison = s.poison := rfl
@[simp] theorem State.setPq_moved (q : Nat) (v : Queue) (s : State) : (s.setPq q v).moved = s.moved := rfl
@[simp] theorem State.setPq_rewrites (q : Nat) (v : Queue) (s : State) : (s.setPq q v).rewrites = s.rewrites := rfl
@[simp] theorem State.setPq_slotsJ (q : Nat) (v : Queue) (s : State) : (s.setPq q v).slotsJ = s.slotsJ := rfl
@[simp] theorem State.setPq_slotsB (q : Nat) (v : Queue) (s : State) : (s.setPq q v).slotsB = s.slotsB := rfl
@[simp] theorem State.setPq_slotsM (q : Nat) (v : Queue) (s : State) : (s.setPq q v).slotsM = s.slotsM := rfl
@[simp] theorem State.setPq_slotsL (q : Nat) (v : Queue) (s : State) : (s.setPq q v).slotsL = s.slotsL := rfl
@[simp] theorem State.setPq_breeze (q : Nat) (v : Queue) (s : State) : (s.setPq q v).breeze = s.breeze := rfl
@[simp] theorem State.setPq_rings (q : Nat) (v : Queue) (s : State) : (s.setPq q v).rings = s.rings := rfl
@[simp] theorem State.setPq_polls (q : Nat) (v : Queue) (s : State) : (s.setPq q v).polls = s.polls := rfl
@[simp] theorem State.setPq_funcs (q : Nat) (v : Queue) (s : State) : (s.setPq q v).funcs = s.funcs := rfl
@[simp] theorem State.setPq_vfEnable (q : Nat) (v : Queue) (s : State) : (s.setPq q v).vfEnable = s.vfEnable := rfl
@[simp] theorem State.setPq_tens (q : Nat) (v : Queue) (s : State) : (s.setPq q v).tens = s.tens := rfl
@[simp] theorem State.setPq_granules (q : Nat) (v : Queue) (s : State) : (s.setPq q v).granules = s.granules := rfl
@[simp] theorem State.setPq_granPoison (q : Nat) (v : Queue) (s : State) : (s.setPq q v).granPoison = s.granPoison := rfl
@[simp] theorem State.setPq_handles (q : Nat) (v : Queue) (s : State) : (s.setPq q v).handles = s.handles := rfl
@[simp] theorem State.setPq_startCount (q : Nat) (v : Queue) (s : State) : (s.setPq q v).startCount = s.startCount := rfl
@[simp] theorem State.setPq_unitEpoch (q : Nat) (v : Queue) (s : State) : (s.setPq q v).unitEpoch = s.unitEpoch := rfl
@[simp] theorem State.setPq_reqEpoch (q : Nat) (v : Queue) (s : State) : (s.setPq q v).reqEpoch = s.reqEpoch := rfl
@[simp] theorem State.setPq_lastCommit (q : Nat) (v : Queue) (s : State) : (s.setPq q v).lastCommit = s.lastCommit := rfl
@[simp] theorem State.setPq_quiesces (q : Nat) (v : Queue) (s : State) : (s.setPq q v).quiesces = s.quiesces := rfl
@[simp] theorem State.setPq_evRings (q : Nat) (v : Queue) (s : State) : (s.setPq q v).evRings = s.evRings := rfl
@[simp] theorem State.setPq_coalesce (q : Nat) (v : Queue) (s : State) : (s.setPq q v).coalesce = s.coalesce := rfl
@[simp] theorem State.setPq_twins (q : Nat) (v : Queue) (s : State) : (s.setPq q v).twins = s.twins := rfl
@[simp] theorem State.setPq_excluded (q : Nat) (v : Queue) (s : State) : (s.setPq q v).excluded = s.excluded := rfl
@[simp] theorem State.setPq_heldEv (q : Nat) (v : Queue) (s : State) : (s.setPq q v).heldEv = s.heldEv := rfl
@[simp] theorem State.setPq_mgmt (q : Nat) (v : Queue) (s : State) : (s.setPq q v).mgmt = s.mgmt := rfl
@[simp] theorem State.setPq_doms (q : Nat) (v : Queue) (s : State) : (s.setPq q v).doms = s.doms := rfl
@[simp] theorem State.setPq_supply (q : Nat) (v : Queue) (s : State) : (s.setPq q v).supply = s.supply := rfl
@[simp] theorem State.setPq_store (q : Nat) (v : Queue) (s : State) : (s.setPq q v).store = s.store := rfl
@[simp] theorem State.setPq_fuses (q : Nat) (v : Queue) (s : State) : (s.setPq q v).fuses = s.fuses := rfl
@[simp] theorem State.setPq_boot (q : Nat) (v : Queue) (s : State) : (s.setPq q v).boot = s.boot := rfl
@[simp] theorem State.setPq_links (q : Nat) (v : Queue) (s : State) : (s.setPq q v).links = s.links := rfl
@[simp] theorem State.setPq_domain (q : Nat) (v : Queue) (s : State) : (s.setPq q v).domain = s.domain := rfl
@[simp] theorem State.setPq_rimes (q : Nat) (v : Queue) (s : State) : (s.setPq q v).rimes = s.rimes := rfl
@[simp] theorem State.setPq_hbmLog (q : Nat) (v : Queue) (s : State) : (s.setPq q v).hbmLog = s.hbmLog := rfl
@[simp] theorem State.setPq_hbmRow (q : Nat) (v : Queue) (s : State) : (s.setPq q v).hbmRow = s.hbmRow := rfl
@[simp] theorem State.setPq_hbmAhead (q : Nat) (v : Queue) (s : State) : (s.setPq q v).hbmAhead = s.hbmAhead := rfl
@[simp] theorem State.setPq_hbmBytes (q : Nat) (v : Queue) (s : State) : (s.setPq q v).hbmBytes = s.hbmBytes := rfl
@[simp] theorem State.setPq_scrubs (q : Nat) (v : Queue) (s : State) : (s.setPq q v).scrubs = s.scrubs := rfl
@[simp] theorem State.setPq_exclWait (q : Nat) (v : Queue) (s : State) : (s.setPq q v).exclWait = s.exclWait := rfl
@[simp] theorem State.setPq_retiring (q : Nat) (v : Queue) (s : State) : (s.setPq q v).retiring = s.retiring := rfl
@[simp] theorem State.setPq_turn (q : Nat) (v : Queue) (s : State) : (s.setPq q v).turn = s.turn := rfl
@[simp] theorem State.setPq_mbx (q : Nat) (v : Queue) (s : State) : (s.setPq q v).mbx = s.mbx := rfl
@[simp] theorem State.setPq_mbxHeld (q : Nat) (v : Queue) (s : State) : (s.setPq q v).mbxHeld = s.mbxHeld := rfl
@[simp] theorem State.setPq_snap (q : Nat) (v : Queue) (s : State) : (s.setPq q v).snap = s.snap := rfl

@[simp] theorem State.hbmWrite_phase (a : Nat) (bs : List Byte) (s : State) : (s.hbmWrite a bs).phase = s.phase := rfl
@[simp] theorem State.hbmWrite_frost (a : Nat) (bs : List Byte) (s : State) : (s.hbmWrite a bs).frost = s.frost := rfl
@[simp] theorem State.hbmWrite_tick (a : Nat) (bs : List Byte) (s : State) : (s.hbmWrite a bs).tick = s.tick := rfl
@[simp] theorem State.hbmWrite_regs (a : Nat) (bs : List Byte) (s : State) : (s.hbmWrite a bs).regs = s.regs := rfl
@[simp] theorem State.hbmWrite_free (a : Nat) (bs : List Byte) (s : State) : (s.hbmWrite a bs).free = s.free := rfl
@[simp] theorem State.hbmWrite_out (a : Nat) (bs : List Byte) (s : State) : (s.hbmWrite a bs).out = s.out := rfl
@[simp] theorem State.hbmWrite_pending (a : Nat) (bs : List Byte) (s : State) : (s.hbmWrite a bs).pending = s.pending := rfl
@[simp] theorem State.hbmWrite_pins (a : Nat) (bs : List Byte) (s : State) : (s.hbmWrite a bs).pins = s.pins := rfl
@[simp] theorem State.hbmWrite_tiles (a : Nat) (bs : List Byte) (s : State) : (s.hbmWrite a bs).tiles = s.tiles := rfl
@[simp] theorem State.hbmWrite_isobar (a : Nat) (bs : List Byte) (s : State) : (s.hbmWrite a bs).isobar = s.isobar := rfl
@[simp] theorem State.hbmWrite_isoSeq (a : Nat) (bs : List Byte) (s : State) : (s.hbmWrite a bs).isoSeq = s.isoSeq := rfl
@[simp] theorem State.hbmWrite_waiters (a : Nat) (bs : List Byte) (s : State) : (s.hbmWrite a bs).waiters = s.waiters := rfl
@[simp] theorem State.hbmWrite_touched (a : Nat) (bs : List Byte) (s : State) : (s.hbmWrite a bs).touched = s.touched := rfl
@[simp] theorem State.hbmWrite_pqs (a : Nat) (bs : List Byte) (s : State) : (s.hbmWrite a bs).pqs = s.pqs := rfl
@[simp] theorem State.hbmWrite_flits (a : Nat) (bs : List Byte) (s : State) : (s.hbmWrite a bs).flits = s.flits := rfl
@[simp] theorem State.hbmWrite_hcq (a : Nat) (bs : List Byte) (s : State) : (s.hbmWrite a bs).hcq = s.hcq := rfl
@[simp] theorem State.hbmWrite_poison (a : Nat) (bs : List Byte) (s : State) : (s.hbmWrite a bs).poison = s.poison := rfl
@[simp] theorem State.hbmWrite_moved (a : Nat) (bs : List Byte) (s : State) : (s.hbmWrite a bs).moved = s.moved := rfl
@[simp] theorem State.hbmWrite_rewrites (a : Nat) (bs : List Byte) (s : State) : (s.hbmWrite a bs).rewrites = s.rewrites := rfl
@[simp] theorem State.hbmWrite_slotsJ (a : Nat) (bs : List Byte) (s : State) : (s.hbmWrite a bs).slotsJ = s.slotsJ := rfl
@[simp] theorem State.hbmWrite_slotsB (a : Nat) (bs : List Byte) (s : State) : (s.hbmWrite a bs).slotsB = s.slotsB := rfl
@[simp] theorem State.hbmWrite_slotsM (a : Nat) (bs : List Byte) (s : State) : (s.hbmWrite a bs).slotsM = s.slotsM := rfl
@[simp] theorem State.hbmWrite_slotsL (a : Nat) (bs : List Byte) (s : State) : (s.hbmWrite a bs).slotsL = s.slotsL := rfl
@[simp] theorem State.hbmWrite_breeze (a : Nat) (bs : List Byte) (s : State) : (s.hbmWrite a bs).breeze = s.breeze := rfl
@[simp] theorem State.hbmWrite_rings (a : Nat) (bs : List Byte) (s : State) : (s.hbmWrite a bs).rings = s.rings := rfl
@[simp] theorem State.hbmWrite_polls (a : Nat) (bs : List Byte) (s : State) : (s.hbmWrite a bs).polls = s.polls := rfl
@[simp] theorem State.hbmWrite_funcs (a : Nat) (bs : List Byte) (s : State) : (s.hbmWrite a bs).funcs = s.funcs := rfl
@[simp] theorem State.hbmWrite_vfEnable (a : Nat) (bs : List Byte) (s : State) : (s.hbmWrite a bs).vfEnable = s.vfEnable := rfl
@[simp] theorem State.hbmWrite_tens (a : Nat) (bs : List Byte) (s : State) : (s.hbmWrite a bs).tens = s.tens := rfl
@[simp] theorem State.hbmWrite_granules (a : Nat) (bs : List Byte) (s : State) : (s.hbmWrite a bs).granules = s.granules := rfl
@[simp] theorem State.hbmWrite_granPoison (a : Nat) (bs : List Byte) (s : State) : (s.hbmWrite a bs).granPoison = s.granPoison := rfl
@[simp] theorem State.hbmWrite_handles (a : Nat) (bs : List Byte) (s : State) : (s.hbmWrite a bs).handles = s.handles := rfl
@[simp] theorem State.hbmWrite_startCount (a : Nat) (bs : List Byte) (s : State) : (s.hbmWrite a bs).startCount = s.startCount := rfl
@[simp] theorem State.hbmWrite_unitEpoch (a : Nat) (bs : List Byte) (s : State) : (s.hbmWrite a bs).unitEpoch = s.unitEpoch := rfl
@[simp] theorem State.hbmWrite_reqEpoch (a : Nat) (bs : List Byte) (s : State) : (s.hbmWrite a bs).reqEpoch = s.reqEpoch := rfl
@[simp] theorem State.hbmWrite_lastCommit (a : Nat) (bs : List Byte) (s : State) : (s.hbmWrite a bs).lastCommit = s.lastCommit := rfl
@[simp] theorem State.hbmWrite_quiesces (a : Nat) (bs : List Byte) (s : State) : (s.hbmWrite a bs).quiesces = s.quiesces := rfl
@[simp] theorem State.hbmWrite_evRings (a : Nat) (bs : List Byte) (s : State) : (s.hbmWrite a bs).evRings = s.evRings := rfl
@[simp] theorem State.hbmWrite_coalesce (a : Nat) (bs : List Byte) (s : State) : (s.hbmWrite a bs).coalesce = s.coalesce := rfl
@[simp] theorem State.hbmWrite_twins (a : Nat) (bs : List Byte) (s : State) : (s.hbmWrite a bs).twins = s.twins := rfl
@[simp] theorem State.hbmWrite_excluded (a : Nat) (bs : List Byte) (s : State) : (s.hbmWrite a bs).excluded = s.excluded := rfl
@[simp] theorem State.hbmWrite_heldEv (a : Nat) (bs : List Byte) (s : State) : (s.hbmWrite a bs).heldEv = s.heldEv := rfl
@[simp] theorem State.hbmWrite_mgmt (a : Nat) (bs : List Byte) (s : State) : (s.hbmWrite a bs).mgmt = s.mgmt := rfl
@[simp] theorem State.hbmWrite_doms (a : Nat) (bs : List Byte) (s : State) : (s.hbmWrite a bs).doms = s.doms := rfl
@[simp] theorem State.hbmWrite_supply (a : Nat) (bs : List Byte) (s : State) : (s.hbmWrite a bs).supply = s.supply := rfl
@[simp] theorem State.hbmWrite_store (a : Nat) (bs : List Byte) (s : State) : (s.hbmWrite a bs).store = s.store := rfl
@[simp] theorem State.hbmWrite_fuses (a : Nat) (bs : List Byte) (s : State) : (s.hbmWrite a bs).fuses = s.fuses := rfl
@[simp] theorem State.hbmWrite_boot (a : Nat) (bs : List Byte) (s : State) : (s.hbmWrite a bs).boot = s.boot := rfl
@[simp] theorem State.hbmWrite_links (a : Nat) (bs : List Byte) (s : State) : (s.hbmWrite a bs).links = s.links := rfl
@[simp] theorem State.hbmWrite_domain (a : Nat) (bs : List Byte) (s : State) : (s.hbmWrite a bs).domain = s.domain := rfl
@[simp] theorem State.hbmWrite_rimes (a : Nat) (bs : List Byte) (s : State) : (s.hbmWrite a bs).rimes = s.rimes := rfl
@[simp] theorem State.hbmWrite_hbmRow (a : Nat) (bs : List Byte) (s : State) : (s.hbmWrite a bs).hbmRow = s.hbmRow := rfl
@[simp] theorem State.hbmWrite_hbmAhead (a : Nat) (bs : List Byte) (s : State) : (s.hbmWrite a bs).hbmAhead = s.hbmAhead := rfl
@[simp] theorem State.hbmWrite_hbmBytes (a : Nat) (bs : List Byte) (s : State) : (s.hbmWrite a bs).hbmBytes = s.hbmBytes := rfl
@[simp] theorem State.hbmWrite_scrubs (a : Nat) (bs : List Byte) (s : State) : (s.hbmWrite a bs).scrubs = s.scrubs := rfl
@[simp] theorem State.hbmWrite_exclWait (a : Nat) (bs : List Byte) (s : State) : (s.hbmWrite a bs).exclWait = s.exclWait := rfl
@[simp] theorem State.hbmWrite_retiring (a : Nat) (bs : List Byte) (s : State) : (s.hbmWrite a bs).retiring = s.retiring := rfl
@[simp] theorem State.hbmWrite_turn (a : Nat) (bs : List Byte) (s : State) : (s.hbmWrite a bs).turn = s.turn := rfl
@[simp] theorem State.hbmWrite_mbx (a : Nat) (bs : List Byte) (s : State) : (s.hbmWrite a bs).mbx = s.mbx := rfl
@[simp] theorem State.hbmWrite_mbxHeld (a : Nat) (bs : List Byte) (s : State) : (s.hbmWrite a bs).mbxHeld = s.mbxHeld := rfl
@[simp] theorem State.hbmWrite_snap (a : Nat) (bs : List Byte) (s : State) : (s.hbmWrite a bs).snap = s.snap := rfl

@[simp] theorem State.modTile_phase (g : Nat) (h : Tile → Tile) (s : State) : (s.modTile g h).phase = s.phase := rfl
@[simp] theorem State.modTile_frost (g : Nat) (h : Tile → Tile) (s : State) : (s.modTile g h).frost = s.frost := rfl
@[simp] theorem State.modTile_tick (g : Nat) (h : Tile → Tile) (s : State) : (s.modTile g h).tick = s.tick := rfl
@[simp] theorem State.modTile_regs (g : Nat) (h : Tile → Tile) (s : State) : (s.modTile g h).regs = s.regs := rfl
@[simp] theorem State.modTile_free (g : Nat) (h : Tile → Tile) (s : State) : (s.modTile g h).free = s.free := rfl
@[simp] theorem State.modTile_out (g : Nat) (h : Tile → Tile) (s : State) : (s.modTile g h).out = s.out := rfl
@[simp] theorem State.modTile_pending (g : Nat) (h : Tile → Tile) (s : State) : (s.modTile g h).pending = s.pending := rfl
@[simp] theorem State.modTile_pins (g : Nat) (h : Tile → Tile) (s : State) : (s.modTile g h).pins = s.pins := rfl
@[simp] theorem State.modTile_isobar (g : Nat) (h : Tile → Tile) (s : State) : (s.modTile g h).isobar = s.isobar := rfl
@[simp] theorem State.modTile_isoSeq (g : Nat) (h : Tile → Tile) (s : State) : (s.modTile g h).isoSeq = s.isoSeq := rfl
@[simp] theorem State.modTile_waiters (g : Nat) (h : Tile → Tile) (s : State) : (s.modTile g h).waiters = s.waiters := rfl
@[simp] theorem State.modTile_touched (g : Nat) (h : Tile → Tile) (s : State) : (s.modTile g h).touched = s.touched := rfl
@[simp] theorem State.modTile_pqs (g : Nat) (h : Tile → Tile) (s : State) : (s.modTile g h).pqs = s.pqs := rfl
@[simp] theorem State.modTile_flits (g : Nat) (h : Tile → Tile) (s : State) : (s.modTile g h).flits = s.flits := rfl
@[simp] theorem State.modTile_hcq (g : Nat) (h : Tile → Tile) (s : State) : (s.modTile g h).hcq = s.hcq := rfl
@[simp] theorem State.modTile_hbm (g : Nat) (h : Tile → Tile) (s : State) : (s.modTile g h).hbm = s.hbm := rfl
@[simp] theorem State.modTile_poison (g : Nat) (h : Tile → Tile) (s : State) : (s.modTile g h).poison = s.poison := rfl
@[simp] theorem State.modTile_moved (g : Nat) (h : Tile → Tile) (s : State) : (s.modTile g h).moved = s.moved := rfl
@[simp] theorem State.modTile_rewrites (g : Nat) (h : Tile → Tile) (s : State) : (s.modTile g h).rewrites = s.rewrites := rfl
@[simp] theorem State.modTile_slotsJ (g : Nat) (h : Tile → Tile) (s : State) : (s.modTile g h).slotsJ = s.slotsJ := rfl
@[simp] theorem State.modTile_slotsB (g : Nat) (h : Tile → Tile) (s : State) : (s.modTile g h).slotsB = s.slotsB := rfl
@[simp] theorem State.modTile_slotsM (g : Nat) (h : Tile → Tile) (s : State) : (s.modTile g h).slotsM = s.slotsM := rfl
@[simp] theorem State.modTile_slotsL (g : Nat) (h : Tile → Tile) (s : State) : (s.modTile g h).slotsL = s.slotsL := rfl
@[simp] theorem State.modTile_breeze (g : Nat) (h : Tile → Tile) (s : State) : (s.modTile g h).breeze = s.breeze := rfl
@[simp] theorem State.modTile_rings (g : Nat) (h : Tile → Tile) (s : State) : (s.modTile g h).rings = s.rings := rfl
@[simp] theorem State.modTile_polls (g : Nat) (h : Tile → Tile) (s : State) : (s.modTile g h).polls = s.polls := rfl
@[simp] theorem State.modTile_funcs (g : Nat) (h : Tile → Tile) (s : State) : (s.modTile g h).funcs = s.funcs := rfl
@[simp] theorem State.modTile_vfEnable (g : Nat) (h : Tile → Tile) (s : State) : (s.modTile g h).vfEnable = s.vfEnable := rfl
@[simp] theorem State.modTile_tens (g : Nat) (h : Tile → Tile) (s : State) : (s.modTile g h).tens = s.tens := rfl
@[simp] theorem State.modTile_granules (g : Nat) (h : Tile → Tile) (s : State) : (s.modTile g h).granules = s.granules := rfl
@[simp] theorem State.modTile_granPoison (g : Nat) (h : Tile → Tile) (s : State) : (s.modTile g h).granPoison = s.granPoison := rfl
@[simp] theorem State.modTile_handles (g : Nat) (h : Tile → Tile) (s : State) : (s.modTile g h).handles = s.handles := rfl
@[simp] theorem State.modTile_startCount (g : Nat) (h : Tile → Tile) (s : State) : (s.modTile g h).startCount = s.startCount := rfl
@[simp] theorem State.modTile_unitEpoch (g : Nat) (h : Tile → Tile) (s : State) : (s.modTile g h).unitEpoch = s.unitEpoch := rfl
@[simp] theorem State.modTile_reqEpoch (g : Nat) (h : Tile → Tile) (s : State) : (s.modTile g h).reqEpoch = s.reqEpoch := rfl
@[simp] theorem State.modTile_lastCommit (g : Nat) (h : Tile → Tile) (s : State) : (s.modTile g h).lastCommit = s.lastCommit := rfl
@[simp] theorem State.modTile_quiesces (g : Nat) (h : Tile → Tile) (s : State) : (s.modTile g h).quiesces = s.quiesces := rfl
@[simp] theorem State.modTile_evRings (g : Nat) (h : Tile → Tile) (s : State) : (s.modTile g h).evRings = s.evRings := rfl
@[simp] theorem State.modTile_coalesce (g : Nat) (h : Tile → Tile) (s : State) : (s.modTile g h).coalesce = s.coalesce := rfl
@[simp] theorem State.modTile_twins (g : Nat) (h : Tile → Tile) (s : State) : (s.modTile g h).twins = s.twins := rfl
@[simp] theorem State.modTile_excluded (g : Nat) (h : Tile → Tile) (s : State) : (s.modTile g h).excluded = s.excluded := rfl
@[simp] theorem State.modTile_heldEv (g : Nat) (h : Tile → Tile) (s : State) : (s.modTile g h).heldEv = s.heldEv := rfl
@[simp] theorem State.modTile_mgmt (g : Nat) (h : Tile → Tile) (s : State) : (s.modTile g h).mgmt = s.mgmt := rfl
@[simp] theorem State.modTile_doms (g : Nat) (h : Tile → Tile) (s : State) : (s.modTile g h).doms = s.doms := rfl
@[simp] theorem State.modTile_supply (g : Nat) (h : Tile → Tile) (s : State) : (s.modTile g h).supply = s.supply := rfl
@[simp] theorem State.modTile_store (g : Nat) (h : Tile → Tile) (s : State) : (s.modTile g h).store = s.store := rfl
@[simp] theorem State.modTile_fuses (g : Nat) (h : Tile → Tile) (s : State) : (s.modTile g h).fuses = s.fuses := rfl
@[simp] theorem State.modTile_boot (g : Nat) (h : Tile → Tile) (s : State) : (s.modTile g h).boot = s.boot := rfl
@[simp] theorem State.modTile_links (g : Nat) (h : Tile → Tile) (s : State) : (s.modTile g h).links = s.links := rfl
@[simp] theorem State.modTile_domain (g : Nat) (h : Tile → Tile) (s : State) : (s.modTile g h).domain = s.domain := rfl
@[simp] theorem State.modTile_rimes (g : Nat) (h : Tile → Tile) (s : State) : (s.modTile g h).rimes = s.rimes := rfl
@[simp] theorem State.modTile_hbmLog (g : Nat) (h : Tile → Tile) (s : State) : (s.modTile g h).hbmLog = s.hbmLog := rfl
@[simp] theorem State.modTile_hbmRow (g : Nat) (h : Tile → Tile) (s : State) : (s.modTile g h).hbmRow = s.hbmRow := rfl
@[simp] theorem State.modTile_hbmAhead (g : Nat) (h : Tile → Tile) (s : State) : (s.modTile g h).hbmAhead = s.hbmAhead := rfl
@[simp] theorem State.modTile_hbmBytes (g : Nat) (h : Tile → Tile) (s : State) : (s.modTile g h).hbmBytes = s.hbmBytes := rfl
@[simp] theorem State.modTile_scrubs (g : Nat) (h : Tile → Tile) (s : State) : (s.modTile g h).scrubs = s.scrubs := rfl
@[simp] theorem State.modTile_exclWait (g : Nat) (h : Tile → Tile) (s : State) : (s.modTile g h).exclWait = s.exclWait := rfl
@[simp] theorem State.modTile_retiring (g : Nat) (h : Tile → Tile) (s : State) : (s.modTile g h).retiring = s.retiring := rfl
@[simp] theorem State.modTile_turn (g : Nat) (h : Tile → Tile) (s : State) : (s.modTile g h).turn = s.turn := rfl
@[simp] theorem State.modTile_mbx (g : Nat) (h : Tile → Tile) (s : State) : (s.modTile g h).mbx = s.mbx := rfl
@[simp] theorem State.modTile_mbxHeld (g : Nat) (h : Tile → Tile) (s : State) : (s.modTile g h).mbxHeld = s.mbxHeld := rfl
@[simp] theorem State.modTile_snap (g : Nat) (h : Tile → Tile) (s : State) : (s.modTile g h).snap = s.snap := rfl

@[simp] theorem State.modFunc_phase (f : Nat) (h : Func → Func) (s : State) : (s.modFunc f h).phase = s.phase := rfl
@[simp] theorem State.modFunc_frost (f : Nat) (h : Func → Func) (s : State) : (s.modFunc f h).frost = s.frost := rfl
@[simp] theorem State.modFunc_tick (f : Nat) (h : Func → Func) (s : State) : (s.modFunc f h).tick = s.tick := rfl
@[simp] theorem State.modFunc_regs (f : Nat) (h : Func → Func) (s : State) : (s.modFunc f h).regs = s.regs := rfl
@[simp] theorem State.modFunc_free (f : Nat) (h : Func → Func) (s : State) : (s.modFunc f h).free = s.free := rfl
@[simp] theorem State.modFunc_out (f : Nat) (h : Func → Func) (s : State) : (s.modFunc f h).out = s.out := rfl
@[simp] theorem State.modFunc_pending (f : Nat) (h : Func → Func) (s : State) : (s.modFunc f h).pending = s.pending := rfl
@[simp] theorem State.modFunc_pins (f : Nat) (h : Func → Func) (s : State) : (s.modFunc f h).pins = s.pins := rfl
@[simp] theorem State.modFunc_tiles (f : Nat) (h : Func → Func) (s : State) : (s.modFunc f h).tiles = s.tiles := rfl
@[simp] theorem State.modFunc_isobar (f : Nat) (h : Func → Func) (s : State) : (s.modFunc f h).isobar = s.isobar := rfl
@[simp] theorem State.modFunc_isoSeq (f : Nat) (h : Func → Func) (s : State) : (s.modFunc f h).isoSeq = s.isoSeq := rfl
@[simp] theorem State.modFunc_waiters (f : Nat) (h : Func → Func) (s : State) : (s.modFunc f h).waiters = s.waiters := rfl
@[simp] theorem State.modFunc_touched (f : Nat) (h : Func → Func) (s : State) : (s.modFunc f h).touched = s.touched := rfl
@[simp] theorem State.modFunc_pqs (f : Nat) (h : Func → Func) (s : State) : (s.modFunc f h).pqs = s.pqs := rfl
@[simp] theorem State.modFunc_flits (f : Nat) (h : Func → Func) (s : State) : (s.modFunc f h).flits = s.flits := rfl
@[simp] theorem State.modFunc_hcq (f : Nat) (h : Func → Func) (s : State) : (s.modFunc f h).hcq = s.hcq := rfl
@[simp] theorem State.modFunc_hbm (f : Nat) (h : Func → Func) (s : State) : (s.modFunc f h).hbm = s.hbm := rfl
@[simp] theorem State.modFunc_poison (f : Nat) (h : Func → Func) (s : State) : (s.modFunc f h).poison = s.poison := rfl
@[simp] theorem State.modFunc_moved (f : Nat) (h : Func → Func) (s : State) : (s.modFunc f h).moved = s.moved := rfl
@[simp] theorem State.modFunc_rewrites (f : Nat) (h : Func → Func) (s : State) : (s.modFunc f h).rewrites = s.rewrites := rfl
@[simp] theorem State.modFunc_slotsJ (f : Nat) (h : Func → Func) (s : State) : (s.modFunc f h).slotsJ = s.slotsJ := rfl
@[simp] theorem State.modFunc_slotsB (f : Nat) (h : Func → Func) (s : State) : (s.modFunc f h).slotsB = s.slotsB := rfl
@[simp] theorem State.modFunc_slotsM (f : Nat) (h : Func → Func) (s : State) : (s.modFunc f h).slotsM = s.slotsM := rfl
@[simp] theorem State.modFunc_slotsL (f : Nat) (h : Func → Func) (s : State) : (s.modFunc f h).slotsL = s.slotsL := rfl
@[simp] theorem State.modFunc_breeze (f : Nat) (h : Func → Func) (s : State) : (s.modFunc f h).breeze = s.breeze := rfl
@[simp] theorem State.modFunc_rings (f : Nat) (h : Func → Func) (s : State) : (s.modFunc f h).rings = s.rings := rfl
@[simp] theorem State.modFunc_polls (f : Nat) (h : Func → Func) (s : State) : (s.modFunc f h).polls = s.polls := rfl
@[simp] theorem State.modFunc_vfEnable (f : Nat) (h : Func → Func) (s : State) : (s.modFunc f h).vfEnable = s.vfEnable := rfl
@[simp] theorem State.modFunc_tens (f : Nat) (h : Func → Func) (s : State) : (s.modFunc f h).tens = s.tens := rfl
@[simp] theorem State.modFunc_granules (f : Nat) (h : Func → Func) (s : State) : (s.modFunc f h).granules = s.granules := rfl
@[simp] theorem State.modFunc_granPoison (f : Nat) (h : Func → Func) (s : State) : (s.modFunc f h).granPoison = s.granPoison := rfl
@[simp] theorem State.modFunc_handles (f : Nat) (h : Func → Func) (s : State) : (s.modFunc f h).handles = s.handles := rfl
@[simp] theorem State.modFunc_startCount (f : Nat) (h : Func → Func) (s : State) : (s.modFunc f h).startCount = s.startCount := rfl
@[simp] theorem State.modFunc_unitEpoch (f : Nat) (h : Func → Func) (s : State) : (s.modFunc f h).unitEpoch = s.unitEpoch := rfl
@[simp] theorem State.modFunc_reqEpoch (f : Nat) (h : Func → Func) (s : State) : (s.modFunc f h).reqEpoch = s.reqEpoch := rfl
@[simp] theorem State.modFunc_lastCommit (f : Nat) (h : Func → Func) (s : State) : (s.modFunc f h).lastCommit = s.lastCommit := rfl
@[simp] theorem State.modFunc_quiesces (f : Nat) (h : Func → Func) (s : State) : (s.modFunc f h).quiesces = s.quiesces := rfl
@[simp] theorem State.modFunc_evRings (f : Nat) (h : Func → Func) (s : State) : (s.modFunc f h).evRings = s.evRings := rfl
@[simp] theorem State.modFunc_coalesce (f : Nat) (h : Func → Func) (s : State) : (s.modFunc f h).coalesce = s.coalesce := rfl
@[simp] theorem State.modFunc_twins (f : Nat) (h : Func → Func) (s : State) : (s.modFunc f h).twins = s.twins := rfl
@[simp] theorem State.modFunc_excluded (f : Nat) (h : Func → Func) (s : State) : (s.modFunc f h).excluded = s.excluded := rfl
@[simp] theorem State.modFunc_heldEv (f : Nat) (h : Func → Func) (s : State) : (s.modFunc f h).heldEv = s.heldEv := rfl
@[simp] theorem State.modFunc_mgmt (f : Nat) (h : Func → Func) (s : State) : (s.modFunc f h).mgmt = s.mgmt := rfl
@[simp] theorem State.modFunc_doms (f : Nat) (h : Func → Func) (s : State) : (s.modFunc f h).doms = s.doms := rfl
@[simp] theorem State.modFunc_supply (f : Nat) (h : Func → Func) (s : State) : (s.modFunc f h).supply = s.supply := rfl
@[simp] theorem State.modFunc_store (f : Nat) (h : Func → Func) (s : State) : (s.modFunc f h).store = s.store := rfl
@[simp] theorem State.modFunc_fuses (f : Nat) (h : Func → Func) (s : State) : (s.modFunc f h).fuses = s.fuses := rfl
@[simp] theorem State.modFunc_boot (f : Nat) (h : Func → Func) (s : State) : (s.modFunc f h).boot = s.boot := rfl
@[simp] theorem State.modFunc_links (f : Nat) (h : Func → Func) (s : State) : (s.modFunc f h).links = s.links := rfl
@[simp] theorem State.modFunc_domain (f : Nat) (h : Func → Func) (s : State) : (s.modFunc f h).domain = s.domain := rfl
@[simp] theorem State.modFunc_rimes (f : Nat) (h : Func → Func) (s : State) : (s.modFunc f h).rimes = s.rimes := rfl
@[simp] theorem State.modFunc_hbmLog (f : Nat) (h : Func → Func) (s : State) : (s.modFunc f h).hbmLog = s.hbmLog := rfl
@[simp] theorem State.modFunc_hbmRow (f : Nat) (h : Func → Func) (s : State) : (s.modFunc f h).hbmRow = s.hbmRow := rfl
@[simp] theorem State.modFunc_hbmAhead (f : Nat) (h : Func → Func) (s : State) : (s.modFunc f h).hbmAhead = s.hbmAhead := rfl
@[simp] theorem State.modFunc_hbmBytes (f : Nat) (h : Func → Func) (s : State) : (s.modFunc f h).hbmBytes = s.hbmBytes := rfl
@[simp] theorem State.modFunc_scrubs (f : Nat) (h : Func → Func) (s : State) : (s.modFunc f h).scrubs = s.scrubs := rfl
@[simp] theorem State.modFunc_exclWait (f : Nat) (h : Func → Func) (s : State) : (s.modFunc f h).exclWait = s.exclWait := rfl
@[simp] theorem State.modFunc_retiring (f : Nat) (h : Func → Func) (s : State) : (s.modFunc f h).retiring = s.retiring := rfl
@[simp] theorem State.modFunc_turn (f : Nat) (h : Func → Func) (s : State) : (s.modFunc f h).turn = s.turn := rfl
@[simp] theorem State.modFunc_mbx (f : Nat) (h : Func → Func) (s : State) : (s.modFunc f h).mbx = s.mbx := rfl
@[simp] theorem State.modFunc_mbxHeld (f : Nat) (h : Func → Func) (s : State) : (s.modFunc f h).mbxHeld = s.mbxHeld := rfl
@[simp] theorem State.modFunc_snap (f : Nat) (h : Func → Func) (s : State) : (s.modFunc f h).snap = s.snap := rfl

@[simp] theorem State.modTen_phase (t : Nat) (h : Tenancy → Tenancy) (s : State) : (s.modTen t h).phase = s.phase := rfl
@[simp] theorem State.modTen_frost (t : Nat) (h : Tenancy → Tenancy) (s : State) : (s.modTen t h).frost = s.frost := rfl
@[simp] theorem State.modTen_tick (t : Nat) (h : Tenancy → Tenancy) (s : State) : (s.modTen t h).tick = s.tick := rfl
@[simp] theorem State.modTen_regs (t : Nat) (h : Tenancy → Tenancy) (s : State) : (s.modTen t h).regs = s.regs := rfl
@[simp] theorem State.modTen_free (t : Nat) (h : Tenancy → Tenancy) (s : State) : (s.modTen t h).free = s.free := rfl
@[simp] theorem State.modTen_out (t : Nat) (h : Tenancy → Tenancy) (s : State) : (s.modTen t h).out = s.out := rfl
@[simp] theorem State.modTen_pending (t : Nat) (h : Tenancy → Tenancy) (s : State) : (s.modTen t h).pending = s.pending := rfl
@[simp] theorem State.modTen_pins (t : Nat) (h : Tenancy → Tenancy) (s : State) : (s.modTen t h).pins = s.pins := rfl
@[simp] theorem State.modTen_tiles (t : Nat) (h : Tenancy → Tenancy) (s : State) : (s.modTen t h).tiles = s.tiles := rfl
@[simp] theorem State.modTen_isobar (t : Nat) (h : Tenancy → Tenancy) (s : State) : (s.modTen t h).isobar = s.isobar := rfl
@[simp] theorem State.modTen_isoSeq (t : Nat) (h : Tenancy → Tenancy) (s : State) : (s.modTen t h).isoSeq = s.isoSeq := rfl
@[simp] theorem State.modTen_waiters (t : Nat) (h : Tenancy → Tenancy) (s : State) : (s.modTen t h).waiters = s.waiters := rfl
@[simp] theorem State.modTen_touched (t : Nat) (h : Tenancy → Tenancy) (s : State) : (s.modTen t h).touched = s.touched := rfl
@[simp] theorem State.modTen_pqs (t : Nat) (h : Tenancy → Tenancy) (s : State) : (s.modTen t h).pqs = s.pqs := rfl
@[simp] theorem State.modTen_flits (t : Nat) (h : Tenancy → Tenancy) (s : State) : (s.modTen t h).flits = s.flits := rfl
@[simp] theorem State.modTen_hcq (t : Nat) (h : Tenancy → Tenancy) (s : State) : (s.modTen t h).hcq = s.hcq := rfl
@[simp] theorem State.modTen_hbm (t : Nat) (h : Tenancy → Tenancy) (s : State) : (s.modTen t h).hbm = s.hbm := rfl
@[simp] theorem State.modTen_poison (t : Nat) (h : Tenancy → Tenancy) (s : State) : (s.modTen t h).poison = s.poison := rfl
@[simp] theorem State.modTen_moved (t : Nat) (h : Tenancy → Tenancy) (s : State) : (s.modTen t h).moved = s.moved := rfl
@[simp] theorem State.modTen_rewrites (t : Nat) (h : Tenancy → Tenancy) (s : State) : (s.modTen t h).rewrites = s.rewrites := rfl
@[simp] theorem State.modTen_slotsJ (t : Nat) (h : Tenancy → Tenancy) (s : State) : (s.modTen t h).slotsJ = s.slotsJ := rfl
@[simp] theorem State.modTen_slotsB (t : Nat) (h : Tenancy → Tenancy) (s : State) : (s.modTen t h).slotsB = s.slotsB := rfl
@[simp] theorem State.modTen_slotsM (t : Nat) (h : Tenancy → Tenancy) (s : State) : (s.modTen t h).slotsM = s.slotsM := rfl
@[simp] theorem State.modTen_slotsL (t : Nat) (h : Tenancy → Tenancy) (s : State) : (s.modTen t h).slotsL = s.slotsL := rfl
@[simp] theorem State.modTen_breeze (t : Nat) (h : Tenancy → Tenancy) (s : State) : (s.modTen t h).breeze = s.breeze := rfl
@[simp] theorem State.modTen_rings (t : Nat) (h : Tenancy → Tenancy) (s : State) : (s.modTen t h).rings = s.rings := rfl
@[simp] theorem State.modTen_polls (t : Nat) (h : Tenancy → Tenancy) (s : State) : (s.modTen t h).polls = s.polls := rfl
@[simp] theorem State.modTen_funcs (t : Nat) (h : Tenancy → Tenancy) (s : State) : (s.modTen t h).funcs = s.funcs := rfl
@[simp] theorem State.modTen_vfEnable (t : Nat) (h : Tenancy → Tenancy) (s : State) : (s.modTen t h).vfEnable = s.vfEnable := rfl
@[simp] theorem State.modTen_granules (t : Nat) (h : Tenancy → Tenancy) (s : State) : (s.modTen t h).granules = s.granules := rfl
@[simp] theorem State.modTen_granPoison (t : Nat) (h : Tenancy → Tenancy) (s : State) : (s.modTen t h).granPoison = s.granPoison := rfl
@[simp] theorem State.modTen_handles (t : Nat) (h : Tenancy → Tenancy) (s : State) : (s.modTen t h).handles = s.handles := rfl
@[simp] theorem State.modTen_startCount (t : Nat) (h : Tenancy → Tenancy) (s : State) : (s.modTen t h).startCount = s.startCount := rfl
@[simp] theorem State.modTen_unitEpoch (t : Nat) (h : Tenancy → Tenancy) (s : State) : (s.modTen t h).unitEpoch = s.unitEpoch := rfl
@[simp] theorem State.modTen_reqEpoch (t : Nat) (h : Tenancy → Tenancy) (s : State) : (s.modTen t h).reqEpoch = s.reqEpoch := rfl
@[simp] theorem State.modTen_lastCommit (t : Nat) (h : Tenancy → Tenancy) (s : State) : (s.modTen t h).lastCommit = s.lastCommit := rfl
@[simp] theorem State.modTen_quiesces (t : Nat) (h : Tenancy → Tenancy) (s : State) : (s.modTen t h).quiesces = s.quiesces := rfl
@[simp] theorem State.modTen_evRings (t : Nat) (h : Tenancy → Tenancy) (s : State) : (s.modTen t h).evRings = s.evRings := rfl
@[simp] theorem State.modTen_coalesce (t : Nat) (h : Tenancy → Tenancy) (s : State) : (s.modTen t h).coalesce = s.coalesce := rfl
@[simp] theorem State.modTen_twins (t : Nat) (h : Tenancy → Tenancy) (s : State) : (s.modTen t h).twins = s.twins := rfl
@[simp] theorem State.modTen_excluded (t : Nat) (h : Tenancy → Tenancy) (s : State) : (s.modTen t h).excluded = s.excluded := rfl
@[simp] theorem State.modTen_heldEv (t : Nat) (h : Tenancy → Tenancy) (s : State) : (s.modTen t h).heldEv = s.heldEv := rfl
@[simp] theorem State.modTen_mgmt (t : Nat) (h : Tenancy → Tenancy) (s : State) : (s.modTen t h).mgmt = s.mgmt := rfl
@[simp] theorem State.modTen_doms (t : Nat) (h : Tenancy → Tenancy) (s : State) : (s.modTen t h).doms = s.doms := rfl
@[simp] theorem State.modTen_supply (t : Nat) (h : Tenancy → Tenancy) (s : State) : (s.modTen t h).supply = s.supply := rfl
@[simp] theorem State.modTen_store (t : Nat) (h : Tenancy → Tenancy) (s : State) : (s.modTen t h).store = s.store := rfl
@[simp] theorem State.modTen_fuses (t : Nat) (h : Tenancy → Tenancy) (s : State) : (s.modTen t h).fuses = s.fuses := rfl
@[simp] theorem State.modTen_boot (t : Nat) (h : Tenancy → Tenancy) (s : State) : (s.modTen t h).boot = s.boot := rfl
@[simp] theorem State.modTen_links (t : Nat) (h : Tenancy → Tenancy) (s : State) : (s.modTen t h).links = s.links := rfl
@[simp] theorem State.modTen_domain (t : Nat) (h : Tenancy → Tenancy) (s : State) : (s.modTen t h).domain = s.domain := rfl
@[simp] theorem State.modTen_rimes (t : Nat) (h : Tenancy → Tenancy) (s : State) : (s.modTen t h).rimes = s.rimes := rfl
@[simp] theorem State.modTen_hbmLog (t : Nat) (h : Tenancy → Tenancy) (s : State) : (s.modTen t h).hbmLog = s.hbmLog := rfl
@[simp] theorem State.modTen_hbmRow (t : Nat) (h : Tenancy → Tenancy) (s : State) : (s.modTen t h).hbmRow = s.hbmRow := rfl
@[simp] theorem State.modTen_hbmAhead (t : Nat) (h : Tenancy → Tenancy) (s : State) : (s.modTen t h).hbmAhead = s.hbmAhead := rfl
@[simp] theorem State.modTen_hbmBytes (t : Nat) (h : Tenancy → Tenancy) (s : State) : (s.modTen t h).hbmBytes = s.hbmBytes := rfl
@[simp] theorem State.modTen_scrubs (t : Nat) (h : Tenancy → Tenancy) (s : State) : (s.modTen t h).scrubs = s.scrubs := rfl
@[simp] theorem State.modTen_exclWait (t : Nat) (h : Tenancy → Tenancy) (s : State) : (s.modTen t h).exclWait = s.exclWait := rfl
@[simp] theorem State.modTen_retiring (t : Nat) (h : Tenancy → Tenancy) (s : State) : (s.modTen t h).retiring = s.retiring := rfl
@[simp] theorem State.modTen_turn (t : Nat) (h : Tenancy → Tenancy) (s : State) : (s.modTen t h).turn = s.turn := rfl
@[simp] theorem State.modTen_mbx (t : Nat) (h : Tenancy → Tenancy) (s : State) : (s.modTen t h).mbx = s.mbx := rfl
@[simp] theorem State.modTen_mbxHeld (t : Nat) (h : Tenancy → Tenancy) (s : State) : (s.modTen t h).mbxHeld = s.mbxHeld := rfl
@[simp] theorem State.modTen_snap (t : Nat) (h : Tenancy → Tenancy) (s : State) : (s.modTen t h).snap = s.snap := rfl

@[simp] theorem State.modEvRing_phase (i : Nat) (h : EvRing → EvRing) (s : State) : (s.modEvRing i h).phase = s.phase := rfl
@[simp] theorem State.modEvRing_frost (i : Nat) (h : EvRing → EvRing) (s : State) : (s.modEvRing i h).frost = s.frost := rfl
@[simp] theorem State.modEvRing_tick (i : Nat) (h : EvRing → EvRing) (s : State) : (s.modEvRing i h).tick = s.tick := rfl
@[simp] theorem State.modEvRing_regs (i : Nat) (h : EvRing → EvRing) (s : State) : (s.modEvRing i h).regs = s.regs := rfl
@[simp] theorem State.modEvRing_free (i : Nat) (h : EvRing → EvRing) (s : State) : (s.modEvRing i h).free = s.free := rfl
@[simp] theorem State.modEvRing_out (i : Nat) (h : EvRing → EvRing) (s : State) : (s.modEvRing i h).out = s.out := rfl
@[simp] theorem State.modEvRing_pending (i : Nat) (h : EvRing → EvRing) (s : State) : (s.modEvRing i h).pending = s.pending := rfl
@[simp] theorem State.modEvRing_pins (i : Nat) (h : EvRing → EvRing) (s : State) : (s.modEvRing i h).pins = s.pins := rfl
@[simp] theorem State.modEvRing_tiles (i : Nat) (h : EvRing → EvRing) (s : State) : (s.modEvRing i h).tiles = s.tiles := rfl
@[simp] theorem State.modEvRing_isobar (i : Nat) (h : EvRing → EvRing) (s : State) : (s.modEvRing i h).isobar = s.isobar := rfl
@[simp] theorem State.modEvRing_isoSeq (i : Nat) (h : EvRing → EvRing) (s : State) : (s.modEvRing i h).isoSeq = s.isoSeq := rfl
@[simp] theorem State.modEvRing_waiters (i : Nat) (h : EvRing → EvRing) (s : State) : (s.modEvRing i h).waiters = s.waiters := rfl
@[simp] theorem State.modEvRing_touched (i : Nat) (h : EvRing → EvRing) (s : State) : (s.modEvRing i h).touched = s.touched := rfl
@[simp] theorem State.modEvRing_pqs (i : Nat) (h : EvRing → EvRing) (s : State) : (s.modEvRing i h).pqs = s.pqs := rfl
@[simp] theorem State.modEvRing_flits (i : Nat) (h : EvRing → EvRing) (s : State) : (s.modEvRing i h).flits = s.flits := rfl
@[simp] theorem State.modEvRing_hcq (i : Nat) (h : EvRing → EvRing) (s : State) : (s.modEvRing i h).hcq = s.hcq := rfl
@[simp] theorem State.modEvRing_hbm (i : Nat) (h : EvRing → EvRing) (s : State) : (s.modEvRing i h).hbm = s.hbm := rfl
@[simp] theorem State.modEvRing_poison (i : Nat) (h : EvRing → EvRing) (s : State) : (s.modEvRing i h).poison = s.poison := rfl
@[simp] theorem State.modEvRing_moved (i : Nat) (h : EvRing → EvRing) (s : State) : (s.modEvRing i h).moved = s.moved := rfl
@[simp] theorem State.modEvRing_rewrites (i : Nat) (h : EvRing → EvRing) (s : State) : (s.modEvRing i h).rewrites = s.rewrites := rfl
@[simp] theorem State.modEvRing_slotsJ (i : Nat) (h : EvRing → EvRing) (s : State) : (s.modEvRing i h).slotsJ = s.slotsJ := rfl
@[simp] theorem State.modEvRing_slotsB (i : Nat) (h : EvRing → EvRing) (s : State) : (s.modEvRing i h).slotsB = s.slotsB := rfl
@[simp] theorem State.modEvRing_slotsM (i : Nat) (h : EvRing → EvRing) (s : State) : (s.modEvRing i h).slotsM = s.slotsM := rfl
@[simp] theorem State.modEvRing_slotsL (i : Nat) (h : EvRing → EvRing) (s : State) : (s.modEvRing i h).slotsL = s.slotsL := rfl
@[simp] theorem State.modEvRing_breeze (i : Nat) (h : EvRing → EvRing) (s : State) : (s.modEvRing i h).breeze = s.breeze := rfl
@[simp] theorem State.modEvRing_rings (i : Nat) (h : EvRing → EvRing) (s : State) : (s.modEvRing i h).rings = s.rings := rfl
@[simp] theorem State.modEvRing_polls (i : Nat) (h : EvRing → EvRing) (s : State) : (s.modEvRing i h).polls = s.polls := rfl
@[simp] theorem State.modEvRing_funcs (i : Nat) (h : EvRing → EvRing) (s : State) : (s.modEvRing i h).funcs = s.funcs := rfl
@[simp] theorem State.modEvRing_vfEnable (i : Nat) (h : EvRing → EvRing) (s : State) : (s.modEvRing i h).vfEnable = s.vfEnable := rfl
@[simp] theorem State.modEvRing_tens (i : Nat) (h : EvRing → EvRing) (s : State) : (s.modEvRing i h).tens = s.tens := rfl
@[simp] theorem State.modEvRing_granules (i : Nat) (h : EvRing → EvRing) (s : State) : (s.modEvRing i h).granules = s.granules := rfl
@[simp] theorem State.modEvRing_granPoison (i : Nat) (h : EvRing → EvRing) (s : State) : (s.modEvRing i h).granPoison = s.granPoison := rfl
@[simp] theorem State.modEvRing_handles (i : Nat) (h : EvRing → EvRing) (s : State) : (s.modEvRing i h).handles = s.handles := rfl
@[simp] theorem State.modEvRing_startCount (i : Nat) (h : EvRing → EvRing) (s : State) : (s.modEvRing i h).startCount = s.startCount := rfl
@[simp] theorem State.modEvRing_unitEpoch (i : Nat) (h : EvRing → EvRing) (s : State) : (s.modEvRing i h).unitEpoch = s.unitEpoch := rfl
@[simp] theorem State.modEvRing_reqEpoch (i : Nat) (h : EvRing → EvRing) (s : State) : (s.modEvRing i h).reqEpoch = s.reqEpoch := rfl
@[simp] theorem State.modEvRing_lastCommit (i : Nat) (h : EvRing → EvRing) (s : State) : (s.modEvRing i h).lastCommit = s.lastCommit := rfl
@[simp] theorem State.modEvRing_quiesces (i : Nat) (h : EvRing → EvRing) (s : State) : (s.modEvRing i h).quiesces = s.quiesces := rfl
@[simp] theorem State.modEvRing_coalesce (i : Nat) (h : EvRing → EvRing) (s : State) : (s.modEvRing i h).coalesce = s.coalesce := rfl
@[simp] theorem State.modEvRing_twins (i : Nat) (h : EvRing → EvRing) (s : State) : (s.modEvRing i h).twins = s.twins := rfl
@[simp] theorem State.modEvRing_excluded (i : Nat) (h : EvRing → EvRing) (s : State) : (s.modEvRing i h).excluded = s.excluded := rfl
@[simp] theorem State.modEvRing_heldEv (i : Nat) (h : EvRing → EvRing) (s : State) : (s.modEvRing i h).heldEv = s.heldEv := rfl
@[simp] theorem State.modEvRing_mgmt (i : Nat) (h : EvRing → EvRing) (s : State) : (s.modEvRing i h).mgmt = s.mgmt := rfl
@[simp] theorem State.modEvRing_doms (i : Nat) (h : EvRing → EvRing) (s : State) : (s.modEvRing i h).doms = s.doms := rfl
@[simp] theorem State.modEvRing_supply (i : Nat) (h : EvRing → EvRing) (s : State) : (s.modEvRing i h).supply = s.supply := rfl
@[simp] theorem State.modEvRing_store (i : Nat) (h : EvRing → EvRing) (s : State) : (s.modEvRing i h).store = s.store := rfl
@[simp] theorem State.modEvRing_fuses (i : Nat) (h : EvRing → EvRing) (s : State) : (s.modEvRing i h).fuses = s.fuses := rfl
@[simp] theorem State.modEvRing_boot (i : Nat) (h : EvRing → EvRing) (s : State) : (s.modEvRing i h).boot = s.boot := rfl
@[simp] theorem State.modEvRing_links (i : Nat) (h : EvRing → EvRing) (s : State) : (s.modEvRing i h).links = s.links := rfl
@[simp] theorem State.modEvRing_domain (i : Nat) (h : EvRing → EvRing) (s : State) : (s.modEvRing i h).domain = s.domain := rfl
@[simp] theorem State.modEvRing_rimes (i : Nat) (h : EvRing → EvRing) (s : State) : (s.modEvRing i h).rimes = s.rimes := rfl
@[simp] theorem State.modEvRing_hbmLog (i : Nat) (h : EvRing → EvRing) (s : State) : (s.modEvRing i h).hbmLog = s.hbmLog := rfl
@[simp] theorem State.modEvRing_hbmRow (i : Nat) (h : EvRing → EvRing) (s : State) : (s.modEvRing i h).hbmRow = s.hbmRow := rfl
@[simp] theorem State.modEvRing_hbmAhead (i : Nat) (h : EvRing → EvRing) (s : State) : (s.modEvRing i h).hbmAhead = s.hbmAhead := rfl
@[simp] theorem State.modEvRing_hbmBytes (i : Nat) (h : EvRing → EvRing) (s : State) : (s.modEvRing i h).hbmBytes = s.hbmBytes := rfl
@[simp] theorem State.modEvRing_scrubs (i : Nat) (h : EvRing → EvRing) (s : State) : (s.modEvRing i h).scrubs = s.scrubs := rfl
@[simp] theorem State.modEvRing_exclWait (i : Nat) (h : EvRing → EvRing) (s : State) : (s.modEvRing i h).exclWait = s.exclWait := rfl
@[simp] theorem State.modEvRing_retiring (i : Nat) (h : EvRing → EvRing) (s : State) : (s.modEvRing i h).retiring = s.retiring := rfl
@[simp] theorem State.modEvRing_turn (i : Nat) (h : EvRing → EvRing) (s : State) : (s.modEvRing i h).turn = s.turn := rfl
@[simp] theorem State.modEvRing_mbx (i : Nat) (h : EvRing → EvRing) (s : State) : (s.modEvRing i h).mbx = s.mbx := rfl
@[simp] theorem State.modEvRing_mbxHeld (i : Nat) (h : EvRing → EvRing) (s : State) : (s.modEvRing i h).mbxHeld = s.mbxHeld := rfl
@[simp] theorem State.modEvRing_snap (i : Nat) (h : EvRing → EvRing) (s : State) : (s.modEvRing i h).snap = s.snap := rfl

@[simp] theorem State.modLink_phase (j : Nat) (h : Link → Link) (s : State) : (s.modLink j h).phase = s.phase := rfl
@[simp] theorem State.modLink_frost (j : Nat) (h : Link → Link) (s : State) : (s.modLink j h).frost = s.frost := rfl
@[simp] theorem State.modLink_tick (j : Nat) (h : Link → Link) (s : State) : (s.modLink j h).tick = s.tick := rfl
@[simp] theorem State.modLink_regs (j : Nat) (h : Link → Link) (s : State) : (s.modLink j h).regs = s.regs := rfl
@[simp] theorem State.modLink_free (j : Nat) (h : Link → Link) (s : State) : (s.modLink j h).free = s.free := rfl
@[simp] theorem State.modLink_out (j : Nat) (h : Link → Link) (s : State) : (s.modLink j h).out = s.out := rfl
@[simp] theorem State.modLink_pending (j : Nat) (h : Link → Link) (s : State) : (s.modLink j h).pending = s.pending := rfl
@[simp] theorem State.modLink_pins (j : Nat) (h : Link → Link) (s : State) : (s.modLink j h).pins = s.pins := rfl
@[simp] theorem State.modLink_tiles (j : Nat) (h : Link → Link) (s : State) : (s.modLink j h).tiles = s.tiles := rfl
@[simp] theorem State.modLink_isobar (j : Nat) (h : Link → Link) (s : State) : (s.modLink j h).isobar = s.isobar := rfl
@[simp] theorem State.modLink_isoSeq (j : Nat) (h : Link → Link) (s : State) : (s.modLink j h).isoSeq = s.isoSeq := rfl
@[simp] theorem State.modLink_waiters (j : Nat) (h : Link → Link) (s : State) : (s.modLink j h).waiters = s.waiters := rfl
@[simp] theorem State.modLink_touched (j : Nat) (h : Link → Link) (s : State) : (s.modLink j h).touched = s.touched := rfl
@[simp] theorem State.modLink_pqs (j : Nat) (h : Link → Link) (s : State) : (s.modLink j h).pqs = s.pqs := rfl
@[simp] theorem State.modLink_flits (j : Nat) (h : Link → Link) (s : State) : (s.modLink j h).flits = s.flits := rfl
@[simp] theorem State.modLink_hcq (j : Nat) (h : Link → Link) (s : State) : (s.modLink j h).hcq = s.hcq := rfl
@[simp] theorem State.modLink_hbm (j : Nat) (h : Link → Link) (s : State) : (s.modLink j h).hbm = s.hbm := rfl
@[simp] theorem State.modLink_poison (j : Nat) (h : Link → Link) (s : State) : (s.modLink j h).poison = s.poison := rfl
@[simp] theorem State.modLink_moved (j : Nat) (h : Link → Link) (s : State) : (s.modLink j h).moved = s.moved := rfl
@[simp] theorem State.modLink_rewrites (j : Nat) (h : Link → Link) (s : State) : (s.modLink j h).rewrites = s.rewrites := rfl
@[simp] theorem State.modLink_slotsJ (j : Nat) (h : Link → Link) (s : State) : (s.modLink j h).slotsJ = s.slotsJ := rfl
@[simp] theorem State.modLink_slotsB (j : Nat) (h : Link → Link) (s : State) : (s.modLink j h).slotsB = s.slotsB := rfl
@[simp] theorem State.modLink_slotsM (j : Nat) (h : Link → Link) (s : State) : (s.modLink j h).slotsM = s.slotsM := rfl
@[simp] theorem State.modLink_slotsL (j : Nat) (h : Link → Link) (s : State) : (s.modLink j h).slotsL = s.slotsL := rfl
@[simp] theorem State.modLink_breeze (j : Nat) (h : Link → Link) (s : State) : (s.modLink j h).breeze = s.breeze := rfl
@[simp] theorem State.modLink_rings (j : Nat) (h : Link → Link) (s : State) : (s.modLink j h).rings = s.rings := rfl
@[simp] theorem State.modLink_polls (j : Nat) (h : Link → Link) (s : State) : (s.modLink j h).polls = s.polls := rfl
@[simp] theorem State.modLink_funcs (j : Nat) (h : Link → Link) (s : State) : (s.modLink j h).funcs = s.funcs := rfl
@[simp] theorem State.modLink_vfEnable (j : Nat) (h : Link → Link) (s : State) : (s.modLink j h).vfEnable = s.vfEnable := rfl
@[simp] theorem State.modLink_tens (j : Nat) (h : Link → Link) (s : State) : (s.modLink j h).tens = s.tens := rfl
@[simp] theorem State.modLink_granules (j : Nat) (h : Link → Link) (s : State) : (s.modLink j h).granules = s.granules := rfl
@[simp] theorem State.modLink_granPoison (j : Nat) (h : Link → Link) (s : State) : (s.modLink j h).granPoison = s.granPoison := rfl
@[simp] theorem State.modLink_handles (j : Nat) (h : Link → Link) (s : State) : (s.modLink j h).handles = s.handles := rfl
@[simp] theorem State.modLink_startCount (j : Nat) (h : Link → Link) (s : State) : (s.modLink j h).startCount = s.startCount := rfl
@[simp] theorem State.modLink_unitEpoch (j : Nat) (h : Link → Link) (s : State) : (s.modLink j h).unitEpoch = s.unitEpoch := rfl
@[simp] theorem State.modLink_reqEpoch (j : Nat) (h : Link → Link) (s : State) : (s.modLink j h).reqEpoch = s.reqEpoch := rfl
@[simp] theorem State.modLink_lastCommit (j : Nat) (h : Link → Link) (s : State) : (s.modLink j h).lastCommit = s.lastCommit := rfl
@[simp] theorem State.modLink_quiesces (j : Nat) (h : Link → Link) (s : State) : (s.modLink j h).quiesces = s.quiesces := rfl
@[simp] theorem State.modLink_evRings (j : Nat) (h : Link → Link) (s : State) : (s.modLink j h).evRings = s.evRings := rfl
@[simp] theorem State.modLink_coalesce (j : Nat) (h : Link → Link) (s : State) : (s.modLink j h).coalesce = s.coalesce := rfl
@[simp] theorem State.modLink_twins (j : Nat) (h : Link → Link) (s : State) : (s.modLink j h).twins = s.twins := rfl
@[simp] theorem State.modLink_excluded (j : Nat) (h : Link → Link) (s : State) : (s.modLink j h).excluded = s.excluded := rfl
@[simp] theorem State.modLink_heldEv (j : Nat) (h : Link → Link) (s : State) : (s.modLink j h).heldEv = s.heldEv := rfl
@[simp] theorem State.modLink_mgmt (j : Nat) (h : Link → Link) (s : State) : (s.modLink j h).mgmt = s.mgmt := rfl
@[simp] theorem State.modLink_doms (j : Nat) (h : Link → Link) (s : State) : (s.modLink j h).doms = s.doms := rfl
@[simp] theorem State.modLink_supply (j : Nat) (h : Link → Link) (s : State) : (s.modLink j h).supply = s.supply := rfl
@[simp] theorem State.modLink_store (j : Nat) (h : Link → Link) (s : State) : (s.modLink j h).store = s.store := rfl
@[simp] theorem State.modLink_fuses (j : Nat) (h : Link → Link) (s : State) : (s.modLink j h).fuses = s.fuses := rfl
@[simp] theorem State.modLink_boot (j : Nat) (h : Link → Link) (s : State) : (s.modLink j h).boot = s.boot := rfl
@[simp] theorem State.modLink_domain (j : Nat) (h : Link → Link) (s : State) : (s.modLink j h).domain = s.domain := rfl
@[simp] theorem State.modLink_rimes (j : Nat) (h : Link → Link) (s : State) : (s.modLink j h).rimes = s.rimes := rfl
@[simp] theorem State.modLink_hbmLog (j : Nat) (h : Link → Link) (s : State) : (s.modLink j h).hbmLog = s.hbmLog := rfl
@[simp] theorem State.modLink_hbmRow (j : Nat) (h : Link → Link) (s : State) : (s.modLink j h).hbmRow = s.hbmRow := rfl
@[simp] theorem State.modLink_hbmAhead (j : Nat) (h : Link → Link) (s : State) : (s.modLink j h).hbmAhead = s.hbmAhead := rfl
@[simp] theorem State.modLink_hbmBytes (j : Nat) (h : Link → Link) (s : State) : (s.modLink j h).hbmBytes = s.hbmBytes := rfl
@[simp] theorem State.modLink_scrubs (j : Nat) (h : Link → Link) (s : State) : (s.modLink j h).scrubs = s.scrubs := rfl
@[simp] theorem State.modLink_exclWait (j : Nat) (h : Link → Link) (s : State) : (s.modLink j h).exclWait = s.exclWait := rfl
@[simp] theorem State.modLink_retiring (j : Nat) (h : Link → Link) (s : State) : (s.modLink j h).retiring = s.retiring := rfl
@[simp] theorem State.modLink_turn (j : Nat) (h : Link → Link) (s : State) : (s.modLink j h).turn = s.turn := rfl
@[simp] theorem State.modLink_mbx (j : Nat) (h : Link → Link) (s : State) : (s.modLink j h).mbx = s.mbx := rfl
@[simp] theorem State.modLink_mbxHeld (j : Nat) (h : Link → Link) (s : State) : (s.modLink j h).mbxHeld = s.mbxHeld := rfl
@[simp] theorem State.modLink_snap (j : Nat) (h : Link → Link) (s : State) : (s.modLink j h).snap = s.snap := rfl

@[simp] theorem State.modRime_phase (d : Nat) (h : Rime → Rime) (s : State) : (s.modRime d h).phase = s.phase := rfl
@[simp] theorem State.modRime_frost (d : Nat) (h : Rime → Rime) (s : State) : (s.modRime d h).frost = s.frost := rfl
@[simp] theorem State.modRime_tick (d : Nat) (h : Rime → Rime) (s : State) : (s.modRime d h).tick = s.tick := rfl
@[simp] theorem State.modRime_regs (d : Nat) (h : Rime → Rime) (s : State) : (s.modRime d h).regs = s.regs := rfl
@[simp] theorem State.modRime_free (d : Nat) (h : Rime → Rime) (s : State) : (s.modRime d h).free = s.free := rfl
@[simp] theorem State.modRime_out (d : Nat) (h : Rime → Rime) (s : State) : (s.modRime d h).out = s.out := rfl
@[simp] theorem State.modRime_pending (d : Nat) (h : Rime → Rime) (s : State) : (s.modRime d h).pending = s.pending := rfl
@[simp] theorem State.modRime_pins (d : Nat) (h : Rime → Rime) (s : State) : (s.modRime d h).pins = s.pins := rfl
@[simp] theorem State.modRime_tiles (d : Nat) (h : Rime → Rime) (s : State) : (s.modRime d h).tiles = s.tiles := rfl
@[simp] theorem State.modRime_isobar (d : Nat) (h : Rime → Rime) (s : State) : (s.modRime d h).isobar = s.isobar := rfl
@[simp] theorem State.modRime_isoSeq (d : Nat) (h : Rime → Rime) (s : State) : (s.modRime d h).isoSeq = s.isoSeq := rfl
@[simp] theorem State.modRime_waiters (d : Nat) (h : Rime → Rime) (s : State) : (s.modRime d h).waiters = s.waiters := rfl
@[simp] theorem State.modRime_touched (d : Nat) (h : Rime → Rime) (s : State) : (s.modRime d h).touched = s.touched := rfl
@[simp] theorem State.modRime_pqs (d : Nat) (h : Rime → Rime) (s : State) : (s.modRime d h).pqs = s.pqs := rfl
@[simp] theorem State.modRime_flits (d : Nat) (h : Rime → Rime) (s : State) : (s.modRime d h).flits = s.flits := rfl
@[simp] theorem State.modRime_hcq (d : Nat) (h : Rime → Rime) (s : State) : (s.modRime d h).hcq = s.hcq := rfl
@[simp] theorem State.modRime_hbm (d : Nat) (h : Rime → Rime) (s : State) : (s.modRime d h).hbm = s.hbm := rfl
@[simp] theorem State.modRime_poison (d : Nat) (h : Rime → Rime) (s : State) : (s.modRime d h).poison = s.poison := rfl
@[simp] theorem State.modRime_moved (d : Nat) (h : Rime → Rime) (s : State) : (s.modRime d h).moved = s.moved := rfl
@[simp] theorem State.modRime_rewrites (d : Nat) (h : Rime → Rime) (s : State) : (s.modRime d h).rewrites = s.rewrites := rfl
@[simp] theorem State.modRime_slotsJ (d : Nat) (h : Rime → Rime) (s : State) : (s.modRime d h).slotsJ = s.slotsJ := rfl
@[simp] theorem State.modRime_slotsB (d : Nat) (h : Rime → Rime) (s : State) : (s.modRime d h).slotsB = s.slotsB := rfl
@[simp] theorem State.modRime_slotsM (d : Nat) (h : Rime → Rime) (s : State) : (s.modRime d h).slotsM = s.slotsM := rfl
@[simp] theorem State.modRime_slotsL (d : Nat) (h : Rime → Rime) (s : State) : (s.modRime d h).slotsL = s.slotsL := rfl
@[simp] theorem State.modRime_breeze (d : Nat) (h : Rime → Rime) (s : State) : (s.modRime d h).breeze = s.breeze := rfl
@[simp] theorem State.modRime_rings (d : Nat) (h : Rime → Rime) (s : State) : (s.modRime d h).rings = s.rings := rfl
@[simp] theorem State.modRime_polls (d : Nat) (h : Rime → Rime) (s : State) : (s.modRime d h).polls = s.polls := rfl
@[simp] theorem State.modRime_funcs (d : Nat) (h : Rime → Rime) (s : State) : (s.modRime d h).funcs = s.funcs := rfl
@[simp] theorem State.modRime_vfEnable (d : Nat) (h : Rime → Rime) (s : State) : (s.modRime d h).vfEnable = s.vfEnable := rfl
@[simp] theorem State.modRime_tens (d : Nat) (h : Rime → Rime) (s : State) : (s.modRime d h).tens = s.tens := rfl
@[simp] theorem State.modRime_granules (d : Nat) (h : Rime → Rime) (s : State) : (s.modRime d h).granules = s.granules := rfl
@[simp] theorem State.modRime_granPoison (d : Nat) (h : Rime → Rime) (s : State) : (s.modRime d h).granPoison = s.granPoison := rfl
@[simp] theorem State.modRime_handles (d : Nat) (h : Rime → Rime) (s : State) : (s.modRime d h).handles = s.handles := rfl
@[simp] theorem State.modRime_startCount (d : Nat) (h : Rime → Rime) (s : State) : (s.modRime d h).startCount = s.startCount := rfl
@[simp] theorem State.modRime_unitEpoch (d : Nat) (h : Rime → Rime) (s : State) : (s.modRime d h).unitEpoch = s.unitEpoch := rfl
@[simp] theorem State.modRime_reqEpoch (d : Nat) (h : Rime → Rime) (s : State) : (s.modRime d h).reqEpoch = s.reqEpoch := rfl
@[simp] theorem State.modRime_lastCommit (d : Nat) (h : Rime → Rime) (s : State) : (s.modRime d h).lastCommit = s.lastCommit := rfl
@[simp] theorem State.modRime_quiesces (d : Nat) (h : Rime → Rime) (s : State) : (s.modRime d h).quiesces = s.quiesces := rfl
@[simp] theorem State.modRime_evRings (d : Nat) (h : Rime → Rime) (s : State) : (s.modRime d h).evRings = s.evRings := rfl
@[simp] theorem State.modRime_coalesce (d : Nat) (h : Rime → Rime) (s : State) : (s.modRime d h).coalesce = s.coalesce := rfl
@[simp] theorem State.modRime_twins (d : Nat) (h : Rime → Rime) (s : State) : (s.modRime d h).twins = s.twins := rfl
@[simp] theorem State.modRime_excluded (d : Nat) (h : Rime → Rime) (s : State) : (s.modRime d h).excluded = s.excluded := rfl
@[simp] theorem State.modRime_heldEv (d : Nat) (h : Rime → Rime) (s : State) : (s.modRime d h).heldEv = s.heldEv := rfl
@[simp] theorem State.modRime_mgmt (d : Nat) (h : Rime → Rime) (s : State) : (s.modRime d h).mgmt = s.mgmt := rfl
@[simp] theorem State.modRime_doms (d : Nat) (h : Rime → Rime) (s : State) : (s.modRime d h).doms = s.doms := rfl
@[simp] theorem State.modRime_supply (d : Nat) (h : Rime → Rime) (s : State) : (s.modRime d h).supply = s.supply := rfl
@[simp] theorem State.modRime_store (d : Nat) (h : Rime → Rime) (s : State) : (s.modRime d h).store = s.store := rfl
@[simp] theorem State.modRime_fuses (d : Nat) (h : Rime → Rime) (s : State) : (s.modRime d h).fuses = s.fuses := rfl
@[simp] theorem State.modRime_boot (d : Nat) (h : Rime → Rime) (s : State) : (s.modRime d h).boot = s.boot := rfl
@[simp] theorem State.modRime_links (d : Nat) (h : Rime → Rime) (s : State) : (s.modRime d h).links = s.links := rfl
@[simp] theorem State.modRime_domain (d : Nat) (h : Rime → Rime) (s : State) : (s.modRime d h).domain = s.domain := rfl
@[simp] theorem State.modRime_hbmLog (d : Nat) (h : Rime → Rime) (s : State) : (s.modRime d h).hbmLog = s.hbmLog := rfl
@[simp] theorem State.modRime_hbmRow (d : Nat) (h : Rime → Rime) (s : State) : (s.modRime d h).hbmRow = s.hbmRow := rfl
@[simp] theorem State.modRime_hbmAhead (d : Nat) (h : Rime → Rime) (s : State) : (s.modRime d h).hbmAhead = s.hbmAhead := rfl
@[simp] theorem State.modRime_hbmBytes (d : Nat) (h : Rime → Rime) (s : State) : (s.modRime d h).hbmBytes = s.hbmBytes := rfl
@[simp] theorem State.modRime_scrubs (d : Nat) (h : Rime → Rime) (s : State) : (s.modRime d h).scrubs = s.scrubs := rfl
@[simp] theorem State.modRime_exclWait (d : Nat) (h : Rime → Rime) (s : State) : (s.modRime d h).exclWait = s.exclWait := rfl
@[simp] theorem State.modRime_retiring (d : Nat) (h : Rime → Rime) (s : State) : (s.modRime d h).retiring = s.retiring := rfl
@[simp] theorem State.modRime_turn (d : Nat) (h : Rime → Rime) (s : State) : (s.modRime d h).turn = s.turn := rfl
@[simp] theorem State.modRime_mbx (d : Nat) (h : Rime → Rime) (s : State) : (s.modRime d h).mbx = s.mbx := rfl
@[simp] theorem State.modRime_mbxHeld (d : Nat) (h : Rime → Rime) (s : State) : (s.modRime d h).mbxHeld = s.mbxHeld := rfl
@[simp] theorem State.modRime_snap (d : Nat) (h : Rime → Rime) (s : State) : (s.modRime d h).snap = s.snap := rfl

@[simp] theorem State.modRing_phase (f r : Nat) (h : Ring → Ring) (s : State) : (s.modRing f r h).phase = s.phase := by
  unfold State.modRing; split <;> rfl
@[simp] theorem State.modRing_frost (f r : Nat) (h : Ring → Ring) (s : State) : (s.modRing f r h).frost = s.frost := by
  unfold State.modRing; split <;> rfl
@[simp] theorem State.modRing_tick (f r : Nat) (h : Ring → Ring) (s : State) : (s.modRing f r h).tick = s.tick := by
  unfold State.modRing; split <;> rfl
@[simp] theorem State.modRing_regs (f r : Nat) (h : Ring → Ring) (s : State) : (s.modRing f r h).regs = s.regs := by
  unfold State.modRing; split <;> rfl
@[simp] theorem State.modRing_free (f r : Nat) (h : Ring → Ring) (s : State) : (s.modRing f r h).free = s.free := by
  unfold State.modRing; split <;> rfl
@[simp] theorem State.modRing_out (f r : Nat) (h : Ring → Ring) (s : State) : (s.modRing f r h).out = s.out := by
  unfold State.modRing; split <;> rfl
@[simp] theorem State.modRing_pending (f r : Nat) (h : Ring → Ring) (s : State) : (s.modRing f r h).pending = s.pending := by
  unfold State.modRing; split <;> rfl
@[simp] theorem State.modRing_pins (f r : Nat) (h : Ring → Ring) (s : State) : (s.modRing f r h).pins = s.pins := by
  unfold State.modRing; split <;> rfl
@[simp] theorem State.modRing_tiles (f r : Nat) (h : Ring → Ring) (s : State) : (s.modRing f r h).tiles = s.tiles := by
  unfold State.modRing; split <;> rfl
@[simp] theorem State.modRing_isobar (f r : Nat) (h : Ring → Ring) (s : State) : (s.modRing f r h).isobar = s.isobar := by
  unfold State.modRing; split <;> rfl
@[simp] theorem State.modRing_isoSeq (f r : Nat) (h : Ring → Ring) (s : State) : (s.modRing f r h).isoSeq = s.isoSeq := by
  unfold State.modRing; split <;> rfl
@[simp] theorem State.modRing_waiters (f r : Nat) (h : Ring → Ring) (s : State) : (s.modRing f r h).waiters = s.waiters := by
  unfold State.modRing; split <;> rfl
@[simp] theorem State.modRing_touched (f r : Nat) (h : Ring → Ring) (s : State) : (s.modRing f r h).touched = s.touched := by
  unfold State.modRing; split <;> rfl
@[simp] theorem State.modRing_pqs (f r : Nat) (h : Ring → Ring) (s : State) : (s.modRing f r h).pqs = s.pqs := by
  unfold State.modRing; split <;> rfl
@[simp] theorem State.modRing_flits (f r : Nat) (h : Ring → Ring) (s : State) : (s.modRing f r h).flits = s.flits := by
  unfold State.modRing; split <;> rfl
@[simp] theorem State.modRing_hcq (f r : Nat) (h : Ring → Ring) (s : State) : (s.modRing f r h).hcq = s.hcq := by
  unfold State.modRing; split <;> rfl
@[simp] theorem State.modRing_hbm (f r : Nat) (h : Ring → Ring) (s : State) : (s.modRing f r h).hbm = s.hbm := by
  unfold State.modRing; split <;> rfl
@[simp] theorem State.modRing_poison (f r : Nat) (h : Ring → Ring) (s : State) : (s.modRing f r h).poison = s.poison := by
  unfold State.modRing; split <;> rfl
@[simp] theorem State.modRing_moved (f r : Nat) (h : Ring → Ring) (s : State) : (s.modRing f r h).moved = s.moved := by
  unfold State.modRing; split <;> rfl
@[simp] theorem State.modRing_rewrites (f r : Nat) (h : Ring → Ring) (s : State) : (s.modRing f r h).rewrites = s.rewrites := by
  unfold State.modRing; split <;> rfl
@[simp] theorem State.modRing_slotsJ (f r : Nat) (h : Ring → Ring) (s : State) : (s.modRing f r h).slotsJ = s.slotsJ := by
  unfold State.modRing; split <;> rfl
@[simp] theorem State.modRing_slotsB (f r : Nat) (h : Ring → Ring) (s : State) : (s.modRing f r h).slotsB = s.slotsB := by
  unfold State.modRing; split <;> rfl
@[simp] theorem State.modRing_slotsM (f r : Nat) (h : Ring → Ring) (s : State) : (s.modRing f r h).slotsM = s.slotsM := by
  unfold State.modRing; split <;> rfl
@[simp] theorem State.modRing_slotsL (f r : Nat) (h : Ring → Ring) (s : State) : (s.modRing f r h).slotsL = s.slotsL := by
  unfold State.modRing; split <;> rfl
@[simp] theorem State.modRing_breeze (f r : Nat) (h : Ring → Ring) (s : State) : (s.modRing f r h).breeze = s.breeze := by
  unfold State.modRing; split <;> rfl
@[simp] theorem State.modRing_polls (f r : Nat) (h : Ring → Ring) (s : State) : (s.modRing f r h).polls = s.polls := by
  unfold State.modRing; split <;> rfl
@[simp] theorem State.modRing_funcs (f r : Nat) (h : Ring → Ring) (s : State) : (s.modRing f r h).funcs = s.funcs := by
  unfold State.modRing; split <;> rfl
@[simp] theorem State.modRing_vfEnable (f r : Nat) (h : Ring → Ring) (s : State) : (s.modRing f r h).vfEnable = s.vfEnable := by
  unfold State.modRing; split <;> rfl
@[simp] theorem State.modRing_tens (f r : Nat) (h : Ring → Ring) (s : State) : (s.modRing f r h).tens = s.tens := by
  unfold State.modRing; split <;> rfl
@[simp] theorem State.modRing_granules (f r : Nat) (h : Ring → Ring) (s : State) : (s.modRing f r h).granules = s.granules := by
  unfold State.modRing; split <;> rfl
@[simp] theorem State.modRing_granPoison (f r : Nat) (h : Ring → Ring) (s : State) : (s.modRing f r h).granPoison = s.granPoison := by
  unfold State.modRing; split <;> rfl
@[simp] theorem State.modRing_handles (f r : Nat) (h : Ring → Ring) (s : State) : (s.modRing f r h).handles = s.handles := by
  unfold State.modRing; split <;> rfl
@[simp] theorem State.modRing_startCount (f r : Nat) (h : Ring → Ring) (s : State) : (s.modRing f r h).startCount = s.startCount := by
  unfold State.modRing; split <;> rfl
@[simp] theorem State.modRing_unitEpoch (f r : Nat) (h : Ring → Ring) (s : State) : (s.modRing f r h).unitEpoch = s.unitEpoch := by
  unfold State.modRing; split <;> rfl
@[simp] theorem State.modRing_reqEpoch (f r : Nat) (h : Ring → Ring) (s : State) : (s.modRing f r h).reqEpoch = s.reqEpoch := by
  unfold State.modRing; split <;> rfl
@[simp] theorem State.modRing_lastCommit (f r : Nat) (h : Ring → Ring) (s : State) : (s.modRing f r h).lastCommit = s.lastCommit := by
  unfold State.modRing; split <;> rfl
@[simp] theorem State.modRing_quiesces (f r : Nat) (h : Ring → Ring) (s : State) : (s.modRing f r h).quiesces = s.quiesces := by
  unfold State.modRing; split <;> rfl
@[simp] theorem State.modRing_evRings (f r : Nat) (h : Ring → Ring) (s : State) : (s.modRing f r h).evRings = s.evRings := by
  unfold State.modRing; split <;> rfl
@[simp] theorem State.modRing_coalesce (f r : Nat) (h : Ring → Ring) (s : State) : (s.modRing f r h).coalesce = s.coalesce := by
  unfold State.modRing; split <;> rfl
@[simp] theorem State.modRing_twins (f r : Nat) (h : Ring → Ring) (s : State) : (s.modRing f r h).twins = s.twins := by
  unfold State.modRing; split <;> rfl
@[simp] theorem State.modRing_excluded (f r : Nat) (h : Ring → Ring) (s : State) : (s.modRing f r h).excluded = s.excluded := by
  unfold State.modRing; split <;> rfl
@[simp] theorem State.modRing_heldEv (f r : Nat) (h : Ring → Ring) (s : State) : (s.modRing f r h).heldEv = s.heldEv := by
  unfold State.modRing; split <;> rfl
@[simp] theorem State.modRing_mgmt (f r : Nat) (h : Ring → Ring) (s : State) : (s.modRing f r h).mgmt = s.mgmt := by
  unfold State.modRing; split <;> rfl
@[simp] theorem State.modRing_doms (f r : Nat) (h : Ring → Ring) (s : State) : (s.modRing f r h).doms = s.doms := by
  unfold State.modRing; split <;> rfl
@[simp] theorem State.modRing_supply (f r : Nat) (h : Ring → Ring) (s : State) : (s.modRing f r h).supply = s.supply := by
  unfold State.modRing; split <;> rfl
@[simp] theorem State.modRing_store (f r : Nat) (h : Ring → Ring) (s : State) : (s.modRing f r h).store = s.store := by
  unfold State.modRing; split <;> rfl
@[simp] theorem State.modRing_fuses (f r : Nat) (h : Ring → Ring) (s : State) : (s.modRing f r h).fuses = s.fuses := by
  unfold State.modRing; split <;> rfl
@[simp] theorem State.modRing_boot (f r : Nat) (h : Ring → Ring) (s : State) : (s.modRing f r h).boot = s.boot := by
  unfold State.modRing; split <;> rfl
@[simp] theorem State.modRing_links (f r : Nat) (h : Ring → Ring) (s : State) : (s.modRing f r h).links = s.links := by
  unfold State.modRing; split <;> rfl
@[simp] theorem State.modRing_domain (f r : Nat) (h : Ring → Ring) (s : State) : (s.modRing f r h).domain = s.domain := by
  unfold State.modRing; split <;> rfl
@[simp] theorem State.modRing_rimes (f r : Nat) (h : Ring → Ring) (s : State) : (s.modRing f r h).rimes = s.rimes := by
  unfold State.modRing; split <;> rfl
@[simp] theorem State.modRing_hbmLog (f r : Nat) (h : Ring → Ring) (s : State) : (s.modRing f r h).hbmLog = s.hbmLog := by
  unfold State.modRing; split <;> rfl
@[simp] theorem State.modRing_hbmRow (f r : Nat) (h : Ring → Ring) (s : State) : (s.modRing f r h).hbmRow = s.hbmRow := by
  unfold State.modRing; split <;> rfl
@[simp] theorem State.modRing_hbmAhead (f r : Nat) (h : Ring → Ring) (s : State) : (s.modRing f r h).hbmAhead = s.hbmAhead := by
  unfold State.modRing; split <;> rfl
@[simp] theorem State.modRing_hbmBytes (f r : Nat) (h : Ring → Ring) (s : State) : (s.modRing f r h).hbmBytes = s.hbmBytes := by
  unfold State.modRing; split <;> rfl
@[simp] theorem State.modRing_scrubs (f r : Nat) (h : Ring → Ring) (s : State) : (s.modRing f r h).scrubs = s.scrubs := by
  unfold State.modRing; split <;> rfl
@[simp] theorem State.modRing_exclWait (f r : Nat) (h : Ring → Ring) (s : State) : (s.modRing f r h).exclWait = s.exclWait := by
  unfold State.modRing; split <;> rfl
@[simp] theorem State.modRing_retiring (f r : Nat) (h : Ring → Ring) (s : State) : (s.modRing f r h).retiring = s.retiring := by
  unfold State.modRing; split <;> rfl
@[simp] theorem State.modRing_turn (f r : Nat) (h : Ring → Ring) (s : State) : (s.modRing f r h).turn = s.turn := by
  unfold State.modRing; split <;> rfl
@[simp] theorem State.modRing_mbx (f r : Nat) (h : Ring → Ring) (s : State) : (s.modRing f r h).mbx = s.mbx := by
  unfold State.modRing; split <;> rfl
@[simp] theorem State.modRing_mbxHeld (f r : Nat) (h : Ring → Ring) (s : State) : (s.modRing f r h).mbxHeld = s.mbxHeld := by
  unfold State.modRing; split <;> rfl
@[simp] theorem State.modRing_snap (f r : Nat) (h : Ring → Ring) (s : State) : (s.modRing f r h).snap = s.snap := by
  unfold State.modRing; split <;> rfl

end Sys2Proof.Machine
end

