-- ==== Sys2Proof/Laws/Power.lean ====
section
/-! SUPPORT. What an event record and the power manager's budgeting leave alone. -/

namespace Sys2Proof.Machine

/-! ### Folds -/

/-- A fold keeps what each of its steps keeps. -/
theorem foldl_keep {α β : Type} (F : State → β) (l : List α) (f : State → α → State) (s : State)
    (h : ∀ s, ∀ a ∈ l, F (f s a) = F s) : F (l.foldl f s) = F s := by
  induction l generalizing s with
  | nil => rfl
  | cons a l ih =>
    rw [List.foldl_cons, ih _ (fun s b hb => h s b (List.mem_cons_of_mem _ hb)), h s a List.mem_cons_self]

/-! ### Event records -/

theorem State.get_ite_self {c : Prop} [Decidable c] {a s : State} {x : Fld} (h : a.get x = s.get x) : (if c then a else s).get x = s.get x := by
  split
  · exact h
  · rfl

theorem ite_self_keep {β : Type} {F : State → β} {c : Prop} [Decidable c] {a s : State} (h : F a = F s) : F (if c then a else s) = F s := by
  split
  · exact h
  · rfl

/-- A field that no event ring counts in. -/
def OffEvents (x : Fld) : Prop := ∀ i, x.key ≠ (evHeld i).key ∧ x.key ≠ (evDropped i).key

/-- A field is off the event rings where its register is none of theirs. -/
theorem offEvents_of {x : Fld} (h8 : x.off % 8 = 0) (hm : x.off ≠ 0x102018) (ht : x.off % 0x10000 ≠ 0x48) (hl : x.lo < 64) : OffEvents x := by
  intro i
  unfold evHeld evDropped
  split <;>
    simp only [Fld.key, Reg.MC_EVR_STATE_HELD, Reg.MC_EVR_STATE_DROPPED, Reg.TN_EVR_STATE_HELD, Reg.TN_EVR_STATE_DROPPED] <;> omega

theorem State.pushEvent_get (i : Nat) (e : EvRec) (s : State) {x : Fld} (h : OffEvents x) : (s.pushEvent i e).get x = s.get x := by
  unfold State.pushEvent State.bump
  split
  · rw [State.get_set_ne (h i).1, State.get_modEvRing]
  · rw [State.get_set_ne (h i).2, State.get_modEvRing]

theorem State.logEvent_get (e : EvRec) (s : State) {x : Fld} (h : OffEvents x) : (s.logEvent e).get x = s.get x := by
  unfold State.logEvent
  dsimp only
  split
  · rw [State.pushEvent_get _ _ _ h, State.pushEvent_get _ _ _ h]
  · rw [State.pushEvent_get _ _ _ h]

theorem State.logRefused_get (off func v : Nat) (s : State) {x : Fld} (h : OffEvents x) : (s.logRefused off func v).get x = s.get x :=
  State.logEvent_get _ _ h

/-! ### The power manager -/

/-- A field that neither budgeting nor an event record writes. -/
def OffPower (x : Fld) : Prop :=
  OffEvents x ∧
  (∀ n < 86, x.key ≠ (Reg.PWR_DOM_STATE_ALLOW n).key ∧ x.key ≠ (Reg.PWR_DOM_STATE_LENDING n).key ∧
    x.key ≠ (Reg.PWR_DOM_STATE_BORROWING n).key ∧ x.key ≠ (Reg.PWR_DOM_STATE_STEP n).key) ∧
  (∀ t < 17, x.key ≠ (Reg.PWR_TNCAP_BORROWED t).key ∧ x.key ≠ (Reg.PWR_TNCAP_OVERCAP t).key) ∧
  x.key ≠ Reg.PWR_BUDGET_STATUS_LENT.key

@[simp] theorem State.get_retarget (d : Nat) (s : State) (x : Fld) : (s.retarget d).get x = s.get x := by
  unfold State.retarget
  dsimp only
  split
  · rfl
  · exact State.get_congr rfl x

@[simp] theorem State.get_modDom (n : Nat) (f : Dom → Dom) (s : State) (x : Fld) : (s.modDom n f).get x = s.get x := rfl

@[simp] theorem State.get_fall (n q : Nat) (s : State) (x : Fld) : (s.fall n q).get x = s.get x := by
  unfold State.fall State.askGrant
  split
  · rfl
  · exact State.get_congr rfl x

@[simp] theorem State.get_retargetAll (s : State) (x : Fld) : s.retargetAll.get x = s.get x :=
  foldl_keep (fun s => s.get x) _ _ _ (fun z d _ => State.get_retarget d z x)

theorem State.stepDomain_get {n : Nat} (k : Nat) (s : State) {x : Fld} (h : x.key ≠ (Reg.PWR_DOM_STATE_STEP n).key) :
    (s.stepDomain n k).get x = s.get x := by
  unfold State.stepDomain
  dsimp only
  split
  · rw [State.get_retarget, State.get_fall, State.get_modDom, State.get_set_ne h]
  · rw [State.get_retarget, State.get_modDom]

theorem State.applyStep_get {n : Nat} (k : Nat) (s : State) {x : Fld} (h : x.key ≠ (Reg.PWR_DOM_STATE_STEP n).key) :
    (s.applyStep n k).get x = s.get x := by
  have e1 : ∀ z : State, (z.stepDomain n k).get x = z.get x := fun z => State.stepDomain_get k z h
  unfold State.applyStep
  dsimp only
  repeat' split
  all_goals first
    | rfl
    | exact e1 _
    | (rw [e1]; rfl)
    | exact State.get_congr rfl x

theorem bitList_lt {n x i : Nat} (h : i ∈ bitList n x) : i < n := by
  simp only [bitList, List.mem_filter, List.mem_range] at h
  exact h.1

theorem State.budgetTen_get (loan : Nat) {t : Nat} (ht : t < 17) (s : State) {x : Fld} (h : OffPower x) :
    (s.budgetTen loan t).get x = s.get x := by
  unfold State.budgetTen
  dsimp only
  rw [foldl_keep (fun s => s.get x)]
  · rw [State.get_set_ne (h.2.2.1 t ht).2, State.get_set_ne (h.2.2.1 t ht).1, State.get_modTen]
    exact State.get_ite_self (State.logEvent_get _ _ h.1)
  · intro z g hg
    have hg' : g < 86 := Nat.lt_trans (bitList_lt hg) (by decide)
    obtain ⟨ha, hl, hb, hs⟩ := h.2.1 g hg'
    split
    · rw [State.get_set_ne hb, State.get_set_ne hl, State.get_set_ne ha]
    · rw [State.applyStep_get _ _ hs, State.get_modDom, State.get_set_ne hb, State.get_set_ne hl, State.get_set_ne ha]

theorem State.rimeStep_get {d : Nat} (hd : d < 4) (s : State) {x : Fld} (h : OffPower x) : (s.rimeStep d).get x = s.get x := by
  have hs := (h.2.1 (68 + d) (by omega)).2.2.2
  unfold State.rimeStep
  dsimp only
  repeat' split
  all_goals first
    | rfl
    | exact State.stepDomain_get _ _ hs
    | exact State.applyStep_get _ _ hs
    | rw [State.get_modDom, State.get_set_ne hs]

/-- Budgeting writes the allowances, the lending and borrowing bits, the steps, BORROWED, OVERCAP and LENT, and no other field but the
event rings'. -/
theorem State.rebudget_get (s : State) {x : Fld} (h : OffPower x) : s.rebudget.get x = s.get x := by
  unfold State.rebudget
  dsimp only
  rw [State.get_retargetAll, foldl_keep (fun s => s.get x), State.get_set_ne h.2.2.2, foldl_keep (fun s => s.get x)]
  · intro z t ht
    simp only [State.startedTens, List.mem_filter, List.mem_range] at ht
    exact State.budgetTen_get _ ht.1 _ h
  · intro z d hd
    exact State.rimeStep_get (List.mem_range.mp hd) _ h

/-- A field of the supply, of a domain's state and of most blocks is off what budgeting writes. -/
theorem offPower_of {x : Fld} (h8 : x.off % 8 = 0) (hl : x.lo < 64) (hm : x.off ≠ 0x102018) (ht : x.off % 0x10000 ≠ 0x48)
    (hd : x.off < 0xB00000 ∨ 0xB08188 ≤ x.off ∨ (0xB05600 ≤ x.off ∧ x.off < 0xB08058) ∨ (x.off % 256 = 0x18 ∧ x.off < 0xB08000 ∧ x.lo = 0)) : OffPower x := by
  refine ⟨offEvents_of h8 hm ht hl, fun n hn => ?_, fun t ht => ?_, ?_⟩
  · simp only [Fld.key, Reg.PWR_DOM_STATE_ALLOW, Reg.PWR_DOM_STATE_LENDING, Reg.PWR_DOM_STATE_BORROWING, Reg.PWR_DOM_STATE_STEP]
    omega
  · simp only [Fld.key, Reg.PWR_TNCAP_BORROWED, Reg.PWR_TNCAP_OVERCAP]
    omega
  · simp only [Fld.key, Reg.PWR_BUDGET_STATUS_LENT]
    omega

theorem offPower_domState {n : Nat} (hn : n < 86) : OffPower (Reg.PWR_DOM_STATE_STATE n) :=
  offPower_of (by simp only [Reg.PWR_DOM_STATE_STATE]; omega) (by simp [Reg.PWR_DOM_STATE_STATE]) (by simp only [Reg.PWR_DOM_STATE_STATE]; omega)
    (by simp only [Reg.PWR_DOM_STATE_STATE]; omega) (Or.inr (Or.inr (Or.inr ⟨by simp only [Reg.PWR_DOM_STATE_STATE]; omega, by simp only [Reg.PWR_DOM_STATE_STATE]; omega, rfl⟩)))

/-! ### What budgeting leaves alone beside the register file -/

/-- The state without what budgeting and event records may change: registers, domains, tenancies, supply, event rings. -/
def State.still (s : State) : State :=
  { s with regs := [], doms := State.reset.doms, tens := State.reset.tens, supply := {}, evRings := State.reset.evRings }

@[simp] theorem State.set_still (f : Fld) (v : Nat) (s : State) : (s.set f v).still = s.still := rfl
@[simp] theorem State.modTen_still (t : Nat) (h : Tenancy → Tenancy) (s : State) : (s.modTen t h).still = s.still := rfl
@[simp] theorem State.modDom_still (n : Nat) (f : Dom → Dom) (s : State) : (s.modDom n f).still = s.still := rfl

theorem State.pushEvent_still (i : Nat) (e : EvRec) (s : State) : (s.pushEvent i e).still = s.still := by
  unfold State.pushEvent
  split <;> rfl

theorem State.logEvent_still (e : EvRec) (s : State) : (s.logEvent e).still = s.still := by
  unfold State.logEvent
  dsimp only
  split
  · rw [State.pushEvent_still, State.pushEvent_still]
  · rw [State.pushEvent_still]

theorem State.fall_still (n q : Nat) (s : State) : (s.fall n q).still = s.still := by
  unfold State.fall State.askGrant
  split <;> rfl

theorem State.retarget_still (d : Nat) (s : State) : (s.retarget d).still = s.still := by
  unfold State.retarget
  dsimp only
  split <;> rfl

theorem State.retargetAll_still (s : State) : s.retargetAll.still = s.still :=
  foldl_keep State.still _ _ _ (fun z d _ => State.retarget_still d z)

theorem State.stepDomain_still (n k : Nat) (s : State) : (s.stepDomain n k).still = s.still := by
  unfold State.stepDomain
  dsimp only
  split
  · rw [State.retarget_still, State.fall_still, State.modDom_still, State.set_still]
  · rw [State.retarget_still, State.modDom_still]

theorem State.applyStep_still (n k : Nat) (s : State) : (s.applyStep n k).still = s.still := by
  unfold State.applyStep
  dsimp only
  repeat' split
  all_goals first | rfl | exact State.stepDomain_still _ _ _ | (rw [State.stepDomain_still]; rfl)

theorem State.budgetTen_still (loan t : Nat) (s : State) : (s.budgetTen loan t).still = s.still := by
  unfold State.budgetTen
  dsimp only
  rw [foldl_keep State.still]
  · rw [State.set_still, State.set_still, State.modTen_still]
    exact ite_self_keep (F := State.still) (State.logEvent_still _ _)
  · intro z g _
    split
    · simp only [State.set_still]
    · rw [State.applyStep_still]; simp only [State.set_still, State.modDom_still]

theorem State.rimeStep_still (d : Nat) (s : State) : (s.rimeStep d).still = s.still := by
  unfold State.rimeStep
  dsimp only
  repeat' split
  all_goals first | rfl | exact State.stepDomain_still _ _ _ | exact State.applyStep_still _ _ _

/-- Budgeting changes registers, domains, tenancies, the supply and the event rings alone. -/
theorem State.rebudget_still (s : State) : s.rebudget.still = s.still := by
  unfold State.rebudget
  dsimp only
  rw [State.retargetAll_still, foldl_keep State.still _ _ _ (fun z d _ => State.rimeStep_still d z)]
  show State.still (List.foldl _ _ _) = _
  exact foldl_keep State.still _ _ _ (fun z t _ => State.budgetTen_still _ t z)

theorem State.still_phase (s : State) : s.still.phase = s.phase := rfl
theorem State.still_tiles (s : State) : s.still.tiles = s.tiles := rfl
theorem State.still_tick (s : State) : s.still.tick = s.tick := rfl
theorem State.still_hbm (s : State) : s.still.hbm = s.hbm := rfl
theorem State.still_out (s : State) : s.still.out = s.out := rfl
theorem State.still_frost (s : State) : s.still.frost = s.frost := rfl
theorem State.still_rings (s : State) : s.still.rings = s.rings := rfl

@[simp] theorem State.rebudget_phase (s : State) : s.rebudget.phase = s.phase := by
  rw [← State.still_phase s.rebudget, State.rebudget_still, State.still_phase]
@[simp] theorem State.rebudget_tiles (s : State) : s.rebudget.tiles = s.tiles := by
  rw [← State.still_tiles s.rebudget, State.rebudget_still, State.still_tiles]
@[simp] theorem State.rebudget_tick (s : State) : s.rebudget.tick = s.tick := by
  rw [← State.still_tick s.rebudget, State.rebudget_still, State.still_tick]
@[simp] theorem State.rebudget_hbm (s : State) : s.rebudget.hbm = s.hbm := by
  rw [← State.still_hbm s.rebudget, State.rebudget_still, State.still_hbm]
@[simp] theorem State.rebudget_out (s : State) : s.rebudget.out = s.out := by
  rw [← State.still_out s.rebudget, State.rebudget_still, State.still_out]
@[simp] theorem State.rebudget_frost (s : State) : s.rebudget.frost = s.frost := by
  rw [← State.still_frost s.rebudget, State.rebudget_still, State.still_frost]
@[simp] theorem State.rebudget_rings (s : State) : s.rebudget.rings = s.rings := by
  rw [← State.still_rings s.rebudget, State.rebudget_still, State.still_rings]

/-! ### The ladder's part of a domain -/

/-- A domain's exit, grant, entry and latched wake. -/
def State.ladder (s : State) (m : Nat) : Option (Word × Nat) × Option Word × Option (Nat × Word) × Bool :=
  ((s.dom m).exiting, (s.dom m).granted, (s.dom m).entering, (s.dom m).wake)

theorem State.dom_modDom (n m : Nat) (f : Dom → Dom) (s : State) :
    (s.modDom n f).dom m = if m = n ∧ n < 86 then f (s.dom n) else s.dom m := by
  unfold State.modDom State.dom
  by_cases h : n = m
  · subst h
    by_cases hn : n < 86 <;> simp [hn]
  · simp [h, Ne.symm h]

/-- A change of a domain that keeps its ladder part. -/
theorem State.modDom_ladder (n : Nat) (f : Dom → Dom) (s : State)
    (h : ∀ d : Dom, (f d).exiting = d.exiting ∧ (f d).granted = d.granted ∧ (f d).entering = d.entering ∧ (f d).wake = d.wake) (m : Nat) :
    (s.modDom n f).ladder m = s.ladder m := by
  unfold State.ladder
  rw [State.dom_modDom]
  split
  · rename_i hm
    obtain ⟨h1, h2, h3, h4⟩ := h (s.dom n)
    rw [h1, h2, h3, h4, hm.1]
  · rfl

theorem State.ladder_congr {s t : State} (h : t.doms = s.doms) (m : Nat) : t.ladder m = s.ladder m := by
  simp only [State.ladder, State.dom, h]

theorem State.retarget_doms (d : Nat) (s : State) : (s.retarget d).doms = s.doms := by
  unfold State.retarget
  dsimp only
  split <;> rfl

theorem State.fall_doms (n q : Nat) (s : State) : (s.fall n q).doms = s.doms := by
  unfold State.fall State.askGrant
  split <;> rfl

theorem State.retargetAll_doms (s : State) : s.retargetAll.doms = s.doms :=
  foldl_keep State.doms _ _ _ (fun z d _ => State.retarget_doms d z)

theorem State.stepDomain_ladder (n k : Nat) (s : State) (m : Nat) : (s.stepDomain n k).ladder m = s.ladder m := by
  unfold State.stepDomain
  dsimp only
  split
  · rw [State.ladder_congr (State.retarget_doms _ _), State.ladder_congr (State.fall_doms _ _ _),
      State.modDom_ladder _ _ _ (by intro d; exact ⟨rfl, rfl, rfl, rfl⟩)]
    exact State.ladder_congr rfl m
  · rw [State.ladder_congr (State.retarget_doms _ _), State.modDom_ladder _ _ _ (by intro d; exact ⟨rfl, rfl, rfl, rfl⟩)]

theorem State.applyStep_ladder (n k : Nat) (s : State) (m : Nat) : (s.applyStep n k).ladder m = s.ladder m := by
  have e : ∀ z : State, (z.stepDomain n k).ladder m = z.ladder m := fun z => State.stepDomain_ladder n k z m
  unfold State.applyStep
  dsimp only
  repeat' split
  all_goals first
    | rfl
    | exact e _
    | exact State.ladder_congr rfl m
    | (rw [e]; exact State.modDom_ladder _ _ _ (by intro d; exact ⟨rfl, rfl, rfl, rfl⟩) m)

theorem State.pushEvent_doms (i : Nat) (e : EvRec) (s : State) : (s.pushEvent i e).doms = s.doms := by
  unfold State.pushEvent
  split <;> rfl

theorem State.logEvent_doms (e : EvRec) (s : State) : (s.logEvent e).doms = s.doms := by
  unfold State.logEvent
  dsimp only
  split
  · rw [State.pushEvent_doms, State.pushEvent_doms]
  · rw [State.pushEvent_doms]

theorem State.budgetTen_ladder (loan t : Nat) (s : State) (m : Nat) : (s.budgetTen loan t).ladder m = s.ladder m := by
  unfold State.budgetTen
  dsimp only
  rw [foldl_keep (fun s => s.ladder m)]
  · refine State.ladder_congr ?_ m
    rw [State.set_doms, State.set_doms, State.modTen_doms]
    exact ite_self_keep (F := State.doms) (State.logEvent_doms _ _)
  · intro z g _
    have e : ∀ z : State, ∀ a b c, (((z.set (Reg.PWR_DOM_STATE_ALLOW g) a).set (Reg.PWR_DOM_STATE_LENDING g) b).set
        (Reg.PWR_DOM_STATE_BORROWING g) c).ladder m = z.ladder m := fun z a b c => State.ladder_congr rfl m
    split
    · exact e _ _ _ _
    · rw [State.applyStep_ladder, State.modDom_ladder _ _ _ (by intro d; exact ⟨rfl, rfl, rfl, rfl⟩)]
      exact e _ _ _ _

theorem State.rimeStep_ladder (d : Nat) (s : State) (m : Nat) : (s.rimeStep d).ladder m = s.ladder m := by
  unfold State.rimeStep
  dsimp only
  repeat' split
  all_goals first
    | with_reducible exact State.stepDomain_ladder _ _ _ m
    | with_reducible exact State.applyStep_ladder _ _ _ m
    | (rw [State.modDom_ladder _ _ _ (by intro d; exact ⟨rfl, rfl, rfl, rfl⟩)]; exact State.ladder_congr (State.set_doms _ _ _) m)
    | with_reducible rfl

/-- Budgeting leaves every domain's exit, grant, entry and latched wake alone. -/
theorem State.rebudget_ladder (s : State) (m : Nat) : s.rebudget.ladder m = s.ladder m := by
  unfold State.rebudget
  dsimp only
  rw [State.ladder_congr (State.retargetAll_doms _), foldl_keep (fun s => s.ladder m) _ _ _ (fun z d _ => State.rimeStep_ladder d z m), State.ladder_congr (State.set_doms _ _ _)]
  exact foldl_keep (fun s => s.ladder m) _ _ _ (fun z t _ => State.budgetTen_ladder _ t z m)

end Sys2Proof.Machine
end

