-- ==== Sys2Proof/WellFormed.lean ====
section
/-! DEFINITION. Well-formed commands: the lengths and ranges of the operands whose type is wider than what the world outside or the
hardware can send. The meanings are total all the same: an ill-formed command has the effect its meaning computes. -/

namespace Sys2Proof

/-- The command is one that the world outside or the module's hardware can send: offsets lie in the function's BAR0 (R396) and a register's is
a multiple of 8 (R19); a request carries the bytes it writes; the sensors, domains and stacks are those of chapter 03, R96 and R4; a link flit
is 256 bytes (R357), a doorbell record 8 (R402), a key 97 and its signature 96 bytes (R558). -/
def Instr.wf : Instr → Bool
  | .registerWrite func off _ _ => off % 8 == 0 && off < (if func.val = 0 then 2 ^ 26 else 2 ^ 16)
  | .barWideRequest func write off len data =>
    off + len ≤ (if func.val = 0 then 2 ^ 26 else 2 ^ 16) && 0 < len && data.length == (if write then len else 0)
  | .thermalSensorRead dies base hbmStacks _ _ => dies.length == 68 && base.length == 16 && hbmStacks.length == 8
  | .powerManagerTick _ _ _ _ draws => draws.length == 86
  | .bringupStage5 hbmStacks => hbmStacks.length == 8
  | .linkFlitReceive _ flit _ _ _ _ => flit.length == 256
  | .flitForward _ port _ _ _ => port < 85
  | .doorbellReadDone _ _ (.data bytes) => bytes.length == 8
  | .evrDoorbellPoll _ (.data bytes) => bytes.length == 8
  | .alloc _ _ _ (some k) => k < 256
  | .requestFirmwareData _ data => data.length == 4096
  | .ownerkey _ key sig => key.length == 97 && sig.length == 96
  | _ => true

end Sys2Proof
end

