-- ==== Sys2Proof/Tests/Slice0.lean ====
section
/-! SUPPORT. The model's own tests: commands that are not well formed, single steps whose results the spec gives, and for each statement with
hypotheses states and operands that meet those of each of its clauses. -/

open Sys2Proof Sys2Proof.Machine

namespace Sys2Proof.Tests

-- One theorem after another: the evaluations are large, and side by side they would need many stacks.
set_option Elab.async false

/-- A module that serves: its fabrics, stacks, link banks, host port and always-on parts are in L0. -/
def up : State :=
  [64, 65, 66, 67, 72, 73, 74, 75, 76, 77, 78, 79, 80, 81, 82, 83, 84, 85].foldl (fun s n => s.set (Reg.PWR_DOM_STATE_STATE n) 0)
    { phase := .ready }

/-- A module that serves, with some register fields set. -/
def st (rs : List (Fld × Nat)) : State := rs.foldl (fun s e => s.set e.1 e.2) up

theorem witness_StepRunsFront :
    ({ st [] with pending := [.perstDeassert, .tapReset true] } : State).pending = .perstDeassert :: [.tapReset true] :=
  by decide +kernel

theorem witness_EmptyQueueTicks :
    State.reset.pending = [] :=
  by decide +kernel

theorem witness_QueueIsFifo :
    ∃ t, step { st [] with pending := [.perstDeassert, .tapReset true] } = .next t ∧ t.pending = [.tapReset true] :=
  ⟨_, rfl, by decide⟩

theorem witness_BlownFusesStayBlown :
    ∃ t, step (st []) = .next t ∧ bitAt ((st []).fuse 0) 6 = true :=
  ⟨_, rfl, by decide⟩

theorem witness_RollbackNeverFalls :
    ∃ t, 1 < 2 ∧ step { st [] with pending := [.fuseBitBlown true] } = .next t :=
  ⟨_, by decide, rfl⟩

theorem witness_MemoryStaysCanonical :
    ∃ t, spWf ramByte ({ st [] with hbm := [(5, 1), (9, 255)] } : State).hbm = true ∧ step { st [] with hbm := [(5, 1), (9, 255)] } = .next t :=
  ⟨_, by decide, rfl⟩

/-- A module in the Normal, Dip or Surge band. -/
def band (b : Nat) (now : Word) : State := { st [(Reg.PWR_IN_STATUS_BAND, b)] with tick := now }

/-- A module in a phase. -/
def inPhase (p : Phase) (rs : List (Fld × Nat)) : State := { st rs with phase := p }

/-- A stop 100 ns old. -/
def stopping : State := { inPhase .stopping [] with tick := 100, supply := { stopped := true, causes := [3] } }

theorem witness_TripsStopTheModule :
    ((st []).powered = true ∧ (st []).supply.stopped = false ∧ 15 < 16 ∧ 65535 < 65536) ∧
    (stopping.phase = .stopping ∧ stopping.since stopping.supply.stopAt ≤ 100 ∧ stopping.supply.causes.contains 0 = false ∧ stopping.supply.causes.contains 15 = false) ∧
    ((inPhase .stopping []).phase = .stopping ∧ 100 < ({ stopping with tick := 101 } : State).since stopping.supply.stopAt) ∧
    ((3599#16).toNat < 3600) ∧
    ((st []).powered = true ∧ 6800 < (6801#16).toNat) ∧
    ((band 3 100000000).get Reg.PWR_IN_STATUS_BAND = 3 ∧ 100000000 ≤ (band 3 100000000).since (band 3 100000000).supply.bandAt) ∧
    ((st []).phase ≠ .stopping) ∧
    ((st []).powered = true ∧ (st []).phase ≠ .charging ∧ (st []).phase ≠ .thermalWait) := by
  and_intros
  all_goals decide +kernel

/-- A tile of a started tenancy in a dip, half a millisecond after reset. -/
def dipped : State :=
  { st [(Reg.PWR_IN_STATUS_BAND, 2), (Reg.TN_STATE_STATE 1, 2), (Reg.TN_TILES_MAP 1, 1), (Reg.TILE_STATE_TENANCY 0, 1), (Reg.PWR_DOM_STATE_STATE 0, 0)]
    with tick := 500000, supply := { heat := 16 } }

theorem witness_BandsAndThrottle :
    ((band 1 0).powered = true ∧ (band 1 0).get Reg.PWR_IN_STATUS_BAND = 1 ∧ (band 2 0).get Reg.PWR_IN_STATUS_BAND = 2 ∧ 6000 < (6001#16).toNat) ∧
    ((band 3 0).get Reg.PWR_IN_STATUS_BAND = 3 ∧ (6000#16).toNat ≤ 6000) ∧
    (3600 ≤ (3600#16).toNat ∧ (3999#16).toNat < 4000) ∧
    ((band 2 0).powered = true ∧ 4100 ≤ (4100#16).toNat) ∧
    (0 < 64 ∧ dipped.phase = .ready ∧ dipped.throttled = true ∧ dipped.steppable 0 = true) ∧
    (63 < 64 ∧ (band 1 0).phase = .ready ∧ (band 1 0).throttled = false ∧ (band 1 0).get Reg.PWR_IN_STATUS_BAND ≠ 2) := by
  and_intros
  all_goals decide +kernel

/-- A module whose rails stand at 850 mV, the others at their voltages, with a running tile on each die. -/
def railsUp : State :=
  { st [(Reg.PWR_IN_STATUS_BAND, 1), (Reg.PWR_DOM_STATE_STATE 0, 0), (Reg.PWR_DOM_STATE_STATE 48, 0)] with
    supply := { rail := ⟨#[750, 900, 900, 900, 900, 900, 900, 900, 850, 850, 850, 850, 900], rfl⟩, railTarget := Vector.replicate 4 850 } }

/-- A die's rail at its goal, with a tile that waits for its step. -/
def railWaits : State := { railsUp with doms := (Vector.replicate 86 {}).set 0 { want := some 2 } }

theorem witness_StopsAndRailFaults :
    ((inPhase .stopping []).phase = .stopping ∧ (inPhase .stopping []).supply.dueOut = none ∧ ({ dueOut := some ([], []) } : Supply).dueOut = some ([], [])) ∧
    ((inPhase .startWait []).phase = .startWait) ∧
    ((inPhase .dark []).phase = .dark) ∧
    (railsUp.powered = true ∧ railsUp.phase = .ready ∧ railsUp.supply.stopped = false ∧ railsUp.railGoal 3 ≠ 0 ∧ offRail 0 (railsUp.railMv 3) = true ∧ offRail 65535 (railsUp.railMv 0) = true) ∧
    (railsUp.railAtRest 0 ≠ 0 ∧ railsUp.railAtRest 7 ≠ 0 ∧ railsUp.railAtRest 12 ≠ 0 ∧ offRail 0 (railsUp.railAtRest 7) = true ∧ offRail 0 (railsUp.railAtRest 12) = true) ∧
    (railWaits.railMv 0 = railWaits.railGoal 0 ∧ 0 ∈ dieDomains 0 ∧ 2 < 4 ∧ (railWaits.dom 0).want = some 2 ∧ stepMv 2 ≤ railWaits.railGoal 0) := by
  and_intros
  all_goals decide +kernel

/-- A quantum waits for the common share: the wake of tile 3, its full rate, a fall. -/
def grantWaits (q : Quantum) : State :=
  { st [] with doms := (Vector.replicate 86 {}).set 3 { exiting := some (0, 200) }, supply := { grants := [(17, q, 25)] } }

theorem witness_SlewGrantsAndLimits :
    ((grantWaits (.wake 3)).supply.grants.find? (fun g => g.1 == 17) = some (17, .wake 3, 25) ∧ (grantWaits (.wake 3)).shareFree 17 = true ∧ 0 < (grantWaits (.wake 3)).shareRate 17 ∧ ((grantWaits (.wake 3)).dom 3).exiting.isSome = true) ∧
    ((grantWaits (.full 3)).supply.grants.find? (fun g => g.1 == 17) = some (17, .full 3, 25) ∧ (grantWaits (.fall 3)).supply.grants.find? (fun g => g.1 == 17) = some (17, .fall 3, 25)) ∧
    ((st []).phase = .ready ∧ partOf ((st []).get Reg.PWR_SLEW_LIMIT) .high 77 % 65536 = (st []).get Reg.PWR_SLEW_LIMIT) ∧
    (partOf ((st []).get Reg.PWR_SLEW_LIMIT) .whole 24 % 65536 ≠ (st []).get Reg.PWR_SLEW_LIMIT ∧ (24#64).toNat % 65536 < 25 ∧ 400 < (401#64).toNat % 65536) ∧
    ((st [(Reg.PWR_SLEW_SCHED, 90)]).get Reg.PWR_SLEW_LIMIT ≠ 99 ∧ 9 * ((99#64).toNat % 65536) < 10 * (st [(Reg.PWR_SLEW_SCHED, 90)]).get Reg.PWR_SLEW_SCHED) ∧
    (25 ≤ (25#64).toNat % 65536 ∧ (400#64).toNat % 65536 ≤ 400 ∧ 10 * (st []).get Reg.PWR_SLEW_SCHED ≤ 9 * ((25#64).toNat % 65536) ∧ (25#64).toNat % 65536 ≠ (st []).get Reg.PWR_SLEW_LIMIT) ∧
    ((st []).startedTens.any (fun t => (st []).on (Reg.TN_CFG_MODE t)) = false ∧ bitAt (0x8000000000000000#64).toNat 63 = true ∧ bitAt (0x7FFFFFFFFFFFFFFF#64).toNat 63 = false) ∧
    ((st [(Reg.TN_STATE_STATE 16, 2), (Reg.TN_CFG_MODE 16, 1)]).startedTens.any (fun t => (st [(Reg.TN_STATE_STATE 16, 2), (Reg.TN_CFG_MODE 16, 1)]).on (Reg.TN_CFG_MODE t)) = true ∧ (0x1234#64).toNat % 65536 ≠ (st [(Reg.TN_STATE_STATE 16, 2), (Reg.TN_CFG_MODE 16, 1)]).get Reg.PWR_DRIZZLE_WINDOW) := by
  and_intros
  all_goals decide +kernel

/-- Temperatures as the sensors bring them. -/
def temps (n : Nat) (t : BitVec 8) : List (BitVec 8) := List.replicate n t

theorem witness_SensorsAndHardwareTrip :
    ((st []).phase ≠ .dark ∧ (st []).phase ≠ .startWait ∧ (temps 8 104).length = 8 ∧ ∀ g ∈ thermalGroups (temps 68 109) (temps 16 109) (temps 8 104) 20 30, g.temp < g.crit) ∧
    ((st []).supply.stopped = false ∧ ∃ g ∈ thermalGroups (temps 68 20) (temps 16 20) (temps 8 105) 20 30, 4 ≤ g.bit ∧ g.crit ≤ g.temp) ∧
    (bitAt (st []).supply.tripped 3 = false ∧ (∀ g ∈ thermalGroups (temps 51 20 ++ temps 17 110) (temps 16 20) (temps 8 20) 20 30, 4 ≤ g.bit → g.temp < g.crit) ∧ ∃ g ∈ thermalGroups (temps 51 20 ++ temps 17 110) (temps 16 20) (temps 8 20) 20 30, g.bit = 3 ∧ g.crit ≤ g.temp) ∧
    ((inPhase .startWait []).phase = .startWait) ∧
    ((st []).powered = true ∧ (st []).store.op = none ∧ (st []).store.erase = none ∧ (st []).mbx = none) := by
  and_intros
  all_goals decide +kernel

/-- A module with pins set. -/
def pinned (p : Pins) (ph : Phase) (rs : List (Fld × Nat)) : State := { st rs with pins := p, phase := ph }

/-- TRST# is high, with a level of SCAN_EN. -/
def scan (en : Bool) (tap : Tap) : State := pinned { trst := true, scanEn := en, tap := tap } .ready []

/-- The host port is up with its link trained. -/
def hostPort (rs : List (Fld × Nat)) : State := { st (rs ++ [(Reg.RING_HOST_SPEED, 6)]) with pins := { perst := false } }

theorem witness_PinsAnswer :
    ((st []).phase ≠ .dark ∧ (st []).pins.i3c = none ∧ (st []).boot.ctrl = 0 ∧ (0x33#7).toNat = 0x30 + (pinned { ga := 3 } .ready []).pins.ga.toNat ∧ (0x32#7).toNat ≠ 0x30 + (pinned { ga := 3 } .ready []).pins.ga.toNat) ∧
    ((pinned { i3c := some 8 } .ready []).pins.i3c.isSome = true ∧ (pinned { i3c := some 8 } .ready []).phase ≠ .dark) ∧
    ((inPhase .bringUp [(Reg.BRU_STATUS_STAGE, 9)]).phase = .bringUp ∧ (inPhase .off []).phase = .off ∧ (inPhase .off []).phase ≠ .dark) ∧
    ((scan false {}).phase ≠ .dark ∧ (scan false {}).pins.trst = true ∧ (pinned {} .ready []).pins.trst = false) ∧
    ((scan true {}).inScan = true ∧ (scan true {}).pins.trst = true ∧ (scan false {}).inScan = false) ∧
    ((pinned { perst := true } .recovery []).pins.perst = true ∧ (inPhase .startWait []).hostUp = false) ∧
    ((hostPort []).hostUp = true ∧ (hostPort []).pins.perst = false) ∧
    (({ hostPort [] with boot := { enumerated := true } } : State).pcieUp = true ∧ ({ hostPort [] with boot := { enumerated := true } } : State).boot.enumerated = true ∧ ((0 : Fin 17).val = 0 ∨ (hostPort []).vfEnable = true) ∧ (16 : Fin 17).val ≠ 0 ∧ (hostPort []).vfEnable = false) ∧
    (({ hostPort [] with vfEnable := true } : State).pcieUp = true ∧ ({ hostPort [] with vfEnable := true } : State).boot.enumerated = false ∧ ((16 : Fin 17).val = 0 ∨ ({ hostPort [] with vfEnable := true } : State).vfEnable = true)) := by
  and_intros
  all_goals decide +kernel

/-- A domain of the ladder in a state, with its transition. -/
def dom (n state : Nat) (d : Dom) (now : Word) : State :=
  { st [(Reg.PWR_DOM_STATE_STATE n, state), (Reg.PWR_DOM_ID_PRESENT n, 1)] with doms := (Vector.replicate 86 {}).setIfInBounds n d, tick := now }

/-- Tile 5 in a WAITS of some depth since tick 0. -/
def waitsTo (depth : Nat) (now : Word) : State :=
  { st [(Reg.PWR_DOM_STATE_STATE 5, 1), (Reg.TILE_STATE_RUN 5, 2), (Reg.TILE_Q_WAIT_OP 5, 3), (Reg.TILE_Q_WAIT_DEPTH 5, depth)] with tick := now }

theorem witness_DomainsSleepAndWake :
    ((dom 85 0 {} 0).phase = .ready ∧ bitAt (9#64).toNat 3 = true ∧ bitAt (1#64).toNat 3 = false ∧ (dom 85 0 {} 0).reqRefused 85 1 = false ∧ (dom 85 0 {} 0).domState 85 = 0) ∧
    ((dom 85 0 {} 0).reqRefused 85 7 = true ∧ (dom 85 0 {} 0).reqRefused 85 0 = false ∧ (dom 85 1 {} 0).reqRefused 85 1 = false ∧ (dom 85 1 {} 0).domState 85 = 1) ∧
    ((dom 3 0 {} 0).reqRefused 3 3 = false ∧ (dom 3 0 {} 0).reqRefused 3 4 = false ∧ (dom 3 0 {} 0).domState 3 = 0) ∧
    (((dom 3 1 { lulled := true } 0).dom 3).lulled = true ∧ ((dom 85 2 {} 7).dom 85).lulled = false) ∧
    ((dom 3 6 { entering := some (4, 0) } 7).domState 3 = 6 ∧ ((dom 3 6 { entering := some (4, 0) } 7).dom 3).entering = some (4, 0) ∧ ((dom 3 6 { entering := some (3, 0) } 7).dom 3).entering = some (3, 0)) ∧
    ((dom 85 2 {} 7).domState 85 = 2 ∧ (dom 64 1 {} 7).domState 64 = 1 ∧ (dom 71 3 {} 7).domState 71 = 3) ∧
    ((dom 85 6 { exiting := some (0, 200), granted := some 100 } 300).domState 85 = 6 ∧ 200 ≤ (dom 85 6 { exiting := some (0, 200), granted := some 100 } 300).since 100 ∧ 72 ≤ 85 ∧ (dom 3 6 {} 0).recordPoisoned 3 = false) ∧
    ((dom 85 6 { exiting := some (0, 200), granted := some 100 } 500).exitBound 85 200 ≤ (dom 85 6 { exiting := some (0, 200), granted := some 100 } 500).since 100) ∧
    (((dom 5 6 { entering := some (3, 0) } 1000).tile 5).chans.all (fun c => c.descs.isEmpty) = true ∧ ((dom 5 6 { entering := some (3, 0) } 1000).tile 5).mxOps.isEmpty = true ∧ ((dom 5 6 { entering := some (3, 0) } 1000).tile 5).vq.isEmpty = true ∧ ((dom 5 6 { entering := some (3, 0) } 1000).dom 5).entering = some (3, 0) ∧ 1000 ≤ (dom 5 6 { entering := some (3, 0) } 1000).since 0) ∧
    (((dom 5 6 { entering := some (4, 0) } 58600).dom 5).entering = some (4, 0) ∧ 58600 ≤ (dom 5 6 { entering := some (4, 0) } 58600).since 0 ∧ ((dom 5 6 { entering := some (4, 0) } 58600).dom 5).wake = false) ∧
    (((dom 5 6 { entering := some (4, 0), wake := true } 58600).dom 5).wake = true) ∧
    ((dom 70 1 {} 100000).domState (68 + 2) = 1 ∧ ((dom 70 1 {} 100000).rime 2).active = none ∧ ((dom 70 1 {} 100000).rime 2).queue = [] ∧ 100000 ≤ (dom 70 1 {} 100000).since ((dom 70 1 {} 100000).dom 70).idleAt ∧ (dom 70 1 {} 100000).autoMay 70 3 = true ∧ ¬ (dom 70 1 {} 100000).domOwner 70 ≤ 16) ∧
    (64 ≤ 67 ∧ 67 < 68 ∧ (dom 67 0 {} 32).domState 67 = 0 ∧ (dom 67 0 {} 32).domTraffic 67 = false ∧ 32 ≤ (dom 67 0 {} 32).since ((dom 67 0 {} 32).dom 67).idleAt ∧ (dom 67 0 {} 32).autoMay 67 1 = true ∧ (dom 85 0 {} 32).domTraffic 85 = false ∧ ∀ t < 17, (dom 85 0 {} 32).tnStarted t = false) ∧
    ((waitsTo 3 20000).run 5 = runWait ∧ (waitsTo 3 20000).get (Reg.TILE_Q_WAIT_OP 5) = 3 ∧ (waitsTo 3 20000).tnPinned ((waitsTo 3 20000).tileTen 5) = false ∧ (waitsTo 3 20000).domState 5 = 1 ∧ (waitsTo 3 20000).get (Reg.TILE_Q_WAIT_DEPTH 5) = 3 ∧ 20000 ≤ (waitsTo 3 20000).since (BitVec.ofNat 64 ((waitsTo 3 20000).get (Reg.TILE_Q_WSTART_TICK 5)))) ∧
    ((waitsTo 2 2000).run 5 = runWait ∧ (waitsTo 2 2000).get (Reg.TILE_Q_WAIT_OP 5) = 3 ∧ (waitsTo 2 2000).tnPinned ((waitsTo 2 2000).tileTen 5) = false ∧ (waitsTo 2 2000).domState 5 = 1 ∧ (waitsTo 2 2000).get (Reg.TILE_Q_WAIT_DEPTH 5) = 2 ∧ 2000 ≤ (waitsTo 2 2000).since (BitVec.ofNat 64 ((waitsTo 2 2000).get (Reg.TILE_Q_WSTART_TICK 5)))) ∧
    (({ st [] with frost := .asleep } : State).frost = .asleep ∧ ({ st [] with frost := .exiting 0, tick := 200000 } : State).frost = .exiting 0 ∧ 200000 ≤ ({ st [] with frost := .exiting 0, tick := 200000 } : State).since 0 ∧ ({ st [] with frost := .exiting 0, tick := 199999 } : State).since 0 < 200000) ∧
    ((st []).frost ≠ .asleep ∧ 64 ≤ 85 ∧ 85 < 86 ∧ ({ st [(Reg.PWR_DOM_STATE_STATE 85, 1)] with frost := .exiting 0 } : State).domState 85 ≠ 5) := by
  and_intros
  all_goals decide +kernel

theorem witness_PowerManagerRuns :
    ((st []).phase ≠ .dark ∧ (st []).phase = .ready) ∧
    ((st []).budgetRefused (partOf ((st []).wordOf budgetFields) .whole 299) = true ∧ (st []).budgetRefused (partOf ((st []).wordOf budgetFields) .whole 0xC8044C) = false) ∧
    ((st []).budgetRefused 299 = true ∧ (st []).budgetRefused 0xC8044C = false ∧ 299 % 65536 ≠ (st []).get Reg.PWR_BUDGET_MODCAP ∧ 299 % 65536 < 300) ∧
    ((st [(Reg.TN_STATE_STATE 16, 2)]).tnStarted 16 = true ∧ (5#64).toNat % 65536 ≠ (st [(Reg.TN_STATE_STATE 16, 2)]).get (Reg.PWR_TNCAP_CAP 16) ∧ (st []).tnStarted 16 = false ∧ (0#64).toNat % 65536 = (st []).get (Reg.PWR_TNCAP_CAP 16)) := by
  and_intros
  all_goals decide +kernel

/-- A module at a stage of bring-up. -/
def atStg (n : Nat) (rs : List (Fld × Nat)) : State := inPhase .bringUp ((Reg.BRU_STATUS_STAGE, n) :: rs)

/-- Start wait since tick 0, with HOLDOFF 200 ms, after a stop or not. -/
def waiting (auto : Nat) (after : Bool) : State :=
  { inPhase .startWait [(Reg.PWR_RESTART_AUTO, auto), (Reg.PWR_RESTART_HOLDOFF, 2)] with tick := 200000000, boot := { afterStop := after } }

theorem witness_StartReachesStageZero :
    ((waiting 1 true).phase = .startWait ∧ 4200 ≤ (4200#16).toNat ∧ 20 ≤ (20#16).toNat ∧ 100000000 * (waiting 1 true).get Reg.PWR_RESTART_HOLDOFF ≤ (waiting 1 true).since (waiting 1 true).boot.startWaitAt ∧ (waiting 1 true).on Reg.PWR_RESTART_AUTO = true) ∧
    ((waiting 0 true).boot.afterStop = true ∧ (waiting 0 true).on Reg.PWR_RESTART_AUTO = false ∧ (waiting 0 true).boot.asked = false) ∧
    ((inPhase .charging []).phase = .charging ∧ (4200#16).toNat ≤ (4100#16).toNat + 100 ∧ (4100#16).toNat ≤ (4200#16).toNat + 100) ∧
    ((inPhase .thermalWait []).phase = .thermalWait ∧ (inPhase .thermalWait []).boot.hotWait = false ∧ 50 < (51#8).toNat) := by
  and_intros
  all_goals decide +kernel

theorem witness_StageOneSetsVariant :
    (atStg 1 []).atStage 1 = true ∧ (atStg 1 []).fusesOk = true ∧ (atStg 1 []).boot.offAsked = false ∧ ((atStg 1 []).fuse 0 % 256 = 0x40 ∨ (atStg 1 []).fuse 0 % 256 = 0x38) :=
  by decide +kernel

/-- A start whose stages all took the cold path. -/
def coldStart : State :=
  atStg 9 [(Reg.BRU_REPORT0_PATH 5, 1), (Reg.BRU_REPORT0_PATH 6, 1), (Reg.BRU_REPORT0_PATH 7, 1), (Reg.BRU_REPORT0_PATH 8, 1), (Reg.BRU_CTL_FORCECOLD, 1)]

theorem witness_ForceColdCleared :
    (coldStart.atStage 9 = true ∧ coldStart.boot.offAsked = false ∧ (∀ n < 9, 5 ≤ n → coldStart.get (Reg.BRU_REPORT0_PATH n) = 1) ∧ coldStart.get Reg.BRU_CTL_FORCECOLD ≤ 1) ∧
    ((atStg 9 [(Reg.BRU_CTL_FORCECOLD, 1)]).atStage 9 = true ∧ 5 ≤ 8 ∧ 8 ≤ 8 ∧ (atStg 9 [(Reg.BRU_CTL_FORCECOLD, 1)]).get (Reg.BRU_REPORT0_PATH 8) ≠ 1) := by
  and_intros
  all_goals decide +kernel

theorem witness_StagesPassInOrder :
    ((atStg 0 []).atStage 0 = true ∧ (atStg 0 []).boot.offAsked = false ∧ (atStg 0 []).pins.scanEn = false ∧ 100 ≤ (100#16).toNat) ∧
    ((atStg 2 []).atStage 2 = true) ∧
    ((atStg 3 []).atStage 3 = true ∧ (atStg 3 []).get Reg.CS_BOOT_TRIAL = 0 ∧ (atStg 3 []).frost = .awake) ∧
    ((atStg 4 []).atStage 4 = true ∧ (atStg 5 []).atStage 5 = true ∧ ∀ k ∈ (atStg 5 []).stackList, (((List.replicate 8 (⟨1, false, true, 0⟩ : StackTest))[k]?).getD ⟨0, false, false, 0⟩).ok = true) ∧
    ((atStg 6 [(Reg.ID_TILEMAP_MAP, 1)]).atStage 6 = true ∧ (atStg 6 [(Reg.ID_TILEMAP_MAP, 1)]).get Reg.ID_TILEMAP_MAP ≠ 0 ∧ (atStg 6 []).supply.tripped = 0 ∧ (atStg 7 []).atStage 7 = true ∧ (atStg 8 []).atStage 8 = true ∧ (atStg 8 []).tnState 0 = 0 ∧ (atStg 9 []).atStage 9 = true) := by
  and_intros
  all_goals decide +kernel

theorem witness_FailedStagesAndRecords :
    ((atStg 0 []).atStage 0 = true ∧ (atStg 0 []).frost = .awake ∧ (atStg 0 []).boot.offAsked = false ∧ (99#16).toNat < 100) ∧
    ((st [(Reg.BRU_RETIRED_L_LINKS, 1)]).get Reg.BRU_RETIRED_L_LINKS &&& (3#64).toNat ≠ 0) ∧
    ((atStg 2 []).atStage 2 = true ∧ (atStg 4 []).atStage 4 = true ∧ (atStg 8 []).atStage 8 = true ∧ (atStg 1 []).atStage 1 = true) ∧
    ((st []).phase = .ready ∧ (2#64).toNat % 4 = 2 + (st []).get Reg.BRU_CTL_FORCECOLD ∧ (1#64).toNat % 4 = 1 ∧ (st []).get Reg.BRU_CTL_FORCECOLD = 0) ∧
    ((st [(Reg.BRU_RETIRED_T_TILES, 5)]).get Reg.BRU_RETIRED_T_TILES &&& (6#64).toNat ≠ 0) ∧
    (({ st [] with retiring := [0x43, 0x85] } : State).retiring ≠ [] ∧ ({ st [] with retiring := [0x43, 0x85] } : State).store.busy = false) ∧
    (({ st [] with store := { recQ := [3, 4] } } : State).store.recQ = 3 :: [4] ∧ ({ st [] with store := { recQ := [3, 4] } } : State).phase ≠ .dark ∧ ({ st [] with store := { recQ := [3, 4] } } : State).store.busy = false) ∧
    (({ st [] with boot := { cold := [71] } } : State).boot.cold.contains 71 = true) := by
  and_intros
  all_goals decide +kernel

/-- Link 63 in a state of its training. -/
def linkIn (stt : Nat) (l : Link) (now : Word) (rs : List (Fld × Nat)) : State :=
  { st ((Reg.LNK_STATUS_STATE 63, stt) :: rs) with links := (Vector.replicate 64 {}).set 63 l, tick := now }

theorem witness_LinksTrainAndQualify :
    (((linkIn 1 { light := true } 0 []).link 63).txTrained = false ∧ ((linkIn 1 { light := true, rxTrained := true, cold := true } 0 []).link 63).rxTrained = true ∧ ((linkIn 1 { light := true } 0 []).link 63).cold = false ∧ (linkIn 1 { light := true } 0 []).trainedNow (8 + 63) = false) ∧
    ((linkIn 1 { light := true } 60000001 [(Reg.LNK_QUAL_FAILED 63, 2)]).get (Reg.LNK_QUAL_FAILED 63) = 2 ∧ (linkIn 1 { rxTrained := true } 0 [(Reg.LNK_QUAL_FAILED 63, 2)]).inWindow 63 = true ∧ (linkIn 1 { rxTrained := true } 0 [(Reg.LNK_QUAL_FAILED 63, 2)]).get (Reg.LNK_QUAL_FAILED 63) = 2) ∧
    ((linkIn 1 {} 0 []).linkState 63 = lnkTrain ∧ ((linkIn 1 {} 0 []).link 63).light = false) ∧
    (((linkIn 1 { light := true, txTrained := true, cold := true } 2000000000 []).link 63).light = true ∧ (linkIn 1 { light := true, txTrained := true, cold := true } 2000000000 []).since ((linkIn 1 { light := true, txTrained := true, cold := true } 2000000000 []).link 63).trainStart ≤ trainBound true) ∧
    ((linkIn 1 { light := true } 60000001 []).linkState 63 = lnkTrain ∧ trainBound ((linkIn 1 { light := true } 60000001 []).link 63).cold < (linkIn 1 { light := true } 60000001 []).since 0 ∧ (linkIn 1 { light := true } 60000001 []).get (Reg.LNK_QUAL_FAILED 63) < 2) ∧
    ((linkIn 1 { rxTrained := true } 3125000000 []).inWindow 63 = true ∧ 3125000000 ≤ (linkIn 1 { rxTrained := true } 3125000000 []).since ((linkIn 1 { rxTrained := true } 3125000000 []).link 63).qualStart ∧ (linkIn 1 { rxTrained := true } 3125000000 []).linkState 63 = lnkTrain) ∧
    ((linkIn 2 { rxTrained := true } 5 [(Reg.LNK_QUAL_FAILED 63, 1)]).inWindow 63 = true ∧ (linkIn 2 { rxTrained := true } 5 [(Reg.LNK_QUAL_FAILED 63, 1)]).get (Reg.LNK_QUAL_FAILED 63) < 2) := by
  and_intros
  all_goals decide +kernel

/-- Tile `g` awake, with contents and register fields. -/
def tl (g : Nat) (t : Tile) (rs : List (Fld × Nat)) : State :=
  { st ((Reg.PWR_DOM_STATE_STATE g, 0) :: rs) with
    tiles := (Vector.replicate 64 {}).setIfInBounds g t, doms := (Vector.replicate 86 {}).setIfInBounds g { rate := some 0 } }

/-- Tile 63 runs with contents, and with bytes of its instruction store. -/
def bundleAt (t : Tile) (cells : List Host.Cell) : State := tl 63 { t with istore := cells } [(Reg.TILE_STATE_RUN 63, 1)]

/-- A tile at a bundle of NOPs. -/
def atNop : State := bundleAt {} []

/-- The bundle that the tile stands at, alone, with nothing that holds its issue back. -/
def standsAt (s : State) : Bool :=
  (s.pairOf 63).isNone && s.canIssue 63 && !s.atBreakpoint 63 && !(s.tile 63).pastEnd && decide ((s.tile 63).wait = {}) &&
    decide (s.fetched 63 = (s.tile 63).bundle 0) && !(s.tile 63).interlocked ((s.tile 63).bundle 0)

/-- A TAKE of one token of queue 0; a slot 0 that is illegal; a fence of stores. -/
def atTake (n : BitVec 24) : State := bundleAt (({} : Tile).setLq 0 { value := n }) [(48, 4), (53, 1)]

def atIllegal : State := bundleAt {} [(0, 0xFF)]

def atFence : State := bundleAt { sb := [⟨3, 0, 1⟩] } [(16, 0x0E)]

/-- A store buffer with two entries. -/
def buffered : State := tl 5 { sb := [⟨3, 0x1122334455667788, 0x81⟩, ⟨4, 0, 0xFF⟩] } []

theorem witness_BundlesIssueAndDrain :
    (standsAt atNop = true ∧ (atNop.bundleFault 63 TileEcc.clean ((atNop.tile 63).bundle 0)).isNone = true ∧ (∀ i < 8, atNop.slotStall 63 ((atNop.tile 63).bundle 0) i = false) ∧ (match atNop.qGate 63 ((atNop.tile 63).bundle 0) with | .go none => true | _ => false) = true) ∧
    (standsAt (atTake 5) = true ∧ ((atTake 5).bundleFault 63 TileEcc.clean (((atTake 5).tile 63).bundle 0)).isNone = true ∧ (∀ i < 8, (atTake 5).slotStall 63 (((atTake 5).tile 63).bundle 0) i = false) ∧ (match (atTake 5).qGate 63 (((atTake 5).tile 63).bundle 0) with | .go (some v) => v == 4 | _ => false) = true) ∧
    (standsAt (atTake 0) = true ∧ ((atTake 0).bundleFault 63 TileEcc.clean (((atTake 0).tile 63).bundle 0)).isNone = true ∧ (∀ i < 8, (atTake 0).slotStall 63 (((atTake 0).tile 63).bundle 0) i = false) ∧ (match (atTake 0).qGate 63 (((atTake 0).tile 63).bundle 0) with | .held _ => true | _ => false) = true) ∧
    (standsAt atIllegal = true ∧ (atIllegal.bundleFault 63 TileEcc.clean ((atIllegal.tile 63).bundle 0)).map (fun e => e.1) = some 0) ∧
    (standsAt atFence = true ∧ (atFence.bundleFault 63 TileEcc.clean ((atFence.tile 63).bundle 0)).isNone = true ∧ atFence.slotStall 63 ((atFence.tile 63).bundle 0) 2 = true) ∧
    ((st []).pairOf 63 = none ∧ (st []).canIssue 63 = false) ∧
    (buffered.domState 5 = 0 ∧ (buffered.tile 5).sb = ⟨3, 0x1122334455667788, 0x81⟩ :: [⟨4, 0, 0xFF⟩]) ∧
    ((⟨3, 0x1122334455667788, 0x81⟩ : SbEntry).mask ≠ 0xFF ∧ (⟨4, 0, 0xFF⟩ : SbEntry).mask = 0xFF ∧ ((tl 5 { sb := [⟨4, 0, 0xFF⟩] } []).tile 5).sb = [⟨4, 0, 0xFF⟩]) := by
  and_intros
  all_goals decide +kernel

theorem witness_BundleReadsBeforeItWrites :
    63 < 64 :=
  by decide +kernel

/-- A ring with one command. -/
def withCmd (f r : Nat) (c : RingCmd) (s : State) : State := s.modRing f r (fun x => { x with cmds := [c] })

/-- A LAUNCH that runs on one tile. -/
def launched (g : Nat) (sched : Bool) : RingCmd := { idx := 9, desc := 2 :: zeros 63, st := .running, place := 2 ^ g, sched := sched, marks := [(g, 100, 12)] }

theorem witness_FaultingBundleHasNoEffect :
    7 < 8 ∧ atNop.launchOf 63 = none :=
  by decide +kernel

def loads (sched : Bool) : State := withCmd 16 15 (launched 5 sched) (tl 5 { loading := some (4096, 7, 1, 1) } [])

def marked : State := withCmd 16 15 (launched 5 true) (tl 5 { cycle := 100 } [])

def drizzles : State := tl 5 (({} : Tile).modPanel 3 (fun p => { p with drizzle := 4, drizzleLeft := 9 })) []

/-- A tile of a tenancy that the provider may debug. -/
def debugged (run : Nat) : State :=
  tl 5 {} [(Reg.ID_TILEMAP_MAP, 32), (Reg.TILE_STATE_TENANCY 5, 1), (Reg.TN_TILES_MAP 1, 32), (Reg.TN_STATE_STATE 1, 2), (Reg.TN_STATE_DEBUG 1, 2), (Reg.TILE_STATE_RUN 5, run), (Reg.TILE_DBG_SEL_AUTOINC 5, 0)]

/-- An operation alone at the head of a panel's queue, or of the panel's read-out queue. -/
def mop (op word : Nat) : MxOp := { seq := 7, word := op + word, cfg := 0, desc := zeros 128, args := [0, 0, 0], ba := 0 }

def queued (o : MxOp) : State := tl 5 (({} : Tile).modPanel 2 (fun p => { p with queue := [o] })) []

def readsOut (o : MxOp) : State := tl 5 (({} : Tile).modPanel 2 (fun p => { p with readq := [o] })) []

theorem witness_TilesRunAndDebug :
    ((tl 5 { halting := true } []).haltDone 5 = true ∧ (tl 5 {} []).haltDone 5 = false) ∧
    (((loads false).tile 5).loading = some (4096, 7, 1, 1) ∧ (loads false).domState 5 = 0 ∧ (wordsOf 4096 64).any (loads false).poisoned = false ∧ (wordsOf (4096 + 131072) 384).any (loads false).poisoned = false ∧ (loads false).launchOf 5 = some (16, 15, launched 5 false) ∧ (loads true).launchOf 5 = some (16, 15, launched 5 true) ∧ (launched 5 true).sched = true) ∧
    ((wordsOf 4096 64).any ({ loads false with poison := [(64, true)] } : State).poisoned = true ∧ (tl 5 { loading := some (4096, 7, 1, 1) } []).launchOf 5 = none) ∧
    ((st []).get (Reg.TILE_DBG_CTL_LHALT 5) = 0 ∧ (st [(Reg.TILE_DBG_CTL_LHALT 5, 1)]).get (Reg.TILE_DBG_CTL_LHALT 5) ≠ 0 ∧ (st [(Reg.TILE_DBG_CTL_LHALT 5, 1)]).tilePinned 5 = false) ∧
    (marked.launchOf 5 = some (16, 15, launched 5 true) ∧ (launched 5 true).marks.find? (fun m => m.1 == 5) = some (5, 100, 12) ∧ 100 ≤ (marked.tile 5).cycle.toNat ∧ (marked.tile 5).loading = none) ∧
    (((drizzles.tile 5).panel 3).drizzleLeft ≠ 0) ∧
    ((debugged 1).phase = .ready ∧ (debugged 1).tileMapped 5 = true ∧ (debugged 1).providerDebug 5 = true ∧ (debugged 1).tilePinned 5 = false ∧ (debugged 1).run 5 = runRunning ∧ (debugged 1).domState 5 = 0 ∧ ((debugged 1).tile 5).halting = false ∧ (debugged 1).inTake 5 = false) ∧
    ((debugged 2).run 5 = runWait ∧ (debugged 2).domState 5 = 0 ∧ ((debugged 2).tile 5).wait.phase ≠ .pooled ∧ ((debugged 2).set (Reg.PWR_DOM_STATE_STATE 5) 1).domState 5 ≠ 0) ∧
    ((((debugged 2).modTile 5 (fun t => { t with wait := { phase := .pooled } })).tile 5).wait.phase = .pooled ∧ (((debugged 2).modTile 5 (fun t => { t with wait := { phase := .pooled } })).tile 5).wait.after = .none) ∧
    (((debugged 1).set (Reg.PWR_TNCAP_PINNED 1) 1).tilePinned 5 = true ∧ ((debugged 4).set (Reg.TILE_DBG_SEL_AUTOINC 5) 1).get (Reg.TILE_DBG_SEL_AUTOINC 5) = 1) ∧
    ((debugged 4).run 5 = runDebug ∧ (debugged 4).debugReadable 5 = true ∧ (debugged 4).get (Reg.TILE_DBG_SEL_AUTOINC 5) = 0 ∧ (debugged 1).debugReadable 5 = false) := by
  and_intros
  all_goals decide +kernel

/-- A vector operation at the head of the V queue. -/
def vop (word : Nat) : State := tl 5 { vq := [{ seq := 7, word := word, claim := none, args := [0, 0, 0, 0] }] } []

def vhead (word : Nat) : VxOp := { seq := 7, word := word, claim := none, args := [0, 0, 0, 0] }

theorem witness_EngineOperationsRun :
    ((queued (mop 2 0)).mxHead 5 2 2 = some (mop 2 0)) ∧
    (((queued (mop 3 0)).rateUp 5).1 = true ∧ (queued (mop 3 0)).mxHead 5 2 3 = some (mop 3 0) ∧ ((mop 3 0).passTo 0 [] (if cCube (mop 3 0).cfg then xKsteps (mop 3 0).desc1 else xRows (mop 3 0).desc1) ((AtRate 5 [2] (queued (mop 3 0))).tile 5)).first = none ∧ cPanels (mop 3 0).cfg 2 = [2]) ∧
    ((readsOut (mop 4 0)).mxReadHead 5 2 4 = some (mop 4 0) ∧ (readsOut (mop 5 0)).mxReadHead 5 2 5 = some (mop 5 0)) ∧
    ((({ queued (mop 6 0) with doms := Vector.replicate 86 {} } : State).rateUp 5).1 = false ∧ ({ queued (mop 6 0) with doms := Vector.replicate 86 {} } : State).mxHead 5 2 6 = some (mop 6 0)) ∧
    ((queued (mop 6 0)).mxHead 5 2 6 = some (mop 6 0) ∧ (queued (mop 7 (2 ^ 39 * 9 + 2 ^ 43 * 5))).mxHead 5 2 7 = some (mop 7 (2 ^ 39 * 9 + 2 ^ 43 * 5)) ∧ mLevel (mop 7 (2 ^ 39 * 9 + 2 ^ 43 * 5)).word ≠ 0) ∧
    ((vop 1).vxHead 5 = some (vhead 1) ∧ wOp (vhead 1).word = 1 ∧ (vop 2).vxHead 5 = some (vhead 2) ∧ wOp (vhead 2).word = 2 ∧ (vop 0x10).vxHead 5 = some (vhead 0x10) ∧ vArith (wOp (vhead 0x10).word) = true) := by
  and_intros
  all_goals decide +kernel

/-- Tile 5 waits at pooled queue 7 for six tokens. -/
def waits : Waiter := { queue := 7, rime := false, unit := 5, take := true, count := 6, tenancy := 1, fresh := false }

/-- A packet on Isobar to tile 5 or to a pooled queue, from tile 9. -/
def iso (k : IsoKind) (pool : Bool) (q n ten : Nat) : Iso :=
  { kind := k, pool := pool, queue := q, tile := 5, src := .slot 9, tenancy := ten, count := n, epoch := 0, status := stOK }

/-- One packet on Isobar; pooled queue 7, owned by tenancy 1, holds 5. -/
def onNet (p : Iso) (v : Queue) (t : Tile) : State := { tl 5 t [] with isobar := [p], pqs := [(7, { v with owner := 1, value := 5 })] }

/-- Another token of the same KCLK has come to queue 7, from a port. -/
def touchedBy (port : Nat) : State :=
  { onNet (iso .signal true 7 1 1) {} {} with touched := [{ pool := true, tile := 0, queue := 7, port := port, old := {}, unserved := false }] }

theorem witness_TokensReachTheirQueues :
    ((onNet (iso .signal true 8 1 1) {} {}).isoAt 0 = some (iso .signal true 8 1 1) ∧ ((Carried (iso .signal true 8 1 1).doms (onNet (iso .signal true 8 1 1) {} {})).dropIso 0).tokenFresh (iso .signal true 8 1 1) = false ∧ (∀ n ∈ (iso .signal true 8 1 1).doms, (onNet (iso .signal true 8 1 1) {} {}).domState n = 0)) ∧
    ((onNet (iso .signal true 7 1 1) {} {}).isoAt 0 = some (iso .signal true 7 1 1) ∧ ((Carried (iso .signal true 7 1 1).doms (onNet (iso .signal true 7 1 1) {} {})).dropIso 0).tokenFresh (iso .signal true 7 1 1) = true ∧ (iso .signal true 7 1 1).doms = [64, 85] ∧ (∀ n ∈ [64, 85], (onNet (iso .signal true 7 1 1) {} {}).domState n = 0)) ∧
    (((Carried (iso .signal true 7 1 1).doms (onNet (iso .signal true 7 1 1) {} {})).dropIso 0).touched = [] ∧ (∀ e ∈ (touchedBy 0).touched, e.port ≤ (iso .signal true 7 1 1).src.port (iso .signal true 7 1 1))) ∧
    (((onNet (iso .signal true 7 1 1) {} {}).set (Reg.PWR_DOM_STATE_STATE 64) 5).domState 64 = 5 ∧ ((onNet (iso .signal true 7 1 1) {} {}).set (Reg.PWR_DOM_STATE_STATE 85) 1).domState 85 = 1 ∧ (∀ n ∈ [64, 85], ((onNet (iso .signal true 7 1 1) {} {}).set (Reg.PWR_DOM_STATE_STATE 85) 1).domState n ≠ 5)) ∧
    ((onNet (iso .signal false 31 0xFFFFFF 31) {} {}).isoAt 0 = some (iso .signal false 31 0xFFFFFF 31) ∧ ((Carried (iso .signal false 31 0xFFFFFF 31).doms (onNet (iso .signal false 31 0xFFFFFF 31) {} {})).dropIso 0).tokenFresh (iso .signal false 31 0xFFFFFF 31) = true ∧ (onNet (iso .signal false 31 0xFFFFFF 31) {} {}).twinOf 5 = none ∧ (iso .signal false 31 0xFFFFFF 31).pool = false) := by
  and_intros
  all_goals decide +kernel

/-- Rime engine 2 waits for its start token; its answer is on the way. -/
def rimeIso (k : IsoKind) : Iso := { iso k true 7 2 1 with tile := 66, src := .pooled }
def rimeNet : State := { onNet (rimeIso .release) {} {} with rimes := Vector.replicate 4 { active := some (1, 15, 2), waiting := true } }

/-- A tile whose wait is overdue. -/
def overdue (p : WaitPhase) : State := { tl 63 { wait := { phase := p } } [] with tick := 2000000000 }

theorem witness_PooledQueueServesTiles :
    ((onNet (iso .peek true 7 3 1) {} {}).isoAt 0 = some (iso .peek true 7 3 1) ∧ ((Carried (iso .peek true 7 3 1).doms (onNet (iso .peek true 7 3 1) {} {})).dropIso 0).tokenFresh (iso .peek true 7 3 1) = true ∧ ((Carried (iso .take true 8 3 1).doms (onNet (iso .take true 8 3 1) {} {})).dropIso 0).tokenFresh (iso .take true 8 3 1) = false ∧ (onNet (iso .take true 8 3 1) {} {}).isoAt 0 = some (iso .take true 8 3 1)) ∧
    ((onNet (iso .take true 7 3 1) { ovf := true } {}).isoAt 0 = some (iso .take true 7 3 1) ∧ ((onNet (iso .take true 7 3 1) { ovf := true } {}).pq 7).ovf = true ∧ ((onNet (iso .take true 7 3 1) { ovf := true } {}).dropIso 0).tokenFresh (iso .take true 7 3 1) = true) ∧
    (((onNet (iso .wait true 7 6 1) { strict := true } {}).pq 7).strict = true ∧ ((onNet (iso .wait true 7 6 1) { strict := true } {}).pq 7).value.toNat < 6 ∧ ((onNet (iso .wait true 7 6 1) { strict := true } {}).pq 7).ovf = false) ∧
    (((onNet (iso .take true 7 5 1) {} {}).pq 7).value.toNat = 5 ∧ ((onNet (iso .take true 7 6 1) {} {}).pq 7).strict = false ∧ (onNet (iso .take true 7 5 1) {} {}).waiters = []) ∧
    ((onNet (iso .release true 7 2 1) {} { wait := { phase := .pooled } }).isoAt 0 = some (iso .release true 7 2 1) ∧ (onNet (iso .release true 7 2 1) {} { wait := { phase := .pooled } }).twinOf 5 = none ∧ ((onNet (iso .release true 7 2 1) {} { wait := { phase := .pooled } }).tile 5).wait.phase = .pooled ∧ ((onNet (iso .release true 7 2 1) {} { wait := { phase := .pooled } }).tile 5).wait.after = .none) ∧
    ((onNet { iso .reply true 7 2 1 with status := stUnderflow } {} { wait := { phase := .pooled, after := .debugHalt } }).isoAt 0 = some { iso .reply true 7 2 1 with status := stUnderflow } ∧ ((onNet { iso .reply true 7 2 1 with status := stUnderflow } {} { wait := { phase := .pooled, after := .debugHalt } }).tile 5).wait.after ≠ .none ∧ (∀ n ∈ (iso .reply true 7 2 1).doms, (onNet (iso .peek true 7 0 1) {} {}).domState n = 0)) ∧
    (64 ≤ (rimeIso .release).tile ∧ rimeNet.isoAt 0 = some (rimeIso .release) ∧ (∀ n ∈ (rimeIso .release).doms, rimeNet.domState n = 0) ∧ (rimeIso .release).sweep = false ∧ (rimeNet.rime 2).waiting = true) ∧
    (((onNet (iso .reply true 7 2 1) {} { peeks := [(7, 63)] }).tile 5).peeks.find? (fun x => x.1 == 7) = some (7, 63) ∧ (iso .reply true 7 2 1).status = stOK) ∧
    ((onNet (iso .cancel true 7 2 1) {} {}).isoAt 0 = some (iso .cancel true 7 2 1) ∧ ((onNet (iso .cancel true 7 2 1) {} {}).dropIso 0).isobar.any (fun x => x.tile == 5 && x.pool && (x.kind == .release || x.kind == .reply)) = false) ∧
    (({ onNet (iso .cancel true 7 2 1) {} {} with isobar := [iso .cancel true 7 2 1, iso .release true 7 0 1] } : State).isoAt 0 = some (iso .cancel true 7 2 1) ∧ (({ onNet (iso .cancel true 7 2 1) {} {} with isobar := [iso .cancel true 7 2 1, iso .release true 7 0 1] } : State).dropIso 0).isobar.any (fun x => x.tile == 5 && x.pool && (x.kind == .release || x.kind == .reply)) = true) ∧
    (waits ∈ ({ onNet (iso .cancel true 7 2 1) {} {} with waiters := [{ waits with rime := true, unit := 0 }, waits] } : State).waiters) := by
  and_intros
  all_goals decide +kernel

/-- Tenancy 16 in a sweep. -/
def sweeping (p : SweepPhase) (now : Word) (rs : List (Fld × Nat)) : State :=
  { st rs with tens := (Vector.replicate 17 {}).set 16 { sweep := p }, tick := now }

theorem witness_WaitsAndRetries :
    (roundUp ((overdue .atTile).get (Reg.TILE_Q_WSTART_TICK 63) + 10000 * (overdue .atTile).get (Reg.PQ_TNCFG_TIMEOUT 31)) 1000 ≤ 2000000000 ∧ (overdue .atTile).tileTen 63 = 31 ∧ (overdue .atTile).get (Reg.TILE_Q_WAIT_POOL 63) = 0) ∧
    ((tl 63 {} [(Reg.TILE_Q_WSTART_TICK 63, 1)]).tick.toNat < roundUp ((tl 63 {} [(Reg.TILE_Q_WSTART_TICK 63, 1)]).get (Reg.TILE_Q_WSTART_TICK 63) + 10000 * (tl 63 {} [(Reg.TILE_Q_WSTART_TICK 63, 1)]).get (Reg.PQ_TNCFG_TIMEOUT ((tl 63 {} [(Reg.TILE_Q_WSTART_TICK 63, 1)]).tileTen 63))) 1000) ∧
    ((({ st [] with rimes := Vector.replicate 4 { active := some (1, 15, 2), waiting := true }, tick := 2000000000 } : State).rime 3).active = some (1, 15, 2) ∧ ({ st [] with rimes := Vector.replicate 4 { active := some (1, 15, 2), waiting := true }, tick := 2000000000 } : State).expiry 1 0 ≤ 2000000000 ∧ 64 ≤ (67 : Fin 68).val) ∧
    ((onNet (iso .signal true 7 1 1) {} {}).isobar[0]? = some (iso .signal true 7 1 1) ∧ (iso .signal true 7 1 1).lost = false ∧ (iso .signal true 7 1 1).retried = false) ∧
    ((4 ≤ ({ onNet (iso .signal true 7 1 1) {} {} with tick := 104 } : State).since 100) ∧ ({ onNet (iso .signal true 7 1 1) {} {} with tick := 103 } : State).since 100 < 4) := by
  and_intros
  all_goals decide +kernel

theorem witness_SweepsAndSnapshots :
    (((sweeping (.checking 1 [[0]]) 257 []).ten 16).sweep = .checking 1 [[0]] ∧ 256 ≤ (sweeping (.checking 1 [[0]]) 257 []).since 1 ∧ (sweeping (.checking 1 [[0]]) 256 []).since 1 < 256) ∧
    (((sweeping (.releasing 320 true) 320 [(Reg.PQ_TNSWEEP_DRIFTSTOP 16, 1)]).ten 16).sweep = .releasing 320 true ∧ (sweeping (.releasing 320 true) 320 [(Reg.PQ_TNSWEEP_DRIFTSTOP 16, 1)]).get (Reg.PQ_TNSWEEP_DRIFTSTOP 16) = 1 ∧ (sweeping (.releasing 320 true) 320 [(Reg.PQ_TNSWEEP_DRIFTSTOP 16, 0)]).get (Reg.PQ_TNSWEEP_DRIFTSTOP 16) = 0 ∧ (sweeping (.releasing 320 true) 319 []).tick.toNat < (320#64).toNat) ∧
    ((sweeping (.checking 1 [[0]]) 257 [(Reg.PQ_TNSWEEP_DRIFTS 16, 2 ^ 16 - 1)]).get (Reg.PQ_TNSWEEP_DRIFTS 16) = 2 ^ (Reg.PQ_TNSWEEP_DRIFTS 16).width - 1) ∧
    ((st []).phase = .ready ∧ (st []).get Reg.PQ_SNAP_CTL_BUSY = 0 ∧ (1#64).getLsbD 0 = true ∧ (st [(Reg.PQ_SNAP_CTL_BUSY, 1)]).get Reg.PQ_SNAP_CTL_BUSY = 1 ∧ (st [(Reg.PQ_SNAP_CTL_BUSY, 1)]).mbx = none) ∧
    ((0#64).getLsbD 0 = false ∧ ({ st [(Reg.PQ_SNAP_CTL_BUSY, 1)] with mbx := some (0x30, 4, 9) } : State).mbx = some (0x30, 4, 9)) ∧
    ((st [(Reg.TN_STATE_STATE 1, 2)]).tnState 1 = 2 ∧ bits (16#64).toNat 0 12 ≠ (st [(Reg.TN_STATE_STATE 1, 2)]).get (Reg.PQ_TNCFG_BASE 1)) ∧
    ((st [(Reg.TN_STATE_STATE 16, 1)]).tnState 16 = 1 ∧ bits (0x000F424000100FF0#64).toNat 0 12 + bits (0x000F424000100FF0#64).toNat 16 13 ≤ 4096 ∧ bits (0x000F424000100FF0#64).toNat 32 20 = 1000000 ∧ bits (0x000F424000100FF0#64).toNat 16 13 = 16 ∧ (∀ u < 17, u ≠ 16 → (st [(Reg.TN_STATE_STATE 16, 1)]).get (Reg.PQ_TNCFG_COUNT u) = 0) ∧ (st [(Reg.TN_STATE_STATE 16, 1)]).rimeQueueOutside 16 4080 16 = false) := by
  and_intros
  all_goals decide +kernel

/-- A flit of tenancy 1 from tile 9. -/
def fl (typ : FlitType) (dest : Nat) (sched : Bool) (l : Loc) : Flit :=
  { typ := typ, sched := sched, tenancy := 1, epoch := 0, dest := dest, src := 0x49, tag := 3, ch := 2, addr := 0x40, data := [0xAA, 0xBB], len := 2, reply := 0x80, loc := l }

/-- One flit in flight. -/
def flying (f : Flit) (s : State) : State := { s with flits := [f] }

/-- A slot of output 60 of quadrant 3 that belongs to tenancy 1 and input 84. -/
def slotted : State := { flying (fl .write 0x45 true (.quadrant 3 84)) (st []) with slotsB := [((85 * 3 + 60) * 1024 + 1023, BitVec.ofNat 32 (1 + 2 + 64 * 84))], tick := 511 }

def dynamic (dest port : Nat) : State := flying (fl .write dest false (.quadrant 3 port)) (st [])

/-- A scheduled flit that no slot takes; another behind it; one at a tile's router. -/
def late : State := flying (fl .write 0x45 true (.quadrant 3 0)) (st [])
def behind : State := { st [] with flits := [fl .write 0x45 false (.quadrant 3 0), fl .write 0x45 false (.quadrant 3 0)] }
def atRouter : State := flying (fl .write 0x45 false (.router 9 5)) (st [])

def arriving (typ : FlitType) (dest : Nat) (t : Tile) : State := flying (fl typ dest false .target) (tl 5 t [])

/-- A 64-byte DMA descriptor by its bytes that are not 0. -/
def desc (l : List (Nat × Byte)) : List Byte := (List.range 64).map (fun i => ((l.find? (fun e => e.1 == i)).map (·.2)).getD 0)

def awaiting (reads writes : List Nat) : Tile := { chans := Vector.replicate 4 { descs := [(0, desc [(0, 1), (16, 64)]), (64, desc [])], active := true, seq := 0x103, reads := reads, writes := writes } }

theorem witness_FlitsMoveAndAreServed :
    (quadrantNext 3 60 = some (.quadrant 0 76) ∧ slotted.behindAnother 0 (fl .write 0x45 true (.quadrant 3 84)) = false ∧ entryTakes (slotted.slotEntry (.quadrant 3 84) 60 (2 * (slotted.tick.toNat % 512) + b2n true)) (fl .write 0x45 true (.quadrant 3 84)) = true) ∧
    ((dynamic 0x45 0).routeOf (fl .write 0x45 false (.quadrant 3 0)) = 60 ∧ (dynamic 0x45 0).dynamicMay (fl .write 0x45 false (.quadrant 3 0)) 60 0 = true ∧ (dynamic 0x45 0).behindAnother 0 (fl .write 0x45 false (.quadrant 3 0)) = false) ∧
    ((dynamic 0x45 0).routeOf (fl .write 0x45 false (.quadrant 3 0)) ≠ 61 ∧ quadrantNext 3 61 = some (.quadrant 0 77)) ∧
    ((∀ slot < 1024, entryTakes (late.slotEntry (.quadrant 3 0) 60 slot) (fl .write 0x45 true (.quadrant 3 0)) = false) ∧ late.routeOf (fl .write 0x45 true (.quadrant 3 0)) = 60 ∧ late.dynamicMay { fl .write 0x45 true (.quadrant 3 0) with sched := false } 60 0 = true ∧ late.behindAnother 0 (fl .write 0x45 true (.quadrant 3 0)) = false) ∧
    (behind.flits[1]? = some (fl .write 0x45 false (.quadrant 3 0)) ∧ behind.behindAnother 1 (fl .write 0x45 false (.quadrant 3 0)) = true) ∧
    ((fl .write 0x45 false (.quadrant 3 0)).domAt (.quadrant 3 0) = 85 ∧ ((dynamic 0x45 0).set (Reg.PWR_DOM_STATE_STATE 85) 1).domState 85 = 1 ∧ ((dynamic 0x45 0).set (Reg.PWR_DOM_STATE_STATE 85) 5).domState 85 = 5 ∧ (fl .write 0x45 false (.quadrant 3 0)).domAt (.quadrant 0 76) = 85) ∧
    (atRouter.routeOf (fl .write 0x45 false (.router 9 5)) = 2 ∧ placeBehind (fl .write 0x45 false (.router 9 5)) 2 = some (.router 5 4)) ∧
    ((arriving .read 0x45 {}).arrived 0 .read = some (fl .read 0x45 false .target) ∧ (arriving .read 0x45 {}).serves 0x45 0 = true ∧ (arriving .read 0x45 {}).twinOf 5 = none) ∧
    ((arriving .rdata 0x45 {}).arrived 0 .rdata = some (fl .rdata 0x45 false .target) ∧ (arriving .rdata 0x45 {}).awaits 5 (fl .rdata 0x45 false .target) true = false ∧ (arriving .wack 0x45 {}).arrived 0 .wack = some (fl .wack 0x45 false .target) ∧ (arriving .wack 0x45 {}).awaits 5 (fl .wack 0x45 false .target) false = false) ∧
    ((arriving .rdata 0x45 (awaiting [0x49] [])).awaits 5 (fl .rdata 0x45 false .target) true = true ∧ (((arriving .rdata 0x45 (awaiting [0x49] [])).tile 5).chan 2).descs = (0, desc [(0, 1), (16, 64)]) :: [(64, desc [])] ∧ dDstSpace (desc [(0, 1), (16, 64)]) = 0) ∧
    ((arriving .wack 0x45 (awaiting [] [0x49, 0x49])).awaits 5 (fl .wack 0x45 false .target) false = true ∧ (fl .wack 0x45 false .target).status = stOK ∧ (fl .wack 0x45 false .target).ch < 4) ∧
    ((arriving .iswrite 0x45 {}).arrived 0 .iswrite = some (fl .iswrite 0x45 false .target) ∧ (arriving .iswrite 0x45 {}).serves 0x45 0 = true) ∧
    (({ arriving .read 0x45 {} with unitEpoch := Vector.replicate 256 1 } : State).serves 0x45 0 = false) ∧
    ((arriving .read 0x45 {}).memoryUp 5 = true ∧ ((arriving .read 0x45 {}).set (Reg.PWR_DOM_STATE_STATE 5) 4).memoryUp 5 = false ∧ ((arriving .read 0x45 {}).set (Reg.PWR_DOM_STATE_STATE 5) 4).serves 0x45 0 = true) ∧
    (({ fl .rdata 0x45 false .target with src := 0x80, epoch := 9 } : Flit).src ≥ 0x80 ∧ (flying { fl .rdata 0x45 false .target with src := 0x80, epoch := 9 } (tl 5 {} [])).ownEpoch 0x45 ≠ 9 ∧ (arriving .rdata 0x45 {}).ownEpoch 0x45 = (fl .rdata 0x45 false .target).epoch) := by
  and_intros
  all_goals decide +kernel

/-- A request at stack 7 in the last memory slot of a round, which belongs to tenancy 1, port 1 and writes. -/
def hcAt (entry : Nat) (f : Flit) : State :=
  { st [(Reg.PWR_DOM_STATE_STATE 79, 0), (Reg.MEM_STATUS_PRESENT 7, 1), (Reg.MEM_SCRUB_EN 7, 1)] with
    hcq := (Vector.replicate 8 []).set 7 [{ flit := f, port := 1, pcs := 31 }], slotsM := [((7 * 32 + 31) * 384 + 383, BitVec.ofNat 32 entry)], tick := 2559 }

def whole (sched : Bool) : Flit := { fl .write 0x0F sched .target with data := List.replicate 64 0x5A }

theorem witness_WriteFlitsWrite :
    (((arriving .write 0x0F {}).set (Reg.PWR_DOM_STATE_STATE 79) 1).domState (unitDom 0x0F) ≠ 0 ∧ ((arriving .write 0x0F {}).set (Reg.PWR_DOM_STATE_STATE 79) 1).serves 0x0F 0 = true ∧ (arriving .write 0x80 {}).domState (unitDom 0x80) = 0 ∧ (arriving .write 0x80 {}).arrived 0 .write = some (fl .write 0x80 false .target)) ∧
    ((arriving .write 0x45 {}).memoryUp 5 = true ∧ ((arriving .write 0x45 {}).set (Reg.PWR_DOM_STATE_STATE 5) 4).memoryUp 5 = false ∧ ((arriving .write 0x45 {}).set (Reg.PWR_DOM_STATE_STATE 5) 4).serves 0x45 0 = true) ∧
    ((arriving .write 0x45 {}).arrived 0 .write = some (fl .write 0x45 false .target) ∧ (arriving .write 0x45 {}).serves 0x45 0 = true ∧ (arriving .write 0x45 {}).twinOf 5 = none) ∧
    ((arriving .write 0x0F {}).arrived 0 .write = some (fl .write 0x0F false .target) ∧ (arriving .write 0x0F {}).serves 0x0F 0 = true ∧ (arriving .write 0x80 {}).serves 0x80 0 = true) ∧
    (({ arriving .write 0x45 {} with unitEpoch := Vector.replicate 256 1 } : State).serves 0x45 0 = false ∧ ({ arriving .write 0x45 {} with unitEpoch := Vector.replicate 256 1 } : State).arrived 0 .write = some (fl .write 0x45 false .target)) := by
  and_intros
  all_goals decide +kernel

/-- Two requests at stack 7, the first for another channel. -/
def hcTwo : State := { hcAt 0 (whole false) with hcq := (Vector.replicate 8 []).set 7 [{ flit := { whole false with addr := 0 }, port := 0, pcs := 0 }, { flit := whole false, port := 1, pcs := 31 }] }

/-- Channel 3 of tile 5 with a descriptor. -/
def channel (c : Chan) (rs : List (Fld × Nat)) : State := tl 5 { chans := (Vector.replicate 4 {}).set 3 c } ((Reg.TILE_STATE_RUN 5, 1) :: rs)

def copyIn : List Byte := desc [(0, 1), (16, 64), (11, 0x10)]

def copyBad : List Byte := desc [(0, 1), (16, 64), (15, 0xFF)]

def copyOut (tok : Byte) : List Byte := desc [(0, 1), (1, 0x10), (16, 64), (11, 0x10), (56, 2), (59, tok), (60, 9)]

theorem witness_MemoryServesAndScrubs :
    ((hcAt (1 + 2 + 64 + 128) (whole true)).hcServes 7 = true ∧ mKind ((hcAt (1 + 2 + 64 + 128) (whole true)).memEntry 7 31 (hcAt (1 + 2 + 64 + 128) (whole true)).memSlotNow) = 0 ∧ eSched ((hcAt (1 + 2 + 64 + 128) (whole true)).memEntry 7 31 (hcAt (1 + 2 + 64 + 128) (whole true)).memSlotNow) = true ∧ (hcAt (1 + 2 + 64 + 128) (whole true)).firstReq 7 (fun r => r.pcs == 31 && r.flit.sched && r.flit.tenancy == 1 && r.port == 1 && r.writes == true) = some (0, { flit := whole true, port := 1, pcs := 31 }) ∧ eTen (1 + 2 + 64 + 128) = 1 ∧ mPort (1 + 2 + 64 + 128) = 1 ∧ mWrite (1 + 2 + 64 + 128) = true) ∧
    (((hcAt 0 (whole false)).hcq[7].getD 0 { flit := whole true, port := 0, pcs := 0 }) = { flit := whole false, port := 1, pcs := 31 } ∧ (hcAt 0 (whole false)).slotFree 7 31 = true ∧ wordBefore ((hcAt 0 (whole false)).hcq[7]) 0 { flit := whole false, port := 1, pcs := 31 } = false) ∧
    ((hcAt (1 + 2 + 64 + 128) (whole false)).slotFree 7 31 = false) ∧
    ((hcAt 0 (whole true)).hcServes 7 = true ∧ (mKind ((hcAt 0 (whole true)).memEntry 7 31 (hcAt 0 (whole true)).memSlotNow) ≠ 0 ∨ eSched ((hcAt 0 (whole true)).memEntry 7 31 (hcAt 0 (whole true)).memSlotNow) = false)) ∧
    (((hcAt 0 (whole false)).set (Reg.PWR_DOM_STATE_STATE 79) 1).hcServes 7 = false ∧ (((hcAt 0 (whole false)).set (Reg.PWR_DOM_STATE_STATE 79) 1).hcq[7][0]?).isSome = true) ∧
    (hcTwo.hcq[7][1]? = some { flit := whole false, port := 1, pcs := 31 } ∧ wordBefore hcTwo.hcq[7] 1 { flit := whole false, port := 1, pcs := 31 } = false ∧ (∀ e ∈ hcTwo.hcq[7].take 1, e.pcs ≠ 31) ∧ hcTwo.slotFree 7 31 = true) ∧
    ((wordsOf 0x40 2).any (st []).poisoned = false ∧ (wordsOf 0x7F 2).any ({ st [] with poison := [(2, true)] } : State).poisoned = true) ∧
    (({ hcAt 0 (whole false) with rewrites := [0] } : State).rewrites.find? (fun w => ({ hcAt 0 (whole false) with rewrites := [0] } : State).hbmPlace (64 * w) == (0, 0)) = some 0 ∧ ({ st [(Reg.PWR_DOM_STATE_STATE 72, 0), (Reg.MEM_STATUS_PRESENT 0, 1)] with rewrites := [0] } : State).hcServes 0 = true ∧ (st []).slotFree 0 0 = true) ∧
    ((hcAt 0 (whole false)).get (Reg.MEM_SCRUB_EN 7) = 1 ∧ (hcAt 0 (whole false)).hcServes 7 = true ∧ (hcAt 0 (whole false)).slotFree 7 ((hcAt 0 (whole false)).hbmPlace (64 * ((hcAt 0 (whole false)).stackWord 7 0 / 64))).2 = true ∧ (hcAt 0 (whole false)).poisoned ((hcAt 0 (whole false)).stackWord 7 0 / 64) = false) ∧
    ((st [(Reg.MEM_SCRUB_EN 7, 0)]).get (Reg.MEM_SCRUB_EN 7) = 0) ∧
    ((st []).phase = .ready ∧ (st []).ownedGroups ((1#64).toNat % 2 ^ 32 ^^^ (st []).get Reg.MEM_GROUPMODE_LOCAL) = false ∧ ({ st [] with granules := (Vector.replicate 256 31).set 7 0 } : State).ownedGroups ((1#64).toNat % 2 ^ 32 ^^^ (st []).get Reg.MEM_GROUPMODE_LOCAL) = true) := by
  and_intros
  all_goals decide +kernel

/-- A copy to module 1, whose link 7 is active and none of whose answers is owed; one within the tile; their tokens. -/
def copyFar : List Byte := desc [(0, 1), (1, 0x10), (16, 64), (56, 2), (58, 8), (59, 6), (60, 9)]

def copyNear : List Byte := desc [(0, 1), (16, 64), (13, 1)]

/-- A Breeze packet of ring 15 of tenancy 16, command 9. -/
def bz (kind : BzKind) (dest beat1 : Nat) : Bz := { kind := kind, dest := dest, src := 0x45, func := 16, epoch := 0, beat1 := beat1 }

def onBreeze (p : Bz) (s : State) : State := { s with breeze := [p] }

theorem witness_DmaDescriptorsRun :
    (((channel { descs := [(64, copyIn)] } []).tile 5).chan 3 = { descs := [(64, copyIn)] } ∧ dRemote copyIn = none ∧ (channel { descs := [(64, copyIn)] } []).tileBusy 5 = true ∧ (channel { descs := [(64, copyIn)] } []).dmaCheck 5 3 copyIn = none ∧ (channel { descs := [(64, copyIn)] } []).dmaCheck 5 3 copyBad = some stBounds ∧ dRemote copyBad = none) ∧
    (dmaLocal (copyOut 4) = false ∧ (({ descs := [(64, copyOut 4)], active := true, row := 1 } : Chan)).atEnd = true ∧ (channel {} []).isShadow 5 = false ∧ (channel {} []).twinOf 5 = none ∧ tokEnable (dToken (copyOut 4)) = true ∧ tokRemote (dToken (copyOut 4)) = false ∧ dRemote (copyOut 4) = none ∧ tokEnable (dToken (copyOut 0)) = false) ∧
    ((channel { descs := [(64, copyIn)] } []).chanReady 5 3 none = true ∧ (channel { descs := [(64, copyIn)], active := true } []).chanReady 5 3 none = false ∧ ((channel { descs := [(64, copyIn)] } []).tile 5).owedStarts.contains 3 = false) ∧
    ((match (channel {} []).reach 1 ((channel {} []).memberFor 5 3 1 false) false with | .inl w => some w | .inr _ => none) = none ∧ dRemote copyFar = some 1 ∧ tokRemote (dToken copyFar) = true ∧ tokEnable (dToken copyFar) = true ∧ tokMod (dToken copyFar) = 1 ∧ dSched copyFar = false ∧ dmaLocal copyFar = false ∧ dmaLocal copyNear = true ∧ tokEnable (dToken copyNear) = false ∧ dmaByteCount copyNear = 64) := by
  and_intros
  all_goals decide +kernel

def toRime : State := onBreeze (bz .cmd 0x13 (15 * 256 + 9 * 65536)) (withCmd 16 15 (launched 5 false) (st [(Reg.PWR_DOM_STATE_STATE 71, 0)]))

theorem witness_BreezePacketsAct :
    ((onBreeze (bz .cmd 0x45 0) (loads false)).bzAt 0 .cmd = some (bz .cmd 0x45 0) ∧ (onBreeze (bz .cmd 0x45 0) (loads false)).serves 0x45 0 = true ∧ (onBreeze (bz .cmd 0x45 0) (loads false)).domState (unitDom 0x45) = 0 ∧ ((loads false).tile 5).loading = some (4096, 7, 1, 1)) ∧
    (toRime.bzAt 0 .cmd = some (bz .cmd 0x13 (15 * 256 + 9 * 65536)) ∧ toRime.serves 0x13 0 = true ∧ toRime.domState (unitDom 0x13) = 0 ∧ (bz .cmd 0x13 (15 * 256 + 9 * 65536)).ring = 15 ∧ (bz .cmd 0x13 (15 * 256 + 9 * 65536)).index = 9 ∧ toRime.cmd 16 15 9 = some (launched 5 false)) ∧
    ((onBreeze (bz .epoch 1 (0x45 + 256 * 9)) (st [])).bzAt 0 .epoch = some (bz .epoch 1 (0x45 + 256 * 9)) ∧ (onBreeze (bz .report 1 0) (st [])).bzAt 0 .report = some (bz .report 1 0) ∧ (onBreeze (bz .report 1 0) (st [])).launchOf 5 = none ∧ (onBreeze (bz .ctrl 1 0) (st [])).bzAt 0 .ctrl = some (bz .ctrl 1 0)) ∧
    ((bz .report 1 0).doms = [85, 64] ∧ (∀ n ∈ [85, 64], (onBreeze (bz .report 1 0) (st [])).domState n = 0) ∧ ((onBreeze (bz .report 1 0) (st [])).set (Reg.PWR_DOM_STATE_STATE 64) 1).domState 64 = 1 ∧ ((onBreeze (bz .report 1 0) (st [])).set (Reg.PWR_DOM_STATE_STATE 64) 1).domState 85 = 0) ∧
    (((onBreeze (bz .cmd 0x45 0) (loads false)).set (Reg.PWR_DOM_STATE_STATE 5) 3).domState (unitDom 0x45) ≠ 0 ∧ ((onBreeze (bz .cmd 0x45 0) (loads false)).set (Reg.PWR_DOM_STATE_STATE 5) 3).serves 0x45 0 = true ∧ ({ onBreeze (bz .cmd 0x45 0) (loads false) with unitEpoch := Vector.replicate 256 1 } : State).serves 0x45 0 = false ∧ ({ onBreeze (bz .cmd 0x45 0) (loads false) with unitEpoch := Vector.replicate 256 1 } : State).bzAt 0 .cmd = some (bz .cmd 0x45 0)) ∧
    (4 ≤ ({ st [] with tick := 104 } : State).since 100 ∧ ({ st [] with tick := 103 } : State).since 100 < 4) := by
  and_intros
  all_goals decide +kernel

/-- A flit with sequence number 0 and nothing in it. -/
def okFlit : List Byte := (4 :: zeros 27) ++ leBytes 4 (crc32 ((4 :: zeros 27) ++ zeros 224)) ++ zeros 224

set_option maxRecDepth 20000 in
theorem test_flit_crc : flitCrcOk okFlit = true := by decide +kernel

def holding (stt : Nat) (now : Word) : State := linkIn stt { held := [(15, LFlit.parse okFlit)] } now []

/-- The rows that let link 3 train. -/
def linkOn : List (Fld × Nat) := [(Reg.ID_LINKMAP_MAP, 2 ^ 64 - 1), (Reg.LNK_CTL_EN 3, 1), (Reg.PWR_DOM_STATE_STATE 80, 0), (Reg.LNK_STATUS_STATE 3, 7)]

theorem witness_LinkFlitsReceivedAndSent :
    ((linkIn 5 {} 0 []).phase = .ready ∧ (linkIn 5 {} 0 []).linkUp 63 = true ∧ flitCrcOk [] = false) ∧
    (flitCrcOk okFlit = true) ∧
    ((LHead.parse okFlit).nak = false ∧ (LHead.parse okFlit).valid = true ∧ ((LHead.parse okFlit).fseq + 8191 - ((linkIn 5 {} 0 []).link 63).rxSeq) % 4096 = 0 ∧ (LFlit.parse okFlit).vc = 0 ∧ (LFlit.parse okFlit).dmod = (linkIn 5 {} 0 []).modNum) ∧
    (((holding 5 1).link 63).held = (15, LFlit.parse okFlit) :: [] ∧ 10 * (holding 5 1).tick.toNat < 15 ∧ 15 ≤ 10 * (holding 5 2).tick.toNat ∧ (holding 5 2).linkState 63 = lnkActive ∧ (holding 6 2).linkState 63 = lnkFenced) ∧
    ((linkIn 2 {} 0 []).linkUp 63 = false ∧ (linkIn 5 {} 0 []).domState 83 = 0) ∧
    (({ st linkOn with tick := 10000 } : State).linkState 3 = lnkDown ∧ 10000 ≤ ({ st linkOn with tick := 10000 } : State).since 0 ∧ ({ st linkOn with tick := 10000 } : State).linkCause 3 = none ∧ ({ st linkOn with tick := 9999 } : State).since 0 < 10000) ∧
    ((({ st linkOn with tick := 10000, links := Vector.replicate 64 { loopback := true } } : State).link 3).loopback = true ∧ (({ st linkOn with tick := 10000 } : State).link 3).loopback = false ∧ ({ st (linkOn ++ [(Reg.LNK_CTL_EN 3, 0)]) with tick := 10000 } : State).linkCause 3 = some causeOff) ∧
    (((linkIn 5 {} 1019 []).link 63).lastSlot ≠ (linkIn 5 {} 1019 []).slotNow + 1 ∧ (linkIn 1 {} 0 []).linkState 63 = lnkTrain) :=
  ⟨by decide +kernel, test_flit_crc, by decide +kernel, by decide +kernel, by decide +kernel, by decide +kernel, by decide +kernel, by decide +kernel⟩

def linksDown : State := st [(Reg.LNK_CTL_SPAREEN 63, 0), (Reg.LNK_STATUS_STATE 63, 7), (Reg.ID_LINKMAP_MAP, 2 ^ 64 - 1), (Reg.PWR_DOM_STATE_STATE 83, 0), (Reg.ID_VARIANT_MAXDOMAIN, 64), (Reg.ID_VARIANT_LINKS, 64)]

def joinedAt (now : Word) (rs : List (Fld × Nat)) : State := { st ((Reg.LNK_DOM_CFG_EN, 1) :: (Reg.LNK_DOM_CFG_N, 2) :: rs) with tick := now }

theorem witness_ControlWordsAct :
    ((linkIn 5 {} 0 []).linkState 63 = lnkActive ∧ ((linkIn 5 {} 0 []).link 63).ident ≠ some ⟨63, 63, 64, true, true, 63, 2 ^ 64 - 1, 0xFFFF⟩ ∧ ((linkIn 5 {} 0 []).link 63).digest = [] ∧ (3#4).toNat ≤ 3) ∧
    ((⟨63, 63, 64, true, true, 63, 2 ^ 64 - 1, 0xFFFF⟩ : Ident).n = bits (BitVec.ofNat 112 (63 + 64 * 63 + 2 ^ 12 * 64 + 2 ^ 19 + 2 ^ 20 + 2 ^ 21 * 63 + 2 ^ 27 * (2 ^ 64 - 1) + 2 ^ 91 * 0xFFFF)).toNat 12 7) ∧
    ((linkIn 5 {} 0 [(Reg.LNK_DOM_CFG_EN, 1)]).joined = true ∧ (linkIn 5 {} 0 []).get (Reg.LNK_STATUS_PEERMOD 63) = (linkIn 5 {} 0 []).get Reg.LNK_DOM_TIME_MASTER ∧ (64#112).getLsbD 6 = true ∧ bits (64#112).toNat 0 6 = (linkIn 5 {} 0 []).modNum ∧ bits (127#112).toNat 0 6 ≠ (linkIn 5 {} 0 []).modNum ∧ (63#112).getLsbD 6 = false ∧ (linkIn 5 {} 0 [(Reg.LNK_STATUS_PEERMOD 63, 1)]).get (Reg.LNK_STATUS_PEERMOD 63) ≠ (linkIn 5 {} 0 [(Reg.LNK_STATUS_PEERMOD 63, 1)]).get Reg.LNK_DOM_TIME_MASTER) ∧
    (((linkIn 5 { ident := some ⟨0, 0, 0, false, false, 0, 0, 0⟩ } 0 []).link 63).ident = some ⟨bits (0#112).toNat 0 6, 0, 0, bitAt (0#112).toNat 19, bitAt (0#112).toNat 20, 0, 0, 0⟩ ∧ (linkIn 1 {} 0 []).linkState 63 < lnkQualify ∧ (linkIn 1 {} 0 []).linkUp 63 = false) := by
  and_intros
  all_goals decide +kernel

theorem witness_DomainRegistersAct :
    ((st [(Reg.LNK_STATUS_STATE 62, 5)]).linkState 62 ≠ lnkDown ∧ (st ((Reg.LNK_STATUS_STATE 3, 5) :: linkOn.take 3)).linkUp 3 = true ∧ (st ((Reg.LNK_STATUS_STATE 3, 5) :: linkOn.take 3)).linkCause 3 = none ∧ (st ((Reg.LNK_STATUS_STATE 3, 5) :: linkOn.take 3)).get (Reg.LNK_CTL_EN 3) = 1) ∧
    ((st [(Reg.LNK_STATUS_STATE 62, 7)]).linkState 62 = lnkDown ∧ ((st [(Reg.LNK_STATUS_STATE 62, 5)]).set (Reg.LNK_CTL_EN 62) 0).linkCause 62 ≠ none) ∧
    ((st [(Reg.LNK_CTL_SPAREEN 63, 1)]).get (Reg.LNK_CTL_SPAREEN 63) = 1 ∧ (16384#64).getLsbD 14 = true ∧ linksDown.get (Reg.LNK_CTL_SPAREEN 63) = 0 ∧ linksDown.linkState 63 = lnkDown) ∧
    ((joinedAt 0 []).joined = true ∧ bits (0#64).toNat 6 7 ≠ (joinedAt 0 []).domN ∧ (st []).domCfgRefused (partOf ((st []).wordOf (Reg.row_LNK_DOM_CFG.fields 0 0)) .whole 0x10019003F) = true) ∧
    (linksDown.joined = false ∧ linksDown.get Reg.ID_VARIANT_MAXDOMAIN = 64 ∧ linksDown.get Reg.ID_VARIANT_LINKS = 64 ∧ bits (0x10190103F#64).toNat 0 6 = 63 ∧ bits (0x10190103F#64).toNat 6 7 = 64 ∧ bits (0x10190103F#64).toNat 13 1 = 0 ∧ bits (0x10190103F#64).toNat 16 9 = 400 ∧ bits (0x10190103F#64).toNat 32 1 = 1 ∧ bits (0x10190103F#64).toNat 33 1 = 0) ∧
    ((st [(Reg.LNK_DOM_TIME_FENCED, 1)]).get Reg.LNK_DOM_TIME_FENCED = 1 ∧ (st []).get Reg.LNK_DOM_TIME_FENCED = 0) ∧
    ((joinedAt 1021 []).tick.toNat % 1020 ≠ 0 ∧ (joinedAt 2040 []).tick.toNat % 1020 = 0 ∧ (joinedAt 2040 []).chooseMaster.on Reg.LNK_DOM_TIME_ISMASTER = true ∧ lowest (((joinedAt 2040 []).candidates.filter (·.2)).map (·.1)) = none) ∧
    ((joinedAt 2040 [(Reg.LNK_DOM_TIME_FENCED, 1)]).chooseMaster.on Reg.LNK_DOM_TIME_ISMASTER = false ∧ lowest (((joinedAt 2040 [(Reg.LNK_DOM_TIME_SYNCED, 1), (Reg.LNK_DOM_CFG_MODNUM, 1)]).candidates.filter (·.2)).map (·.1)) = some 1 ∧ (joinedAt 2040 [(Reg.LNK_DOM_TIME_SYNCED, 1), (Reg.LNK_DOM_CFG_MODNUM, 1)]).chooseMaster.get Reg.LNK_DOM_TIME_MASTER = 1) := by
  and_intros
  all_goals decide +kernel

/-- Ring 15 of function 16 runs, and tenancy 16 is started. -/
def ringRows : List (Fld × Nat) := [(Reg.RING_STATE_STATE 16 15, 1), (Reg.RING_CTL_EN 16 15, 1), (Reg.TN_STATE_STATE 16, 2)]

def ringed (x : Ring) (rs : List (Fld × Nat)) : State := (st (ringRows ++ rs)).modRing 16 15 (fun _ => x)

/-- A command of a ring by its descriptor, with its count 9. -/
def cmd (d : List (Nat × Byte)) (x : CmdState) : RingCmd := { idx := 9, desc := desc d, st := x }

def posted : State := ringed { cmds := [cmd [(0, 1), (2, 1)] .fetched] } []

/-- A dispatched command of ring 15 of function 16. -/
def sent (d : List (Nat × Byte)) (rs : List (Fld × Nat)) : State := ringed { cmds := [cmd d .dispatched] } rs

def running (d : List (Nat × Byte)) (rs : List (Fld × Nat)) : State := ringed { cmds := [cmd d .running] } rs

theorem witness_RingsPollFetchDispatch :
    (({ ringed { due := 1000 } [] with tick := 1000 } : State).ringServed 16 15 = true ∧ (({ ringed { due := 1000 } [] with tick := 1000 } : State).ring 16 15).due = 1000 ∧ ({ ringed { due := 1000 } [] with tick := 1000 } : State).polls.1.toNat ≠ 1000 / 1000 ∧ ({ ringed { due := 1000 } [] with tick := 1000 } : State).polledFirst 16 15 = false ∧ (ringed { due := 1 } []).tick.toNat < ((ringed { due := 1 } []).ring 16 15).due.toNat) ∧
    ((ringed {} []).ringServed 16 15 = true ∧ ((ringed {} []).ring 16 15).reading = false ∧ ((ringed {} []).ring 16 15).fetching = 0) ∧
    (((ringed { reading := true } []).ring 16 15).reading = true ∧ (ringed { reading := true } []).ringServed 16 15 = true ∧ 2 ^ (ringed {} []).get (Reg.RING_SIZE_CMDLOG2 16 15) < (leAt [1, 1] 0 4 + 2 ^ 32 - (ringed {} []).get (Reg.RING_STATE_CHEAD 16 15)) % 2 ^ 32 ∧ (leAt [0, 1] 0 4 + 2 ^ 32 - (ringed {} []).get (Reg.RING_STATE_CHEAD 16 15)) % 2 ^ 32 ≤ 2 ^ (ringed {} []).get (Reg.RING_SIZE_CMDLOG2 16 15) ∧ ((ringed {} []).get (Reg.RING_COUNT_CWRITTEN 16 15) + 2 ^ 32 - leAt [0, 1] 4 4) % 2 ^ 32 ≤ 2 ^ (ringed {} []).get (Reg.RING_SIZE_CPLLOG2 16 15) ∧ (∀ q < 16, ((ringed {} []).ring 16 q).cpls = [] ∧ (ringed {} []).ringState 16 q ≠ ringStopping)) ∧
    (((ringed { fetching := 1 } []).ring 16 15).fetching = 1 ∧ badFormat ((desc [(0, 1), (2, 1)]).take 64) = false ∧ leAt ((desc [(0, 1), (2, 1)]).take 64) 0 1 = 1 ∧ zeroBytes ((desc [(0, 1), (2, 1)]).take 64) 8 64 = true ∧ (ringed { fetching := 1 } []).ringServed 16 15 = true) ∧
    ((posted.ring 16 15).cmds.find? (fun c => c.st == .fetched && c.op != 3) = some (cmd [(0, 1), (2, 1)] .fetched) ∧ posted.cmd 16 15 9 = some (cmd [(0, 1), (2, 1)] .fetched) ∧ posted.phase = .ready ∧ posted.ringState 16 15 = ringRunning ∧ posted.abortWaits 16 = false ∧ posted.ideBlocked 16 15 = false ∧ posted.mustWait 16 15 (cmd [(0, 1), (2, 1)] .fetched) = false ∧ posted.epoch (0xC0 + 16) = 0 ∧ (ringed {} [(Reg.RING_COUNT_INFLIGHT 16 15, 65535)]).mustWait 16 15 (cmd [(0, 1), (2, 1)] .fetched) = true ∧ (ringed { cmds := [cmd [(0, 1), (2, 1)] .fetched] } [(Reg.MC_EPOCH_EPOCH 0xD0, 1)]).epoch 0xD0 = 1) ∧
    (posted.frost = .awake ∧ ({ posted with frost := .asleep } : State).frost ≠ .awake ∧ posted.targetUnits (cmd [(0, 1), (2, 1)] .fetched) = [] ∧ (ringed {} []).targetUnits (cmd [(0, 0x52), (8, 3)] .fetched) = [0x13]) := by
  and_intros
  all_goals decide +kernel

theorem witness_NopWritesItsCompletion :
    Dispatched 16 15 9 0x01 (cmd [(0, 1), (2, 1)] .dispatched) (sent [(0, 1), (2, 1)] [(Reg.RING_CTL_IRQEN 16 15, 0)]) ∧ (cmd [(0, 1), (2, 1)] .dispatched).fail = none ∧ ((sent [(0, 1), (2, 1)] []).ten 16).destroying = false ∧ (sent [(0, 1), (2, 1)] []).ideBlocked 16 15 = false ∧ (sent [(0, 1), (2, 1)] []).ringState 16 15 = ringRunning ∧ (sent [(0, 1), (2, 1)] [(Reg.RING_CTL_IRQEN 16 15, 0)]).get (Reg.RING_CTL_IRQEN 16 15) = 0 ∧ (sent [(0, 1), (2, 1)] []).unread 16 15 < 2 ^ (sent [(0, 1), (2, 1)] []).get (Reg.RING_SIZE_CPLLOG2 16 15) ∧ ∀ q < 16, ((sent [(0, 1), (2, 1)] []).ring 16 q).cpls = [] ∧ (q ≠ 15 → (sent [(0, 1), (2, 1)] []).ringState 16 q ≠ ringStopping) :=
  by decide +kernel

def hbms : List (Fld × Nat) := [(Reg.ID_STACKMAP_MAP, 255), (Reg.ID_VARIANT_STACKS, 8), (Reg.TN_CFG_GRANQ 16, 2), (Reg.TN_CFG_BUFQ 16, 1)]

/-- Handle slot 4095 is a buffer of granules 0 and 255 of tenancy 16. -/
def withBuf (s : State) : State := { s with handles := [(4095, { allocs := 1, live := true, owner := 16, grans := [0, 255] })], granules := ((Vector.replicate 256 31).set 0 16).set 255 16 }

def handleBytes : List (Nat × Byte) := [(8, 0xFF), (9, 0x0F), (10, 1), (14, 16)]

def halted5 (d : List (Nat × Byte)) : State := running d [(Reg.ID_TILEMAP_MAP, 32), (Reg.PWR_DOM_STATE_STATE 5, 0), (Reg.TILE_STATE_RUN 5, 4)]

def queue7 (s : State) : State := { s with pqs := [(7, { ({} : Queue) with owner := 16, value := 5 })] }

/-- A debug command for tile 5, whose RUN is given. -/
def debugs (op sub : Byte) (run : Nat) (rs : List (Fld × Nat)) : State := sent [(0, op), (8, 5), (9, sub), (16, 8)] ([(Reg.ID_TILEMAP_MAP, 32), (Reg.PWR_DOM_STATE_STATE 5, 0), (Reg.TILE_STATE_RUN 5, run)] ++ rs)

def debugCmd (op sub : Byte) : RingCmd := cmd [(0, op), (8, 5), (9, sub), (16, 8)] .dispatched

theorem witness_RingCommandsComplete :
    (Dispatched 16 15 9 0x10 (cmd [(0, 0x10), (8, 2)] .dispatched) (sent [(0, 0x10), (8, 2)] hbms) ∧ (sent [(0, 0x10), (8, 2)] hbms).freeSlot = some 0 ∧ (((List.range 256).filter ((sent [(0, 0x10), (8, 2)] hbms).granFree 0 0)).take 2) = [0, 1] ∧ (sent [(0, 0x10), (8, 2)] hbms).granCount 16 + 2 ≤ (sent [(0, 0x10), (8, 2)] hbms).get (Reg.TN_CFG_GRANQ 16) ∧ (sent [(0, 0x10), (8, 2)] hbms).liveHandles 16 + 1 ≤ (sent [(0, 0x10), (8, 2)] hbms).get (Reg.TN_CFG_BUFQ 16)) ∧
    ((sent [(0, 0x10), (8, 2)] hbms).buffersBusy 16 = false ∧ (sent [(0, 0x10), (8, 2)] []).get (Reg.TN_CFG_BUFQ 16) < (sent [(0, 0x10), (8, 2)] []).liveHandles 16 + 1) ∧
    (leAt (desc ((0, 0x11) :: handleBytes)) 8 8 % 4096 = 4095 ∧ Dispatched 16 15 9 0x11 (cmd ((0, 0x11) :: handleBytes) .dispatched) (withBuf (sent ((0, 0x11) :: handleBytes) [])) ∧ (withBuf (sent ((0, 0x11) :: handleBytes) [])).handleCheck 16 (leAt (desc ((0, 0x11) :: handleBytes)) 8 8) true = none ∧ (withBuf (sent ((0, 0x11) :: handleBytes) [])).get (Reg.TN_SAVE_HANDLE 16) ≠ leAt (desc ((0, 0x11) :: handleBytes)) 8 8 ∧ (sent ((0, 0x11) :: handleBytes) []).handleCheck 16 (leAt (desc ((0, 0x11) :: handleBytes)) 8 8) true = some stStaleHandle) ∧
    (Dispatched 16 15 9 0x12 (cmd [(0, 0x12), (32, 64)] .dispatched) (sent [(0, 0x12), (32, 64)] []) ∧ (sent [(0, 0x12), (32, 64)] []).copyHeld (cmd [(0, 0x12), (32, 64)] .dispatched) = false ∧ Dispatched 16 15 9 0x13 (cmd [(0, 0x13), (32, 64)] .dispatched) (sent [(0, 0x13), (32, 64)] []) ∧ (sent [(0, 0x13), (32, 64)] []).copyHeld (cmd [(0, 0x13), (32, 64)] .dispatched) = false) ∧
    (UnderWay 16 15 9 0x13 (cmd [(0, 0x13)] .running) (running [(0, 0x13)] []) ∧ (cmd [(0, 0x13)] .running).cLen ≤ (cmd [(0, 0x13)] .running).cursor ∧ (cmd [(0, 0x13)] .running).owed = 0 ∧ UnderWay 16 15 9 0x12 { cmd [(0, 0x12)] .running with owed := 1 } (ringed { cmds := [{ cmd [(0, 0x12)] .running with owed := 1 }] } [])) ∧
    (UnderWay 16 15 9 0x12 (cmd [(0, 0x12)] .running) (running [(0, 0x12)] []) ∧ (cmd [(0, 0x12)] .running).cLen ≤ (cmd [(0, 0x12)] .running).cursor) ∧
    (UnderWay 16 15 9 0x32 (cmd [(0, 0x32), (8, 5), (16, 1)] .running) (running [(0, 0x32), (8, 5), (16, 1)] []) ∧ (ringed { reading := true } []).cmd 16 15 9 = none ∧ UnderWay 16 15 9 0x12 (cmd [(0, 0x12), (32, 2)] .running) (running [(0, 0x12), (32, 2)] []) ∧ (cmd [(0, 0x12), (32, 2)] .running).hostChunk = 2) ∧
    (UnderWay 16 15 9 0x32 (cmd [(0, 0x32), (8, 5), (9, 1), (16, 8)] .running) (halted5 [(0, 0x32), (8, 5), (9, 1), (16, 8)]) ∧ leAt (desc [(0, 0x32), (8, 5), (9, 1), (16, 8)]) 16 4 = (0xAB :: zeros 7).length ∧ (halted5 [(0, 0x32), (8, 5), (9, 1), (16, 8)]).debugReadable ((halted5 [(0, 0x32), (8, 5), (9, 1), (16, 8)]).dbgTile (cmd [(0, 0x32), (8, 5), (9, 1), (16, 8)] .running)) = true) ∧
    (Dispatched 16 15 9 0x20 (cmd [(0, 0x20), (8, 7), (12, 3)] .dispatched) (queue7 (sent [(0, 0x20), (8, 7), (12, 3)] [])) ∧ (queue7 (sent [(0, 0x20), (8, 7), (12, 3)] [])).tnState 16 = 2 ∧ (queue7 (sent [(0, 0x20), (8, 7), (12, 3)] [])).unitHeld 0x19 = false ∧ Dispatched 16 15 9 0x21 (cmd [(0, 0x21), (8, 7), (12, 3)] .dispatched) (queue7 (sent [(0, 0x21), (8, 7), (12, 3)] []))) ∧
    (UnderWay 16 15 9 0x21 (cmd [(0, 0x21), (8, 7), (12, 5)] .running) (queue7 (running [(0, 0x21), (8, 7), (12, 5)] [])) ∧ (queue7 (running [(0, 0x21), (8, 7), (12, 5)] [])).since (cmd [(0, 0x21), (8, 7), (12, 5)] .running).start % 1000 = 0 ∧ ((queue7 (running [(0, 0x21), (8, 7), (12, 5)] [])).pq 7).value.toNat = 5 ∧ (queue7 (running [(0, 0x21), (8, 7), (12, 6)] [])).since 0 < 10000 * (queue7 (running [(0, 0x21), (8, 7), (12, 6)] [])).get (Reg.PQ_TNCFG_TIMEOUT 16)) := by
  and_intros
  all_goals decide +kernel

/-- A LAUNCH whose image runs on tile 5, and its image in buffer 4095. -/
def launches (n : Nat) (rs : List (Fld × Nat)) (cells : List Host.Cell) : State :=
  { withBuf (sent ((0, 2) :: handleBytes ++ [(19, BitVec.ofNat 8 n)]) ([(Reg.ID_TILEMAP_MAP, 32), (Reg.TN_TILES_MAP 16, 32), (Reg.TN_CFG_MODE 16, 0), (Reg.PWR_TNCAP_CAP 16, 5)] ++ rs)) with hbm := cells }

def launchCmd (n : Nat) : RingCmd := cmd ((0, 2) :: handleBytes ++ [(19, BitVec.ofNat 8 n)]) .dispatched

def image : List Host.Cell := [(0, 0x42), (1, 0x49), (2, 0x58), (3, 0x47), (4, 1), (12, 32), (41, 1), (256, 5), (261, 0x10), (264, 1)]

def imageHead : List Byte := (launches 0 [] image).bufRead (leAt (launchCmd 0).desc 8 8) 0 256

def imageTiles : List Byte := (launches 0 [] image).bufRead (leAt (launchCmd 0).desc 8 8) 256 16

theorem witness_DebugCommandsComplete :
    ((debugs 0x30 0 1 []).tileUsable ((debugs 0x30 0 1 []).dbgTile (debugCmd 0x30 0)) = true ∧ (debugs 0x30 0 1 []).dbgTile (debugCmd 0x30 0) = 5 ∧ (debugs 0x30 0 1 []).domState 5 = 0 ∧ Dispatched 16 15 9 0x30 (debugCmd 0x30 0) (debugs 0x30 0 1 []) ∧ (debugs 0x30 0 1 []).tnPinned 16 = false ∧ leAt (debugCmd 0x30 2).desc 9 1 = 2 ∧ (debugs 0x30 0 1 [(Reg.PWR_TNCAP_PINNED 16, 1)]).tnPinned 16 = true ∧ ((debugs 0x30 0 1 []).tile 5).halting = false ∧ (debugs 0x30 0 1 []).inTake 5 = false ∧ (debugs 0x30 0 1 []).run 5 = runRunning) ∧
    (Dispatched 16 15 9 0x31 (debugCmd 0x31 0) (debugs 0x31 0 4 []) ∧ (debugs 0x31 0 4 []).debugReadable 5 = true ∧ leAt (debugCmd 0x31 0).desc 16 4 ≠ 0 ∧ (debugs 0x31 0 1 []).debugReadable 5 = false ∧ Dispatched 16 15 9 0x32 (debugCmd 0x32 0) (debugs 0x32 0 4 []) ∧ (debugs 0x31 0 4 []).run 5 = runDebug) := by
  and_intros
  all_goals decide +kernel

/-- A LAUNCH under way on tile 5 that is scheduled. -/
def schedCmd (tk : Option Word) : RingCmd := { cmd [(0, 2)] .running with place := 32, sched := true, load := 3, common := tk }

def loadedAt (tk : Option Word) (run : Nat) (now : Word) : State :=
  { (ringed { cmds := [schedCmd tk] } [(Reg.TILE_STATE_RUN 5, run)]).modTile 5 (fun t => { t with loading := if run = 0 then some (0, 0, 1, 2) else none }) with
    tick := now, supply := { rail := Vector.replicate 13 850, railTarget := Vector.replicate 4 850 } }

def rimeSent (op : Byte) (rime : Nat) : State := sent [(0, op), (8, 3)] [(Reg.TN_CFG_RIME 16, rime), (Reg.PWR_TNCAP_CAP 16, 23)]

theorem witness_LaunchesRun :
    (Dispatched 16 15 9 0x02 (launchCmd 0) (launches 0 [] image) ∧ leAt (launchCmd 0).desc 16 8 = 0 ∧ ((launches 0 [] image).handleGrans (leAt (launchCmd 0).desc 8 8)).length = 2 ∧ (launches 0 [] image).bufPoisoned (leAt (launchCmd 0).desc 8 8) 0 256 = false ∧ badHeader imageHead = false ∧ imageTables imageHead = [(256, 16), (0, 0), (0, 0)] ∧ hLength imageHead = 0 ∧ (launches 0 [] image).bufPoisoned (leAt (launchCmd 0).desc 8 8) 256 16 = false ∧ (launches 0 [] image).checkImage 16 0 (2 ^ 31) imageHead imageTiles [] [] = none) ∧
    (badHeader ((launches 0 [] []).bufRead (leAt (launchCmd 0).desc 8 8) 0 256) = true ∧ Dispatched 16 15 9 0x02 (launchCmd 255) (launches 255 [] image) ∧ 2 ^ 31 < leAt (launchCmd 255).desc 16 8 + 256 ∧ (launches 0 [(Reg.PWR_TNCAP_CAP 16, 4)] image).checkImage 16 0 (2 ^ 31) imageHead imageTiles [] [] = some stNoResource) ∧
    (UnderWay 16 15 9 0x02 (schedCmd none) (loadedAt none 0 0) ∧ (loadedAt none 0 0).loadedAll 16 (schedCmd none) = true ∧ UnderWay 16 15 9 0x02 (schedCmd (some 7)) (loadedAt (some 7) 0 7) ∧ (loadedAt (some 7) 0 7).loadedAll 16 (schedCmd (some 7)) = true ∧ (loadedAt (some 7) 0 6).tick.toNat < (7#64).toNat ∧ (bitList 64 32).any (loadedAt (some 7) 3 7).tileBusy = false ∧ (bitList 64 32).any (loadedAt (some 7) 1 7).tileBusy = true ∧ UnderWay 16 15 9 0x02 (schedCmd (some 7)) (loadedAt (some 7) 3 7)) ∧
    (23 * popCount 4 ((rimeSent 0x50 8).get (Reg.TN_CFG_RIME 16)) ≤ (rimeSent 0x50 8).get (Reg.PWR_TNCAP_CAP 16) ∧ (rimeSent 0x50 8).get Reg.TN_ISO_CLAIMED = 0 ∧ (rimeSent 0x50 8).rimeOut 3 = false ∧ Dispatched 16 15 9 0x50 (cmd [(0, 0x50), (8, 3)] .dispatched) (rimeSent 0x50 8) ∧ Dispatched 16 15 9 0x51 (cmd [(0, 0x51), (8, 3)] .dispatched) (rimeSent 0x51 8) ∧ Dispatched 16 15 9 0x52 (cmd [(0, 0x52), (8, 3)] .dispatched) (rimeSent 0x52 8) ∧ (rimeSent 0x50 9).get (Reg.PWR_TNCAP_CAP 16) < 23 * popCount 4 ((rimeSent 0x50 9).get (Reg.TN_CFG_RIME 16))) ∧
    ((loadedAt (some 7) 0 8).tick ≠ 7 ∧ (loadedAt (some 7) 3 7).loadedAll 16 (schedCmd (some 7)) = false ∧ (∀ p ∈ (loadedAt (some 7) 3 7).breeze, p.kind = .report → p.src ≠ 0x40 + 5) ∧ (bz .report 1 0).src = 0x40 + 5 ∧ (onBreeze (bz .report 1 0) (loadedAt (some 7) 3 7)).tileBusy 5 = false) ∧
    ((ringed { cmds := [cmd [(0, 3)] .fetched] } []).cmd 16 15 9 = some (cmd [(0, 3)] .fetched) ∧ (ringed { cmds := [cmd [(0, 3)] .fetched] } []).phase = .ready ∧ (cmd [(0, 3)] .fetched).op = 0x03 ∧ (loadedAt (some 7) 1 7).cmd 16 15 9 = some (schedCmd (some 7)) ∧ (schedCmd (some 7)).op = 0x02 ∧ (schedCmd (some 7)).abortedBy = [] ∧ (st []).cmd 16 15 9 = none) := by
  and_intros
  all_goals decide +kernel

def maskedFn (p : Word) : State := { st [] with funcs := Vector.replicate 17 { msix := { enabled := true, pending := p } } }

theorem witness_RingRegistersAndResets :
    (({ ringed { irqStart := some 0 } [(Reg.RING_IRQ_TIME 16 15, 1), (Reg.RING_CTL_IRQEN 16 15, 1)] with tick := 1000 } : State).get (Reg.RING_IRQ_TIME 16 15) = 1 ∧ 1000 ≤ ({ ringed {} [] with tick := 1000 } : State).since 0 ∧ (ringed { irqStart := some 0 } [(Reg.RING_IRQ_TIME 16 15, 1), (Reg.RING_CTL_IRQEN 16 15, 1)]).get (Reg.RING_CTL_IRQEN 16 15) = 1 ∧ (ringed {} []).ideBlocked 16 15 = false ∧ ((ringed { irqStart := some 0 } []).ring 16 15).irqStart = some 0 ∧ ({ ringed {} [] with tick := 999 } : State).since 0 < 1000) ∧
    (((maskedFn 0).func 16).msix.pending.getLsbD 63 = false ∧ ((maskedFn 0x8000000000000000).func 16).msix.pending.getLsbD 63 = true ∧ ((maskedFn 0x8000000000000000).func 16).msix.enabled = true ∧ ((maskedFn 0x8000000000000000).func 16).msix.funcMask = false ∧ ((maskedFn 0x8000000000000000).func 16).d3hot = false) ∧
    ((st []).get (Reg.RING_CTL_EN 16 15) = 0 ∧ (st []).ringState 16 15 = ringOff ∧ (1#64).getLsbD 0 = true ∧ (st []).ringLegal 16 15 (bits (1#64).toNat 8 6) = false ∧ (st []).ringLegal 16 15 (bits (0x3F01#64).toNat 8 6) = true ∧ (st []).get Reg.TN_ISO_CLAIMED = 0 ∧ (0x3F01#64).getLsbD 2 = false) ∧
    ((ringed {} []).get (Reg.RING_CTL_EN 16 15) = 1 ∧ (ringed {} []).ringState 16 15 = ringRunning ∧ (256#64).getLsbD 0 = false ∧ (ringed {} []).changesRwl (Reg.row_RING_CTL.fields 16 15) .whole 256 = false ∧ ((ringed {} []).ring 16 15).early = [] ∧ ∀ q < 16, ((ringed {} []).ring 16 q).cmds = [] ∧ ((ringed {} []).ring 16 q).cpls = []) ∧
    (bitAt ((st [(Reg.RING_IDE_SECURE, 2 ^ 16)]).get Reg.RING_IDE_SECURE) 16 = true ∧ bitAt ((st []).get Reg.RING_IDE_SECURE) 16 = false) ∧
    (({ st [] with pins := { perst := false } } : State).pins.perst = false ∧ ((3 : Fin 4).val ≠ 0) ∧ (16 : Fin 32).val = 16) := by
  and_intros
  all_goals decide +kernel

/-- Tenancy 16 in a state, with more register fields. -/
def ten16 (n : Nat) (rs : List (Fld × Nat)) : State := st ((Reg.TN_STATE_STATE 16, n) :: rs)

theorem witness_TenancyStepsRun :
    ((st []).phase = .ready ∧ (2#2).toNat ≠ 3 ∧ (ten16 0 []).tnState 16 = 0 ∧ (ten16 1 []).tnState 16 ≠ 0 ∧ (3#2).toNat = 3) ∧
    ((ten16 1 [(Reg.TN_TILES_MAP 16, 2 ^ 63)]).tnState 16 = 1 ∧ popCount 64 ((ten16 1 [(Reg.TN_TILES_MAP 16, 2 ^ 63)]).get (Reg.TN_TILES_MAP 16)) ≠ 0 ∧ (ten16 1 []).get (Reg.TN_SAVE_HANDLE 16) = 0 ∧ (ten16 1 [(Reg.TN_TILES_MAP 16, 2 ^ 63)]).breaksClaim 16 = false ∧ popCount 64 ((ten16 1 []).get (Reg.TN_TILES_MAP 16)) = 0 ∧ (ten16 1 [(Reg.TN_TILES_MAP 16, 2 ^ 63), (Reg.TN_ISO_CLAIMED, 1), (Reg.RING_CTL_EN 16 15, 1)]).breaksClaim 16 = true) ∧
    ((ten16 2 []).tnState 16 = 2 ∧ (ten16 2 []).tnState 16 ≠ 1 ∧ (ten16 1 []).tnState 16 ≠ 2 ∧ (16 : Fin 17).val ≠ 0 ∧ (ten16 3 []).tnState 16 ≠ 1 ∧ (ten16 3 []).tnState 16 ≠ 2) ∧
    (({ ten16 3 [] with quiesces := [{ units := [0xD0], reason := 1 }] } : State).quiesces.any (fun q => q.units.contains 0xD0 && (q.reason == 1 || q.reason == 2)) = true ∧ (ten16 3 []).quiesces = [] ∧ (ten16 3 []).tnState 16 = 3 ∧ ((ten16 3 []).ten 16).destroying = false ∧ (ten16 3 []).mbx = none ∧ (ten16 4 []).tnState 16 = 4) := by
  and_intros
  all_goals decide +kernel

def scrubs (a : Option Word) (now : Word) : State := { tl 63 { scrubbing := true, scrubAt := a } [] with tick := now }

/-- Rime engine 3 in a state of its work. -/
def engine (x : Rime) (phase : Nat) (d : List (Nat × Byte)) : State := { running d [(Reg.PWR_DOM_STATE_STATE 71, 0), (Reg.RIME_STATUS_PHASE 3, phase)] with
    rimes := (Vector.replicate 4 {}).set 3 x, doms := (Vector.replicate 86 {}).setIfInBounds 71 { rate := some 0 } }

def queuedRime : Rime := { queue := [(16, 15, 9)] }

def activeRime : Rime := { active := some (16, 15, 9), desc := desc [(0, 1)] }

/-- An RLINEAR of one op: 7 times the ciphertext at 0x20000 plus −1 times the one at 0x30000 plus 5, to 0x10000. -/
def linearOp : List Byte := (List.range 128).map (fun i => (([(0, 2), (4, 5), (10, 1), (24, 7), (26, 0xFF), (27, 0xFF), (42, 2), (50, 3)] : List (Nat × Byte)).find? (fun e => e.1 == i)).elim 0 (·.2))

theorem witness_AssignmentsAndClaims :
    ((ten16 1 [(Reg.ID_TILEMAP_MAP, 2 ^ 63)]).tnState 16 = 1 ∧ (bitList 64 (partOf ((ten16 1 [(Reg.ID_TILEMAP_MAP, 2 ^ 63)]).get (Reg.TN_TILES_MAP 16)) .whole 0x8000000000000000)).any ((ten16 1 [(Reg.ID_TILEMAP_MAP, 2 ^ 63)]).tileRefused 16) = false ∧ bitAt (2 ^ 63) 63 = true) ∧
    (bits (0x0FFF2100#64).toNat 0 9 = 256 ∧ bits (0x0FFF2100#64).toNat 16 12 = 4095 ∧ bits (0x0FFF2100#64).toNat 10 4 = (ten16 1 [(Reg.TN_CFG_RIME 16, 8)]).get (Reg.TN_CFG_RIME 16) ∧ (ten16 1 [(Reg.TN_CFG_RIME 16, 8)]).rimeTen 3 = 16 ∧ (ten16 1 [(Reg.TN_CFG_RIME 16, 8)]).granCount 16 = 0 ∧ (ten16 1 [(Reg.TN_CFG_RIME 16, 8)]).liveHandles 16 = 0) ∧
    (bits (0x9292C0400#64).toNat 0 11 = 1024 ∧ bits (0x9292C0400#64).toNat 11 9 = 384 ∧ bits (0x9292C0400#64).toNat 20 8 = 146 ∧ bits (0x9292C0400#64).toNat 28 8 = 146 ∧ 1024 < bits (1025#64).toNat 0 11) ∧
    ((ten16 2 []).tnStarted 16 = true ∧ (ten16 3 []).tnStarted 16 = true) ∧
    ((ten16 2 []).changesRwl (Reg.row_TN_CFG.fields 16 0) .whole 1 = true ∧ (ten16 2 []).changesRwl (Reg.row_TN_SLOTQ.fields 16 0) .whole 1 = true ∧ (ten16 2 []).changesRwl [Reg.TN_SAVE_HANDLE 16] .whole 1 = true ∧ (ten16 2 []).changesRwl (Reg.row_TN_CFG.fields 16 0) .whole 0 = false ∧ (ten16 2 []).changesRwl (Reg.row_TN_SLOTQ.fields 16 0) .high 9 = false ∧ (ten16 2 []).changesRwl [Reg.TN_SAVE_HANDLE 16] .whole 0 = false ∧ (ten16 2 []).get (Reg.TN_TILES_MAP 16) = 0) ∧
    (((scrubs (some 0) 0).tile 63).scrubbing = true ∧ (scrubs (some 0) 0).domState 63 ≠ 5 ∧ ((scrubs none 0).tile 63).scrubAt = none ∧ (scrubs (some 0) 20000).since 0 ≤ 20000 ∧ 20000 < (scrubs (some 0) 20001).since 0 ∧ ((st []).tile 63).scrubbing = false) ∧
    ((scrubs none 0).get (Reg.PWR_DOM_CTL_MAXSTATE 63) = 3 ∧ (scrubs none 0).get (Reg.PWR_DOM_CTL_HOLD 63) = 0 ∧ (tl 63 { scrubbing := true } [(Reg.PWR_DOM_CTL_MAXSTATE 63, 2)]).get (Reg.PWR_DOM_CTL_MAXSTATE 63) = 2 ∧ (tl 63 { scrubbing := true } [(Reg.PWR_DOM_CTL_MAXSTATE 63, 0)]).get (Reg.PWR_DOM_CTL_MAXSTATE 63) = 0 ∧ (tl 63 { scrubbing := true } [(Reg.PWR_DOM_CTL_HOLD 63, 1)]).get (Reg.PWR_DOM_CTL_HOLD 63) = 1) ∧
    (((st []).isoC1 && (st []).isoC2 && (st []).isoC3) = true ∧ (1#64).getLsbD 0 = true ∧ ((ten16 2 [(Reg.RING_CTL_EN 16 15, 1)]).isoC1 && (ten16 2 [(Reg.RING_CTL_EN 16 15, 1)]).isoC2 && (ten16 2 [(Reg.RING_CTL_EN 16 15, 1)]).isoC3) = false ∧ (0#64).getLsbD 0 = false) := by
  and_intros
  all_goals decide +kernel

def linearRun : State := { engine { activeRime with ops := linearOp, heads := [[0, 0]] } 4 [(0, 0x52)] with hbm := [(0x20040, 3), (0x21040, 1), (0x30040, 22), (0x31040, 4)] }

theorem witness_RimeCommandsRun :
    (((st []).domState 71 ≠ 0) ∧ ((engine queuedRime 0 [(0, 0x51), (9, 1)]).rime 3).queue = (16, 15, 9) :: [] ∧ ((engine queuedRime 0 [(0, 0x51), (9, 1)]).rime 3).active = none ∧ (engine queuedRime 0 [(0, 0x51), (9, 1)]).domState 71 = 0 ∧ (engine queuedRime 0 [(0, 0x51), (9, 1)]).cmd 16 15 9 = some (cmd [(0, 0x51), (9, 1)] .running) ∧ bitAt (leAt (cmd [(0, 0x51), (9, 1)] .running).desc 9 1) 0 = true ∧ bitAt (leAt (cmd [(0, 0x51)] .running).desc 9 1) 0 = false) ∧
    (((engine activeRime 1 [(0, 0x51)]).rime 3).active = some (16, 15, 9) ∧ (engine activeRime 1 [(0, 0x51)]).get (Reg.RIME_STATUS_PHASE 3) = 1 ∧ ((engine activeRime 1 [(0, 0x51)]).rime 3).waiting = false ∧ (engine activeRime 3 [(0, 0x51)]).get (Reg.RIME_STATUS_PHASE 3) = 3 ∧ leAt (activeRime.desc) 8 8 = 0 ∧ (engine activeRime 3 [(0, 0x51)]).poisonIn [(0, (rimeSet 1).bskBytes)] = none ∧ (cmd [(0, 0x51)] .running).op ≠ 0x50 ∧ (cmd [(0, 0x50)] .running).op = 0x50 ∧ ({ engine activeRime 3 [(0, 0x51)] with poison := [(0, true)] } : State).poisonIn [(0, (rimeSet 1).bskBytes)] = some 0 ∧ (engine activeRime 4 [(0, 0x51)]).get (Reg.RIME_STATUS_PHASE 3) = 4) ∧
    (((engine queuedRime 0 [(0, 0x51), (9, 1)]).rateUp 71).1 = true ∧ (({ engine queuedRime 0 [(0, 0x51)] with doms := Vector.replicate 86 {} } : State).rateUp 71).1 = false ∧ ((engine activeRime 3 [(0, 0x51)]).rime 3).owes = none) ∧
    ((engine { activeRime with ops := linearOp, heads := [[0, 0]] } 4 [(0, 0x52)]).cmd 16 15 9 = some (cmd [(0, 0x52)] .running)) := by
  and_intros
  all_goals decide +kernel

def quiescing (units : List Nat) (p : QPhase) (now : Word) (rs : List (Fld × Nat)) : State :=
  { st (rs ++ [(Reg.PWR_DOM_STATE_STATE 5, 0), (Reg.PWR_DOM_STATE_STATE 6, 0)]) with quiesces := [{ units := units, reason := 5, phase := p }], tick := now }

theorem witness_RimeLinearIsExact :
    (linearRun.rime 3).active = some (16, 15, 9) ∧ linearRun.cmd 16 15 9 = some (cmd [(0, 0x52)] .running) ∧ (cmd [(0, 0x52)] .running).op = 0x52 ∧ linearRun.get (Reg.RIME_STATUS_PHASE 3) = 4 ∧ (linearRun.rime 3).ops.length = 128 ∧ (linearRun.rime 3).written = 0 ∧ linearRun.poisonIn (opReads 0x52 (rimeSet 1) (linearRun.rime 3).desc (opEntry (linearRun.rime 3).ops 0)) = none ∧ linearRun.hbmLog.length ≤ (linearRun.rime 3).logFrom ∧ linearRun.hbmLog.length ≤ (linearRun.rime 3).logPrev ∧ (linearRun.rime 3).owes = none ∧ linearRun.exclWait = [] ∧ leAt (linearRun.rime 3).desc 0 1 = 1 ∧ 1024 ≤ (rimeSet 1).size :=
  by decide +kernel

theorem witness_QuiescesRun :
    ((quiescing [0x45] .waiting 0 []).quiesceAt .waiting 0x46 = none ∧ (quiescing [0x45] .waiting 0 []).quiesceAt .waiting 0x45 = some { units := [0x45], reason := 5 } ∧ (List.range 256).filter (fun u => ([0x45] : List Nat).contains u) = [0x45] ∧ (quiescing [0x45] .waiting 0 []).inQuiesce 0x45 = false ∧ (quiescing [0x45] .waiting 0 []).epochFree 0x45 = true ∧ (quiescing [0x45] .waiting 0 []).domState (unitDom 0x45) = 0) ∧
    (({ quiescing [0x45] .waiting 0 [] with quiesces := [{ units := [0x45], reason := 5 }, { units := [0x45], reason := 1, phase := .fenced }] } : State).inQuiesce 0x45 = true) ∧
    ((quiescing [0x45] .waiting 0 [(Reg.TILE_STATE_RUN 5, 0)]).epochFree 0x45 = true ∧ ((quiescing [0x45] .waiting 0 []).set (Reg.PWR_DOM_STATE_STATE 5) 2).domState (unitDom 0x45) = 2 ∧ ((quiescing [0x45] .waiting 0 []).set (Reg.PWR_DOM_STATE_STATE 5) 2).epochFree 0x45 = true ∧ ((quiescing [0x45] .waiting 0 []).set (Reg.PWR_DOM_STATE_STATE 5) 4).domState (unitDom 0x45) = 4) ∧
    ((quiescing [0x45] .fenced 0 []).quiesceAt .fenced 0x45 = some { units := [0x45], reason := 5, phase := .fenced } ∧ (quiescing [0x45] .fenced 0 []).breeze.any (fun p => p.kind == .epoch && ([0x45] : List Nat).contains (bits p.beat1 0 8)) = false ∧ (quiescing [0x45] .fenced 0 []).emitting 0x45 = false ∧ ({ quiescing [0x45] .fenced 0 [] with breeze := [bz .report 1 0] } : State).emitting 0x45 = true) ∧
    ((quiescing [0x45] .resetting 999 []).quiesceAt .resetting 0x45 = some { units := [0x45], reason := 5, phase := .resetting } ∧ (([0x45] : List Nat).filter (quiescing [0x45] .resetting 999 []).unitPowered).foldl (fun m u => max m (resetTime u)) 0 = 1000 ∧ (quiescing [0x45] .resetting 999 []).since 0 < 1000 ∧ 1000 ≤ (quiescing [0x45] .resetting 1000 []).since 0) ∧
    ((quiescing [0x45, 0x46] .fenced 50001 []).quiesces = [{ units := [0x45, 0x46], reason := 5, phase := .fenced }] ∧ 50000 < (quiescing [0x45, 0x46] .fenced 50001 []).since 0 ∧ (([0x45, 0x46] : List Nat).filter (· != 0x45)).isEmpty = false ∧ (quiescing [0x45] .fenced 50000 []).since 0 ≤ 50000) ∧
    ((st []).phase = .ready ∧ (∀ u < 0xC0, (st []).ownEpoch u = (st []).epoch u) ∧ (inPhase .off []).phase ≠ .ready ∧ isUnit 0x45 = true ∧ (quiescing [] .fenced 0 [(Reg.MC_EPOCH_EPOCH 0x45, 2)]).unitPowered 0x45 = true ∧ (quiescing [] .fenced 0 [(Reg.MC_EPOCH_EPOCH 0x45, 2)]).epoch 0x45 ≠ 0 ∧ (quiescing [] .fenced 0 [(Reg.MC_EPOCH_EPOCH 0x45, 2)]).ownEpoch 0x45 ≠ (quiescing [] .fenced 0 [(Reg.MC_EPOCH_EPOCH 0x45, 2)]).epoch 0x45 ∧ (quiescing [] .fenced 0 [(Reg.MC_EPOCH_EPOCH 0x45, 2)]).quiesces.any (fun q => q.units.contains 0x45) = false) := by
  and_intros
  all_goals decide +kernel

def mailbox (rs : List (Fld × Nat)) : State := st ([(Reg.ID_TILEMAP_MAP, 32), (Reg.PWR_DOM_STATE_STATE 5, 0)] ++ rs)

/-- A restart is under way. -/
def ends : State := { mailbox [] with quiesces := [{ units := [0x45], reason := 6, whom := .restart }] }

def heldUnit : State := mailbox [(Reg.MC_EPOCH_QSTATE 0x45, 4)]

theorem witness_RimeDigitsRecompose :
    0xFFFFFFFF < 2 ^ 32 ∧ 1 ≤ 7 ∧ 1 ≤ 3 ∧ 7 * 3 ≤ 31 ∧ decomp 0xFFFFFFFF 7 3 = [0, 0, 0] ∧ decomp 0x80000000 7 3 = [-64, 0, 0] ∧ decomp 0x7FFFFFFF 1 31 = -1 :: List.replicate 30 0 ∧ decomp 0x3F000000 7 3 = [32, -64, 0] :=
  by decide +kernel

theorem witness_MailboxRequestsServed :
    (MailboxFree (mailbox []) ∧ (mailbox []).inQuiesce (0xC0 + (16#8).toNat) = false ∧ (mailbox []).inQuiesce (0x45#8).toNat = false ∧ (mailbox []).canQuiesce (0x45#8).toNat = true ∧ (mailbox []).unitHeld (0x45#8).toNat = false ∧ MailboxFree heldUnit ∧ heldUnit.unitHeld (0x45#8).toNat = true ∧ heldUnit.canQuiesce (0x45#8).toNat = true ∧ (mailbox []).canQuiesce (0x46#8).toNat = false ∧ (mailbox []).ending = false) ∧
    (ends.ending = true ∧ MailboxFree ends) := by
  and_intros
  all_goals decide +kernel

def storeAt (t : Store) (rs : List (Fld × Nat)) : State := { mailbox rs with store := t }

def erasing (k : Nat) : State := storeAt { erase := some (1, k), cells := [(0x1800000 + 65536 * k, 7)] } [(Reg.CS_STATUS_ERASING, 1)]

def commits (n : Nat) : State := { storeAt {} [(Reg.CS_ACTIVE_SVN, n)] with mbx := some (0x56, 7, 0) }

def csAt (a : Nat) (t : Store) (rs : List (Fld × Nat)) : State := storeAt t ((Reg.CS_ADDR_ADDR, a) :: rs)

theorem witness_ImagesEraseAndCommit :
    (MailboxFree (storeAt {} []) ∧ (storeAt {} []).slotBusy = false ∧ (storeAt {} []).store.op = none ∧ (storeAt {} []).slotWritable (1#8).toNat = true ∧ (storeAt {} []).slotWritable (0#8).toNat = false ∧ 1 < (2#8).toNat ∧ (storeAt {} []).activateRefusal 1 false = some stNoResource ∧ (storeAt {} [(Reg.CS_BOOT_VERB, 1)]).activateRefusal 1 false = none ∧ (storeAt {} []).ending = false ∧ (storeAt {} [(Reg.CS_BOOT_TRIAL, 1)]).get Reg.CS_BOOT_TRIAL = 1 ∧ (storeAt {} []).get Reg.CS_BOOT_TRIAL = 0 ∧ (storeAt {} []).commitNext = none ∧ (storeAt {} [(Reg.CS_ACTIVE_SVN, 1)]).commitNext ≠ none) ∧
    ((zeros 97).length = 97 ∧ (zeros 96).length = 96 ∧ (storeAt {} []).ownerRefusal (zeros 97) (1 :: zeros 95) = some stNotOwner ∧ (storeAt {} []).ownerRefusal (zeros 97) (zeros 96) = none) ∧
    (3 < (4#8).toNat ∧ ({ storeAt {} [(Reg.CS_BOOT_VERB, 1)] with quiesces := ends.quiesces } : State).ending = true ∧ ({ storeAt {} [(Reg.CS_BOOT_VERB, 1)] with quiesces := ends.quiesces } : State).activateRefusal 1 false = none) ∧
    (MailboxFree (storeAt {} []) ∧ (erasing 382).store.erase = some (1, 382) ∧ (erasing 382).frost = .awake ∧ 382 + 1 < 384 ∧ (erasing 383).store.erase = some (1, 383)) ∧
    ((commits 1).mbx = some (0x56, 7, 0) ∧ (commits 1).commitNext = some 0 ∧ ((commits 1).blowBit 0).afterCommit.commitNext = none ∧ (commits 2).commitNext = some 0 ∧ ((commits 2).blowBit 0).afterCommit.commitNext = some 0 ∧ (commits 1).rollback 0 < 128) := by
  and_intros
  all_goals decide +kernel

def recovery (a : Nat) : State := { csAt a {} [(Reg.PWR_DOM_STATE_STATE 84, 0)] with phase := .recovery }

theorem witness_StoreCommandsRun :
    ((csAt 0x3FFF000 {} []).phase = .ready ∧ (csAt 0x3FFF000 {} []).get Reg.CS_STATUS_BUSY = 0 ∧ (csAt 0x3FFF000 {} []).slotBusy = false ∧ (csAt 0x3FFF000 {} []).get Reg.CS_ADDR_ADDR + (4096#13).toNat = 0x4000000 ∧ 0x4000000 < (csAt 0x3FFF001 {} []).get Reg.CS_ADDR_ADDR + (4096#13).toNat ∧ 4096 < (4097#13).toNat ∧ storeForm 2 0x1800000 256 = true ∧ (csAt 0x1800000 {} []).slotWritable (0x1800000 / 0x1800000) = true ∧ (∀ i < 256, (csAt 0x1800000 {} []).store.read (0x1800000 + i) 1 = [0xFF]) ∧ storeForm 2 1 256 = false ∧ (csAt 0x1800000 {} [(Reg.CS_STATUS_BUSY, 1)]).get Reg.CS_STATUS_BUSY = 1) ∧
    ((csAt 0x1800000 { cells := [(0x18000FF, 0)] } []).store.read (0x1800000 + 255) 1 ≠ [0xFF] ∧ (∀ j < 255, (csAt 0x1800000 { cells := [(0x18000FF, 0)] } []).store.read (0x1800000 + j) 1 = [0xFF]) ∧ 255 < (256#13).toNat) ∧
    ((csAt 0 { op := some (2, 0x1800000, 2, [1, 2]) } []).store.op = some (2, 0x1800000, 2, [1, 2]) ∧ ([1, 2] : List Byte).length = 2 ∧ (csAt 0 { op := some (3, 0x1810000, 0, []) } []).store.op = some (3, 0x1810000, 0, []) ∧ (csAt 0 { op := some (1, 0, 4096, []) } []).store.op = some (1, 0, 4096, []) ∧ (csAt 0 {} []).frost = .awake) ∧
    (({ csAt 0 { op := some (1, 0, 3, []) } [] with frost := .asleep } : State).frost ≠ .awake ∧ ({ csAt 0 { op := some (1, 0, 3, []) } [] with frost := .asleep } : State).store.op ≠ none) := by
  and_intros
  all_goals decide +kernel

theorem witness_OnlyInactiveSlotWritable :
    ((csAt 0x17FFF00 {} []).get Reg.CS_BOOT_ACTIVE = 0x17FFF00 / 0x1800000 ∧ storeForm 2 0x17FFF00 256 = true ∧ storeForm 3 0x17F0000 0 = true ∧ 0x17FFF00 + 256 ≤ 0x4000000 ∧ (csAt 0x1800000 {} []).get Reg.CS_BOOT_ACTIVE ≠ 0x1800000 / 0x1800000 ∧ (csAt 0x1800000 {} []).get Reg.CS_BOOT_TRIAL = 0 ∧ (csAt 0x1800000 {} [(Reg.CS_BOOT_TRIAL, 1)]).get Reg.CS_BOOT_TRIAL = 1 ∧ storeForm 2 0x2FFFF00 256 = true ∧ storeForm 3 0x2FF0000 0 = true) ∧
    ((recovery 0).phase = .recovery ∧ (recovery 0).hostUp = true ∧ (recovery 0).get Reg.CS_STATUS_BUSY = 0 ∧ (recovery 0).slotBusy = false ∧ (∀ i < 256, (recovery 0).store.read i 1 = [0xFF]) ∧ storeForm 2 0 256 = true ∧ storeForm 3 0 0 = true ∧ storeForm 3 0x3000000 0 = true ∧ storeForm 2 0x3FFFF00 256 = true ∧ 0x3FFFF00 + 256 ≤ 0x4000000) := by
  and_intros
  all_goals decide +kernel

def allAsleep : State := st ((List.range 64).map (fun g => (Reg.PWR_DOM_STATE_STATE g, 4)))

def updating (u : Update) (t : Store) (rs : List (Fld × Nat)) : State := { storeAt t rs with mgmt := { upd := some u } }

theorem witness_ManagementAnswers :
    (ManagedBy .vdm (st []) ∧ ManagedBy .i3c (st []) ∧ (1#8) ≠ 0 ∧ (254#8) ≠ 0xFF ∧ pldmCommands 2 ≠ none ∧ sensorField 17 = some (Reg.MEM_STATUS_TEMP 7) ∧ sensorField 18 = none ∧ sensorField 4 ≠ none ∧ ((st []).stateSensor 24).isSome = true ∧ (st []).ending = false ∧ (st []).mgmt.events = []) ∧
    ((st [(Reg.PWR_BUDGET_MODCAP, 1000)]).budgetRefused ((st [(Reg.PWR_BUDGET_MODCAP, 1000)]).wordOf budgetFields / 65536 * 65536 + (1100#32).toNat % 65536) = false ∧ (st []).budgetRefused ((st []).wordOf budgetFields / 65536 * 65536 + (299#32).toNat % 65536) = true ∧ (1100#32).toNat ≤ 65535 ∧ 65535 < (65536#32).toNat ∧ 24 ≤ (24#32).toNat ∧ (23#32).toNat < 24) ∧
    (({ st [] with frost := .asleep } : State).wakeFrost.frost = .exiting 0) ∧
    (ManagedBy .vdm ends ∧ ends.ending = true ∧ (ten16 2 []).wakeFrost.enterFrost.2 ≠ stOK ∧ (allAsleep.wakeFrost.enterFrost.2 = stOK) ∧ 4 < (5#8).toNat) := by
  and_intros
  all_goals decide +kernel

def spdmAt (level : Nat) (x : List Session) (keys : List Nat) : State := { st [] with mgmt := { conn := [(0, level), (1, level), (2, level)], sessions := x, ideKeys := keys, measured := [[1], [2]] } }

theorem witness_FirmwareUpdateRuns :
    (ManagedBy .i3c (updating { slot := 1 } {} []) ∧ (updating { slot := 1 } {} []).frost = .awake ∧ (storeAt {} []).mgmt.upd = none ∧ (storeAt {} []).get Reg.CS_BOOT_TRIAL = 0 ∧ (storeAt {} []).slotBusy = false ∧ (storeAt {} []).mbx = none ∧ (storeAt {} [(Reg.CS_BOOT_TRIAL, 1)]).get Reg.CS_BOOT_TRIAL = 1 ∧ (storeAt {} []).store.aver = (storeAt {} []).get Reg.CS_ACTIVE_IMGVER) ∧
    ((updating { slot := 1, phase := .download } {} []).mgmt.upd = some { slot := 1, phase := .download } ∧ 0 < (updating { slot := 1, phase := .download } {} []).updTotal { slot := 1, phase := .download } ∧ (zeros 4096).length = 4096) ∧
    ((updating { slot := 1, phase := .download, done := 4096 } { cells := [(0x1800028, 0), (0x1800029, 0x10), (0x180002A, 0), (0x180002B, 0)] } []).updTotal { slot := 1, phase := .download, done := 4096 } ≤ 4096 ∧ (updating { slot := 1, applied := true, phase := .readyXfer } {} [(Reg.CS_BOOT_VERB, 1)]).activateRefusal 1 false = none) ∧
    (({ slot := 1 } : Update).phase ≠ .readyXfer ∧ ({ slot := 1, phase := .apply } : Update).phase ≠ .learn) := by
  and_intros
  all_goals decide +kernel

/-- Event ring 17 is on, with records that it holds. -/
def evRingAt (r : EvRing) (rs : List (Fld × Nat)) : State := { st ([(evEn 17, 1), (evLog2 17, 4), (evBase 17, 1), (evDb 17, 2)] ++ rs) with evRings := (Vector.replicate 18 {}).set 17 r }

def anEvent : EvRec := { kind := 5 }

theorem witness_SpdmResponds :
    (spdmAt 3 [] []).portUp .doe = true ∧ (st []).spdmLevel .doe = 0 ∧ (spdmAt 3 [] []).spdmLevel .doe = 3 ∧ (1#8) ≠ 0 ∧ (spdmAt 3 [] []).measurements[(2#8).toNat - 1]? = some [2] ∧ (spdmAt 3 [] []).session .doe 1 = none ∧ (spdmAt 3 [{ port := 2, id := 1 }, { port := 2, id := 2 }] []).session .doe 2 = some { port := 2, id := 2 } ∧ (spdmAt 3 [{ port := 2, id := 1, established := true }] [16]).session .doe 1 = some { port := 2, id := 1, established := true } ∧ (spdmAt 3 [{ port := 2, id := 1, established := true }] [16]).mgmt.ideKeys.contains 16 = true ∧ (spdmAt 3 [] []).measurements.length = (spdmAt 3 [] []).mgmt.measured.length + 1 :=
  by decide +kernel

/-- Tiles 0 and 63 are a twin pair. -/
def twinned (run cycle : Nat) : State := { tl 0 { cycle := BitVec.ofNat 64 cycle } [(Reg.TILE_STATE_RUN 0, run), (Reg.TILE_STATE_RUN 63, run)] with twins := [{ primary := 0, shadow := 63 }] }

theorem witness_EventsAndTwins :
    (((evRingAt { held := [anEvent] } []).evRing 17).held = anEvent :: [] ∧ (evRingAt { held := [anEvent] } []).evOpen 17 = true ∧ (evRingAt { held := [anEvent] } []).evRoom 17 = true ∧ (evRingAt { held := [anEvent] } [(evWritten 17, 16)]).evRoom 17 = false ∧ (evRingAt {} []).evRing 17 = {} ∧ ((evRingAt {} []).get (evWritten 17) + 2 ^ 32 - leAt [0] 0 4) % 2 ^ 32 ≤ 2 ^ (evRingAt {} []).get (evLog2 17) ∧ 2 ^ (evRingAt {} []).get (evLog2 17) < ((evRingAt {} []).get (evWritten 17) + 2 ^ 32 - leAt [1] 0 4) % 2 ^ 32) ∧
    (((evRingAt { due := true } []).evRing 17).due = true ∧ (∀ j < 18, ((evRingAt { due := true } []).evRing j).lastMsg = none) ∧ ((evRingAt { lastMsg := some 0 } []).evRing 17).lastMsg = some 0 ∧ (evRingAt {} []).since 0 < 10000) ∧
    (bitAt 0xC01 0 = true ∧ bits 0xC01 8 4 = 12 ∧ (evRingAt {} [(evEn 17, 0)]).get (evEn 17) = 0 ∧ (evRingAt {} []).tnStarted 16 = false ∧ (evRingAt {} []).get (evBase 17) ≠ 0 ∧ partOf ((evRingAt {} [(evEn 17, 0)]).wordOf [evEn 17, evLog2 17]) .whole 0xC01 = 0xC01 ∧ 12 < bits 0xD01 8 4) ∧
    ((evRingAt {} [(Reg.TN_STATE_STATE 16, 2)]).tnStarted (17 - 1) = true ∧ (evRingAt {} [(Reg.TN_STATE_STATE 16, 2)]).changesRwl [evEn 17, evLog2 17] .whole 0x500 = true ∧ (evRingAt {} []).get (evEn 17) = 1 ∧ bits (partOf ((evRingAt {} []).wordOf [evEn 17, evLog2 17]) .whole 0x501) 8 4 ≠ (evRingAt {} []).get (evLog2 17) ∧ (0 < (17 : Fin 18).val)) ∧
    (((evRingAt { held := List.replicate 255 anEvent } []).evRing 17).held.length < 256 ∧ 256 ≤ ((evRingAt { held := List.replicate 256 anEvent } []).evRing 17).held.length) ∧
    ((st []).pairOf 63 = none ∧ (twinned 1 71).pairOf 63 = some { primary := 0, shadow := 63 } ∧ (twinned 1 71).run 0 ≠ runFaulted ∧ (twinned 1 71).canIssue 0 = true ∧ ((twinned 1 71).tile 0).cycle.toNat < 72 ∧ 72 ≤ ((twinned 1 72).tile 0).cycle.toNat ∧ (twinned 3 0).canIssue 0 = false) ∧
    ((twinned 6 0).run 0 = runStopped ∧ (twinned 6 0).pairOf 63 = some { primary := 0, shadow := 63 }) ∧
    (bitList 64 ((st []).get (Reg.MC_GRANWH_WITHHELD 3) &&& partOf 0 .whole 0xFFFFFFFFFFFFFFFF) = [] ∧ bitAt ((st [(Reg.MC_GRANWH_WITHHELD 3, 2 ^ 63)]).get (Reg.MC_GRANWH_WITHHELD 3)) 63 = true ∧ bitAt (partOf 0 .high 0x80000000) 63 = true) := by
  and_intros
  all_goals decide +kernel

/-- A module with its eight stacks. -/
def fullStacks : State := st [(Reg.ID_STACKMAP_MAP, 255)]

theorem witness_RegisterWritesFollowAccess :
    (0x104 % 8 ≠ 0 ∧ (st []).phase = .ready ∧ (inPhase .bringUp [(Reg.PWR_DOM_STATE_STATE 84, 0)]).hostUp = true ∧ (inPhase .bringUp []).earlyWrite 0x200000 = false ∧ regAt 0xDFFFF8 = none ∧ regAt 0x20FFF8 = none ∧ regAt 0x318000 = none) ∧
    ((ten16 2 []).regStarted Reg.row_TN_CFG.base 16 0 = true ∧ (ten16 2 []).changesRwl (Reg.row_TN_CFG.fields 16 0) .whole 1 = true ∧ (ten16 1 []).regStarted Reg.row_TN_CFG.base 16 0 = false ∧ (ten16 1 []).valueRefused Reg.row_TN_CFG.base 16 (Reg.row_TN_CFG.fields 16 0) .whole 1 = false ∧ Reg.TN_STATE_STATE 16 ∈ Reg.row_TN_STATE.fields 16 0 ∧ (Reg.TN_STATE_STATE 16).acc = .ro) ∧
    (((st []).busGet 0 0x110).2 = st []) ∧
    (((regAt (Reg.MEM_SCRUB_EN 7).off).any (fun x => x.1.base == Reg.row_MEM_SCRUB.base && x.2.1 == 7)) = true ∧ fullStacks.absentBlock (Reg.MEM_SCRUB_EN 7).off = false ∧ (Reg.MEM_SCRUB_EN 7).off % 8 = 0 ∧ 0x310000 ≤ (Reg.MEM_SCRUB_EN 7).off ∧ (fullStacks.writePower 0 Reg.row_MEM_SCRUB.base 7 .whole 12).isNone = true ∧ (fullStacks.writeController 0 Reg.row_MEM_SCRUB.base 7 .whole 12).isNone = true ∧ (fullStacks.writeTenancy 0 Reg.row_MEM_SCRUB.base 7 0 .whole 12).isNone = true ∧ Reg.row_MEM_SCRUB.base ≠ Reg.row_RING_IRQ.base ∧ fullStacks.regStarted Reg.row_MEM_SCRUB.base 7 0 = false ∧ fullStacks.valueRefused Reg.row_MEM_SCRUB.base 7 (Reg.row_MEM_SCRUB.fields 7 0) .whole 12 = false) ∧
    ((st []).domState 84 = 0 ∧ ((st []).writePower 0 Reg.row_PWR_SLEW.base 0 .whole 60).isSome = true ∧ ((st []).writeTenancy 0 Reg.row_TN_TILES.base 16 0 .whole 0).isSome = true) ∧
    ((16 : Fin 17) ≠ 0 ∧ vfOffset 16 0x8038 = some 0x308038 ∧ vfOffset 16 0x9000 = none ∧ vfOffset 16 0x18 = some 0x301018 ∧ ((0x9000 < 0xE000) ∨ 0xE400 ≤ 0x9000)) ∧
    (0x200 % 16 = 0 ∧ 0x200 % 32 = 0 ∧ 0x200 % 64 = 0 ∧ 0x204 % 8 = 4 ∧ (st []).hostUp = true ∧ (inPhase .off []).hostUp = false) :=
  ⟨by decide +kernel, by decide +kernel, rfl, by decide +kernel, by decide +kernel, by decide +kernel, by decide +kernel⟩

theorem witness_ResetIsDefined :
    State.reset.get Reg.PWR_BUDGET_MODCAP = Reg.PWR_BUDGET_MODCAP.reset ∧ Reg.PWR_BUDGET_MODCAP.reset ≠ 0 :=
  by decide +kernel

/-! ### Commands that are not well formed -/

theorem test_wf_register_write : (Instr.registerWrite 0 0x104 .whole 1).wf = false ∧ (Instr.registerWrite 1 0x10000 .whole 1).wf = false ∧
    (Instr.registerWrite 0 0x3FFFFF8 .whole 1).wf = true := by decide

theorem test_wf_bar_wide_request : (Instr.barWideRequest 0 true 0x110 16 [1]).wf = false ∧ (Instr.barWideRequest 3 false 0xFFF8 16 []).wf = false ∧
    (Instr.barWideRequest 3 false 0xFFF0 16 []).wf = true := by decide

theorem test_wf_thermal_sensor_read : (Instr.thermalSensorRead [] (List.replicate 16 0) (List.replicate 8 0) 0 0).wf = false := by decide

theorem test_wf_power_manager_tick : (Instr.powerManagerTick 0 0 0 0 [1, 2]).wf = false := by decide

theorem test_wf_bringup_stage5 : (Instr.bringupStage5 []).wf = false := by decide

theorem test_wf_link_flit_receive : (Instr.linkFlitReceive 0 [1] false 0 0 0).wf = false := by decide

theorem test_wf_flit_forward : (Instr.flitForward 0 85 false 0 .clean).wf = false ∧ (Instr.flitForward 0 84 false 0 .clean).wf = true := by decide

theorem test_wf_doorbell_read_done : (Instr.doorbellReadDone 0 0 (.data [1])).wf = false ∧ (Instr.doorbellReadDone 0 0 .failed).wf = true := by decide

theorem test_wf_evr_doorbell_poll : (Instr.evrDoorbellPoll 0 (.data [])).wf = false := by decide

theorem test_wf_alloc : (Instr.alloc 0 0 0 (some 256)).wf = false ∧ (Instr.alloc 0 0 0 (some 255)).wf = true := by decide

theorem test_wf_request_firmware_data : (Instr.requestFirmwareData .i3c [0]).wf = false := by decide

theorem test_wf_ownerkey : (Instr.ownerkey 0 (List.replicate 97 0) []).wf = false := by decide

/-! ### The spec's worked examples -/

/-- The table gives no row bits. -/
theorem test_no_word_spells_a_command : decodeTableWord 32 0x13 = none := by decide

/-- Chapter 02, worked example: 16 tiles at 0.60 A/µs and a start load of 16/16 all start at 8.0 µs. -/
theorem test_common_start_tick : commonTick 0 16 60 16 = 8000 := by decide

/-- Chapter 03, worked example: link 20 of module 5 in a domain of 64 arrives on link 42 of module 26. -/
theorem test_wiring_64 : wiring 64 5 20 = (26, 42, 0) := by decide

/-- Chapter 12, worked example: link 12 of module 9 in a domain of 37 arrives on link 23 of module 22; module 9 reaches module 0 on link 27. -/
theorem test_wiring_37 : wiring 37 9 12 = (22, 23, 0) ∧ bondLink 37 9 0 0 = 27 ∧ bondLink 37 0 22 0 = 21 := by decide

/-- Chapter 11, worked example: a byte of a uniform granule on an Amilet-64. -/
theorem test_hbm_uniform : (st []).hbmPlace 0x1234567A00 = (0, 24) ∧ (st []).hbmRowOf 0x1234567A00 % 2 ^ 17 = 0x3456 := by decide +kernel

/-- Chapter 11, worked example: the same byte of a local granule. -/
theorem test_hbm_local : (st [(Reg.MEM_GROUPMODE_LOCAL, 512)]).hbmPlace 0x1234567A00 = (0, 23) ∧
    (st [(Reg.MEM_GROUPMODE_LOCAL, 512)]).hbmRowOf 0x1234567A00 % 2 ^ 17 = 0x1A2B3 := by decide +kernel

/-- Chapter 19, worked example: the registers at three PF0 offsets. -/
theorem test_register_offsets :
    (regAt 0x258240).map (fun r => (r.1.base, r.2)) = some (Reg.row_RING_STATE.base, 5, 2) ∧
    (regAt 0x5A00B0).map (fun r => (r.1.base, r.2)) = some (Reg.row_TILE_Q_WAIT.base, 26, 0) ∧
    (regAt 0xB04718).map (fun r => (r.1.base, r.2)) = some (Reg.row_PWR_DOM_STATE.base, 71, 0) ∧
    vfOffset 5 0x8240 = some 0x258240 := by decide +kernel

/-- Chapter 10, worked example: the wait record of a WAITS that timed out. -/
theorem test_wait_record : waitRecord 0x30 3 40 7 0x1A4 5 0 4 1 2 1000000000 1010000000 =
    [0x30, 0x03, 0x28, 0x07, 0xA4, 0x01, 0x05, 0x00, 0x00, 0x00, 0x00, 0x04, 0x01, 0x00, 0x00, 0x02, 0x00, 0xCA, 0x9A, 0x3B, 0, 0, 0, 0,
     0x80, 0x60, 0x33, 0x3C, 0, 0, 0, 0] := by decide +kernel

/-- Chapter 13, worked example: completion record 519 of a ring of 256 entries. -/
theorem test_completion_record :
    cplRecord { st [] with tick := 80000000000 } 2 519 8
      { status := 0x20, opcode := 0x02, xstatus := 0x24, tag := [0x17, 0x4A, 0, 0], idx := 1000, result := 100000 } =
    [0x20, 0x02, 0x02, 0x24, 0x17, 0x4A, 0, 0, 0xE8, 0x03, 0, 0, 0, 0, 0, 0, 0xA0, 0x86, 0x01, 0, 0, 0, 0, 0, 0x00, 0x20, 0x5F, 0xA0,
     0x12, 0, 0, 0x01] := by decide +kernel

/-- A row's products, decoded from bf16. -/
def bfProducts (ab : List (Nat × Nat)) : List Sys2Proof.Machine.Num := ab.map (fun p => (fmtBf16.decode p.1).mul (fmtBf16.decode p.2))

/-- Chapter 08, worked example: the window's floor turns a positive sum negative. -/
theorem test_chunk_floor :
    let e := (roundInto 0 true 0 (chunkOf 0 false (bfProducts [(0x3F80, 0x3F80), (0xBF80, 0x3F80), (0x3300, 0x3300), (0xB080, 0x3080)]) 0)).1
    e = 0x544000000 ∧ (readOut 0 e).1 = 0xA8800000 := by decide +kernel

/-- Chapter 08, worked example: with NEG 1 the entry is again −2⁻⁴⁶. -/
theorem test_chunk_floor_neg :
    (roundInto 0 true 0 (chunkOf 0 true (bfProducts [(0x3F80, 0x3F80), (0xBF80, 0x3F80), (0x3300, 0x3300), (0xB080, 0x3080)]) 0)).1 =
      0x544000000 := by decide +kernel

/-- Chapter 08, worked example: the read-out rounds a second time. -/
theorem test_double_rounding :
    let e := (roundInto 0 true 0 (chunkOf 0 false (bfProducts [(0x3F80, 0x3F80), (0x3980, 0x3980), (0x3800, 0x3800)]) 0)).1
    e = 0x1FC000004 ∧ (readOut 0 e).1 = 0x3F800000 := by decide +kernel

end Sys2Proof.Tests
end

section
/-! SUPPORT. Work on its way through the domains, and what the parts of the state depend on, for the packets and flits below. -/

namespace Sys2Proof.Machine

/-! ### Work and the domains on its way (R32, R106) -/

/-- What no domain's traffic mark shows is kept by traffic. -/
theorem Carried_keeps {β : Type} (F : State → β) (h : ∀ n s, F (State.touchDom n s) = F s) (ds : List Nat) (s : State) :
    F (Carried ds s) = F s :=
  foldl_keep F ds _ s (fun z n _ => h n z)

@[simp] theorem Carried_regs (ds : List Nat) (s : State) : (Carried ds s).regs = s.regs :=
  Carried_keeps State.regs (fun _ _ => rfl) ds s
@[simp] theorem Carried_tiles (ds : List Nat) (s : State) : (Carried ds s).tiles = s.tiles :=
  Carried_keeps State.tiles (fun _ _ => rfl) ds s
@[simp] theorem Carried_pqs (ds : List Nat) (s : State) : (Carried ds s).pqs = s.pqs :=
  Carried_keeps State.pqs (fun _ _ => rfl) ds s
@[simp] theorem Carried_twins (ds : List Nat) (s : State) : (Carried ds s).twins = s.twins :=
  Carried_keeps State.twins (fun _ _ => rfl) ds s
@[simp] theorem Carried_rings (ds : List Nat) (s : State) : (Carried ds s).rings = s.rings :=
  Carried_keeps State.rings (fun _ _ => rfl) ds s
@[simp] theorem Carried_rimes (ds : List Nat) (s : State) : (Carried ds s).rimes = s.rimes :=
  Carried_keeps State.rimes (fun _ _ => rfl) ds s
@[simp] theorem Carried_breeze (ds : List Nat) (s : State) : (Carried ds s).breeze = s.breeze :=
  Carried_keeps State.breeze (fun _ _ => rfl) ds s
@[simp] theorem Carried_unitEpoch (ds : List Nat) (s : State) : (Carried ds s).unitEpoch = s.unitEpoch :=
  Carried_keeps State.unitEpoch (fun _ _ => rfl) ds s

/-- Work whose domains are all in L0 is carried. -/
theorem State.through_awake {ds : List Nat} {s : State} (h : ∀ n ∈ ds, s.domState n = 0) (carried lost : State → State) :
    s.through ds carried lost = carried (Carried ds s) := by
  have hoff : ds.any (fun n => s.domState n == 5) = false := by simpa using fun n hn => by simp [h n hn]
  have hall : ds.all (fun n => s.domState n == 0) = true := by simpa using h
  simp [State.through, hoff, hall, Carried]

/-- Work that meets a domain that is Off is lost. -/
theorem State.through_off {ds : List Nat} {s : State} (h : ∃ n ∈ ds, s.domState n = 5) (carried lost : State → State) :
    s.through ds carried lost = lost s := by
  have hoff : ds.any (fun n => s.domState n == 5) = true := by simpa using h
  simp [State.through, hoff]

/-- Work whose way sleeps wakes the domains on it and waits. -/
theorem State.through_asleep {ds : List Nat} {s : State} (h5 : ∀ n ∈ ds, s.domState n ≠ 5) (h0 : ∃ n ∈ ds, s.domState n ≠ 0)
    (carried lost : State → State) : s.through ds carried lost = Woken ds s := by
  have hoff : ds.any (fun n => s.domState n == 5) = false := by simpa using h5
  have hall : ds.all (fun n => s.domState n == 0) = false := by simpa using h0
  simp [State.through, hoff, hall, Woken]

/-! ### What a part of the state depends on -/

theorem State.tile_congr {s t : State} (h : t.tiles = s.tiles) (g : Nat) : t.tile g = s.tile g := by
  simp only [State.tile, h]

theorem State.pq_congr {s t : State} (h : t.pqs = s.pqs) (q : Nat) : t.pq q = s.pq q := by
  simp only [State.pq, h]

theorem State.twinOf_congr {s t : State} (h : t.twins = s.twins) (g : Nat) : t.twinOf g = s.twinOf g := by
  simp only [State.twinOf, h]

theorem State.cmd_congr {s t : State} (h : t.rings = s.rings) (f r idx : Nat) : t.cmd f r idx = s.cmd f r idx := by
  simp only [State.cmd, State.ring, h]

/-- The fields of a token's source depend on the register file alone. -/
theorem State.lastOf_congr {s t : State} (h : t.regs = s.regs) (src : Source) : t.lastOf src = s.lastOf src := by
  have hm : t.modNum = s.modNum := State.get_congr h _
  cases src <;> simp only [State.lastOf, hm]

/-- A tile without a shadow alone hears what arrives at it (R525). -/
theorem State.hearers_of_no_twin {s : State} {g : Nat} (h : s.twinOf g = none) : s.hearers g = [g] := by
  simp [State.hearers, h]

@[simp] theorem State.tile_set (f : Fld) (v g : Nat) (s : State) : (s.set f v).tile g = s.tile g := rfl

/-- A write of one field leaves every other field. -/
theorem keepsRegs_set (f : Fld) (v : Nat) (s : State) : KeepsRegs [f] s (s.set f v) :=
  fun _ hx => State.get_set_ne (hx f List.mem_cons_self) v s

end Sys2Proof.Machine
end

section
/-! The always-on parts: a step without a command, and the state after reset. -/

namespace Sys2Proof.Machine

/-- A field that nothing has written reads its reset value. -/
theorem State.get_of_no_regs {s : State} (h : s.regs = []) (f : Fld) : s.get f = f.reset := by
  simp [State.get, h, spGet]

/-- Settles O2: on an empty queue `step` takes its idle branch. -/
theorem emptyQueueTicks : Obligations.EmptyQueueTicks := by
  intro s h
  simp only [step, h]

/-- Settles O40: the register file of the reset state lists nothing, so that every field reads its reset value. -/
theorem resetIsDefined : Obligations.ResetIsDefined :=
  have hget : ∀ f : Fld, State.reset.get f = f.reset := State.get_of_no_regs rfl
  ⟨rfl, rfl, rfl, hget, rfl, rfl, rfl, fun t => hget (Reg.TN_STATE_STATE t)⟩

end Sys2Proof.Machine
end

section
/-! Tokens at their queues (R285, R287, R289, R296). -/

namespace Sys2Proof.Machine

/-! ### A queue and a token -/

/-- A count joins a queue: the sum, at most 0xFFFFFF. -/
theorem Queue.token_value (n : Nat) (l : Nat × Nat × Bool × Bool × Bool) (q : Queue) :
    (q.token n l).value.toNat = min (q.value.toNat + n) 0xFFFFFF := by
  have : min (q.value.toNat + n) 0xFFFFFF < 2 ^ 24 := by omega
  simp only [Queue.token, Queue.add, BitVec.toNat_ofNat, Nat.mod_eq_of_lt this]

/-- With no token of a later port in this KCLK, a token that meets a queue is its last. -/
theorem State.tokenAt_last {s : State} {p : Iso} {tile : Nat}
    (h : ∀ e ∈ s.touched, e.pool = p.pool → e.queue = p.queue → e.port ≤ p.src.port p) (q : Queue) :
    s.tokenAt p tile q = q.token p.count (s.lastOf p.src) := by
  have hlater : s.touched.any (fun e => e.pool == p.pool && e.tile == tile && e.queue == p.queue && p.src.port p < e.port) = false := by
    simp only [List.any_eq_false, Bool.and_eq_true, beq_iff_eq, decide_eq_true_eq]
    rintro e he ⟨⟨⟨hpool, -⟩, hqueue⟩, hport⟩
    exact absurd (h e he hpool hqueue) (Nat.not_le.mpr hport)
  simp only [State.tokenAt, hlater, Bool.false_eq_true, if_false]

/-! ### What reaching a queue leaves alone -/

@[simp] theorem State.touchQ_pqs (pool : Bool) (tile queue port : Nat) (old : Queue) (s : State) :
    (s.touchQ pool tile queue port old).pqs = s.pqs := by
  unfold State.touchQ
  dsimp only
  split <;> rfl

@[simp] theorem State.touchQ_tiles (pool : Bool) (tile queue port : Nat) (old : Queue) (s : State) :
    (s.touchQ pool tile queue port old).tiles = s.tiles := by
  unfold State.touchQ
  dsimp only
  split <;> rfl

@[simp] theorem Tile.queue_setLq_self {i : Nat} (hi : i < 32) (q : Queue) (t : Tile) : (t.setLq i q).queue i = q := by
  simp [Tile.queue, Tile.setLq, hi]

/-! ### Applying a token -/

theorem State.applyToken_stale {s : State} {p : Iso} (h : s.tokenFresh p = false) :
    s.applyToken p = s.bump Reg.PQ_ISO_ERR_STALE 1 := by
  simp [State.applyToken, h]

/-- A fresh token for a pooled queue meets that queue. -/
theorem State.applyToken_pooled {s : State} {p : Iso} (h : s.tokenFresh p = true) (hp : p.pool = true) :
    (s.applyToken p).pq p.queue = s.tokenAt p 0 (s.pq p.queue) := by
  simp only [State.applyToken, h, hp, Bool.not_true, Bool.false_eq_true, if_false, if_true]
  rw [State.pq_congr (State.touchQ_pqs ..), State.pq_setPq_self]

/-- A fresh token for a local queue of a tile without a shadow meets that queue. -/
theorem State.applyToken_local {s : State} {p : Iso} (h : s.tokenFresh p = true) (hp : p.pool = false) (ht : s.twinOf p.tile = none)
    (htile : p.tile < 64) (hq : p.queue < 32) :
    ((s.applyToken p).tile p.tile).queue p.queue = s.tokenAt p p.tile ((s.tile p.tile).queue p.queue) := by
  simp only [State.applyToken, h, hp, Bool.not_true, Bool.false_eq_true, if_false, State.hearers_of_no_twin ht, List.foldl_cons, List.foldl_nil]
  rw [State.tile_congr (State.touchQ_tiles ..), State.tile_modTile_self _ _ _ htile, Tile.queue_setLq_self hq]

theorem exec_tokenApply {k : Nat} {p : Iso} {s : State} (more : Bool) (hat : s.isoAt k = some p) (hk : p.kind = .signal) :
    exec (.tokenApply k more) s = .next (s.takeIso k p (fun z => ((z.applyToken p).serveAfter p more).rimeTokenDone p.src)) := by
  show execTokenApply k more s = _
  simp only [execTokenApply, hat, hk, if_true]

/-- Settles O15: the token's way decides whether it is carried, lost or waits (`State.through`), and a fresh one meets its queue as
`State.tokenAt_last` says. -/
theorem tokensReachTheirQueues : Obligations.TokensReachTheirQueues := by
  intro k more p s u hat hk hu
  have hpq : u.pq p.queue = s.pq p.queue := by subst hu; exact State.pq_congr (Carried_pqs ..) _
  have htile : u.tile p.tile = s.tile p.tile := by subst hu; exact State.tile_congr (Carried_tiles ..) _
  have htwin : u.twinOf p.tile = s.twinOf p.tile := by subst hu; exact State.twinOf_congr (Carried_twins ..) _
  have hlast : u.lastOf p.src = s.lastOf p.src := by subst hu; exact State.lastOf_congr (Carried_regs ..) _
  rw [exec_tokenApply more hat hk]
  refine ⟨fun h => ?_, fun h => ?_, fun h5 h0 => ?_, State.applyToken_stale, fun hf hp hlater => ?_, fun hf hp ht hg hq hlater => ?_,
    fun n l q => ⟨Queue.token_value n l q, rfl, rfl, rfl, rfl, rfl⟩⟩
  · rw [State.takeIso, State.through_awake h, hu]
  · rw [State.takeIso, State.through_off h]
  · rw [State.takeIso, State.through_asleep h5 h0]
  · rw [State.applyToken_pooled hf hp, State.tokenAt_last (hp ▸ hlater), hpq, hlast]
  · rw [State.applyToken_local hf hp (htwin.trans ht) hg hq, State.tokenAt_last (hp ▸ hlater), htile, hlast]

end Sys2Proof.Machine
end

section
/-! Flits at their targets: WRITE, READ, RDATA, WACK and ISWRITE (R318, R176, R339, R352, R492). -/

namespace Sys2Proof.Machine

/-! ### What a write of scratchpad bytes and a change of a channel leave alone -/

@[simp] theorem Tile.spWrite_sp (a : Nat) (bs : List Byte) (t : Tile) : (t.spWrite a bs).sp = memWrite ramByte t.sp a bs := rfl
@[simp] theorem Tile.spWrite_g (a : Nat) (bs : List Byte) (t : Tile) : (t.spWrite a bs).g = t.g := rfl
@[simp] theorem Tile.spWrite_istore (a : Nat) (bs : List Byte) (t : Tile) : (t.spWrite a bs).istore = t.istore := rfl
@[simp] theorem Tile.spWrite_chan (a : Nat) (bs : List Byte) (t : Tile) (c : Nat) : (t.spWrite a bs).chan c = t.chan c := rfl
@[simp] theorem Tile.modChan_sp (c : Nat) (h : Chan → Chan) (t : Tile) : (t.modChan c h).sp = t.sp := rfl

@[simp] theorem Tile.chan_modChan_self {c : Nat} (hc : c < 4) (h : Chan → Chan) (t : Tile) : (t.modChan c h).chan c = h (t.chan c) := by
  simp [Tile.chan, Tile.modChan, hc]

/-! ### A flit that stands at its target -/

@[simp] theorem State.tile_dropFlit (k g : Nat) (s : State) : (s.dropFlit k).tile g = s.tile g := rfl

theorem State.twinOf_dropFlit (k g : Nat) (s : State) : (s.dropFlit k).twinOf g = s.twinOf g := rfl

/-- A unit that serves is not Off. -/
theorem State.domState_ne_off_of_serves {s : State} {u e : Nat} (h : s.serves u e = true) : s.domState (unitDom u) ≠ 5 := by
  simp only [State.serves, Bool.and_eq_true, bne_iff_ne] at h
  exact h.1.1

/-- At an HC or a link engine in L0 a flit acts. -/
theorem State.atTarget_awake {f : Flit} {s : State} (hd : f.dest < 0x40 ∨ 0x80 ≤ f.dest) (h0 : s.domState (unitDom f.dest) = 0)
    (k : Nat) (effect : State → State) : s.atTarget k f effect = effect ((s.touchDom (unitDom f.dest)).dropFlit k) := by
  have hn : ¬(0x40 ≤ f.dest ∧ f.dest < 0x80) := by omega
  rw [State.atTarget, if_neg hn, State.through_awake (by simpa using h0)]
  rfl

/-- At a sleeping HC or link engine a flit wakes the domain and waits. -/
theorem State.atTarget_asleep {f : Flit} {s : State} (hd : f.dest < 0x40 ∨ 0x80 ≤ f.dest) (h5 : s.domState (unitDom f.dest) ≠ 5)
    (h0 : s.domState (unitDom f.dest) ≠ 0) (k : Nat) (effect : State → State) :
    s.atTarget k f effect = s.wakeDomain (unitDom f.dest) := by
  have hn : ¬(0x40 ≤ f.dest ∧ f.dest < 0x80) := by omega
  rw [State.atTarget, if_neg hn, State.through_asleep (by simpa using h5) (by simpa using h0)]
  simp [Woken, h0]

/-- At a tile whose memory is up a flit acts. -/
theorem State.atTarget_tile_up {f : Flit} {g : Nat} {s : State} (hd : f.dest = 0x40 + g) (hg : g < 64) (hm : s.memoryUp g = true)
    (k : Nat) (effect : State → State) : s.atTarget k f effect = effect (s.dropFlit k) := by
  have hr : 0x40 ≤ f.dest ∧ f.dest < 0x80 := by omega
  have hi : f.dest - 0x40 = g := by omega
  rw [State.atTarget, if_pos hr, hi, if_pos hm]

/-- At a tile whose memory is down a flit waits. -/
theorem State.atTarget_tile_down {f : Flit} {g : Nat} {s : State} (hd : f.dest = 0x40 + g) (hg : g < 64) (hm : s.memoryUp g = false)
    (k : Nat) (effect : State → State) : s.atTarget k f effect = s := by
  have hr : 0x40 ≤ f.dest ∧ f.dest < 0x80 := by omega
  have hi : f.dest - 0x40 = g := by omega
  rw [State.atTarget, if_pos hr, hi, if_neg (by simp [hm])]

/-! ### Answers -/

/-- The WACK of a write that tile `g` has taken: the tile is changed, every other part stays, and the acknowledgement goes back to the source. -/
theorem State.modTile_wack {s t : State} {k g : Nat} {h : Tile → Tile} {f : Flit} {status : Nat} (hg : g < 64)
    (ht : t = ((s.dropFlit k).modTile g h).wack f status) :
    t.tile g = h (s.tile g) ∧ (∀ j, j ≠ g → t.tile j = s.tile j) ∧ t.hbm = s.hbm ∧ t.regs = s.regs ∧
      ∃ w, t.flits = s.flits.eraseIdx k ++ [w] ∧ w.typ = .wack ∧ w.dest = f.src ∧ w.status = status ∧ w.tag = f.tag := by
  subst ht
  exact ⟨State.tile_modTile_self g h (s.dropFlit k) hg, fun j hj => State.tile_modTile_ne hj.symm h (s.dropFlit k), rfl, rfl,
    _, rfl, rfl, rfl, rfl, rfl⟩

/-- An RDATA enters the network behind the other flits. -/
theorem State.rdata_flits (f : Flit) (data : List Byte) (poison : Bool) (s : State) :
    ∃ w, (s.rdata f data poison).flits = s.flits ++ [w] ∧
      w.typ = .rdata ∧ w.dest = f.src ∧ w.data = data ∧ w.poison = poison ∧ w.tag = f.tag :=
  ⟨_, rfl, rfl, rfl, rfl, rfl, rfl⟩

/-! ### WRITE -/

theorem exec_jsWrite_stale {k : Nat} {f : Flit} {s : State} (ha : s.arrived k .write = some f) (hs : s.serves f.dest f.epoch = false) :
    exec (.jsWrite k) s = .next ((s.dropFlit k).bump Reg.MC_STALE_FLITS 1) := by
  show execJsWrite k s = _
  simp [execJsWrite, ha, hs, State.stale]

theorem exec_jsWrite_served {k : Nat} {f : Flit} {s : State} (ha : s.arrived k .write = some f) (hs : s.serves f.dest f.epoch = true) :
    exec (.jsWrite k) s = .next (s.atTarget k f (State.takeWrite f)) := by
  show execJsWrite k s = _
  simp [execJsWrite, ha, hs]

theorem State.takeWrite_hc {f : Flit} (hd : f.dest < 0x10) (s : State) : s.takeWrite f = s.toHc f := by
  simp [State.takeWrite, hd]

theorem State.takeWrite_link {f : Flit} (hd : 0x80 ≤ f.dest) (s : State) : s.takeWrite f = s.linkAccept f := by
  have hn : ¬f.dest < 0x10 := by omega
  simp [State.takeWrite, hn, hd]

/-- At a tile without a shadow a WRITE lands in its scratchpad and is acknowledged. -/
theorem State.takeWrite_tile {f : Flit} {g : Nat} {s : State} (hd : f.dest = 0x40 + g) (hg : g < 64) (ht : s.twinOf g = none) :
    s.takeWrite f = (s.modTile g (fun t => t.spWrite f.addr f.data)).wack f stOK := by
  have hhc : ¬f.dest < 0x10 := by omega
  have hlink : ¬0x80 ≤ f.dest := by omega
  have hi : f.dest - 0x40 = g := by omega
  simp only [State.takeWrite, if_neg hhc, if_neg hlink, hi, State.hearers_of_no_twin ht, List.foldl_cons, List.foldl_nil]

/-- Settles O17: a WRITE at its target by the epoch, the unit and the state of its domain; the bytes are those of `spGet_memWrite`. -/
theorem writeFlitsWrite : Obligations.WriteFlitsWrite := by
  intro k f s ha
  refine ⟨exec_jsWrite_stale ha, fun hs h0 => ⟨fun hd => ?_, fun hd => ?_⟩, fun hs h0 hd => ?_,
    fun g hs hd hg => ⟨fun hm => ?_, fun hm ht => ?_⟩⟩
  · rw [exec_jsWrite_served ha hs, State.atTarget_awake (by omega) h0, State.takeWrite_hc hd]
  · rw [exec_jsWrite_served ha hs, State.atTarget_awake (.inr hd) h0, State.takeWrite_link hd]
  · rw [exec_jsWrite_served ha hs, State.atTarget_asleep (by omega) (State.domState_ne_off_of_serves hs) h0]
  · rw [exec_jsWrite_served ha hs, State.atTarget_tile_down hd hg hm]
  · have hstep : exec (.jsWrite k) s = .next _ := exec_jsWrite_served ha hs
    rw [State.atTarget_tile_up hd hg hm, State.takeWrite_tile hd hg ((State.twinOf_dropFlit ..).trans ht)] at hstep
    obtain ⟨htile, hother, hhbm, hregs, w, hflits, htyp, hdest, hstatus, htag⟩ := State.modTile_wack hg rfl
    refine ⟨_, hstep, fun a => ?_, by simp [htile], by simp [htile], hother, hhbm, hregs, w, hflits, htyp, hdest, hstatus, htag⟩
    rw [htile]
    exact spGet_memWrite ..

end Sys2Proof.Machine
end

section
/-! Flits across the outputs of routers and quadrants (R32, R106, R320, R324, R325), and the other flits at a tile (R97, R176, R318, R352, R492). -/

namespace Sys2Proof.Machine

/-! ### Crossing an output -/

/-- A flit with a place behind an output stands at a router or at a quadrant. -/
theorem placeBehind_cases {f : Flit} {port : Nat} {l : Loc} (h : placeBehind f port = some l) :
    (∃ g p, f.loc = .router g p ∧ routerNext g port = some l) ∨ (∃ q p, f.loc = .quadrant q p ∧ quadrantNext q port = some l) := by
  unfold placeBehind at h
  cases hloc : f.loc with
  | router g p => exact .inl ⟨g, p, rfl, by simpa only [hloc] using h⟩
  | quadrant q p => exact .inr ⟨q, p, rfl, by simpa only [hloc] using h⟩
  | target => simp [hloc] at h

/-- A flit behind another of its kind stays. -/
theorem exec_flitForward_behind {k : Nat} {f : Flit} {s : State} (hf : s.flits[k]? = some f) (hb : s.behindAnother k f = true)
    (port : Nat) (half : Bool) (waited : Nat) (ecc : Secded) : exec (.flitForward k port half waited ecc) s = .next s := by
  show execFlitForward k port half waited ecc s = _
  simp only [execFlitForward, hf, hb, if_true]
  split <;> rfl

section
variable {k port waited : Nat} {half : Bool} {ecc : Secded} {f : Flit} {l : Loc} {s : State}

/-- A scheduled flit crosses in a slot whose entry takes it. -/
theorem exec_flitForward_slot (hf : s.flits[k]? = some f) (hl : placeBehind f port = some l) (hb : s.behindAnother k f = false)
    (hs : f.sched = true) (he : entryTakes (s.slotEntry f.loc port (2 * (s.tick.toNat % 512) + b2n half)) f = true) :
    exec (.flitForward k port half waited ecc) s = .next (s.passFlit k port f l id ecc) := by
  show execFlitForward k port half waited ecc s = _
  obtain ⟨g, p, hloc, hn⟩ | ⟨q, p, hloc, hn⟩ := placeBehind_cases hl <;> rw [hloc] at he <;>
    simp only [execFlitForward, hf, hloc, hn, hb, hs, he, if_true, Bool.false_eq_true, if_false]

/-- A scheduled flit beyond its own lane, which no slot of its output takes, goes on as a dynamic one. -/
theorem exec_flitForward_late (hf : s.flits[k]? = some f) (hl : placeBehind f port = some l) (hb : s.behindAnother k f = false)
    (hs : f.sched = true) (hnone : ∀ slot < 1024, entryTakes (s.slotEntry f.loc port slot) f = false) (hport : port = s.routeOf f)
    (hlane : ∀ g p, f.loc = .router g p → 2 ≤ p)
    (hmay : s.dynamicMay { f with sched := false } port (2 * (s.tick.toNat % 512) + b2n half) = true) :
    exec (.flitForward k port half waited ecc) s = .next (s.passFlit k port { f with sched := false } l
      (fun u => State.countLate f.loc { u with flits := u.flits.set k { f with sched := false } }) ecc) := by
  show execFlitForward k port half waited ecc s = _
  have hhalf : b2n half ≤ 1 := by cases half <;> decide
  have hslot : entryTakes (s.slotEntry f.loc port (2 * (s.tick.toNat % 512) + b2n half)) f = false := hnone _ (by omega)
  have houtput : s.outputTakes f.loc port f = false := by simpa [State.outputTakes] using hnone
  have hroute : (port == s.routeOf f) = true := by simpa using hport
  obtain ⟨g, p, hloc, hn⟩ | ⟨q, p, hloc, hn⟩ := placeBehind_cases hl
  · have hp : ¬p < 2 := Nat.not_lt.mpr (hlane g p hloc)
    simp only [hloc] at hslot houtput hmay
    simp [execFlitForward, hf, hloc, hn, hb, hs, hp, hslot, houtput, hroute, hmay]
  · simp only [hloc] at hslot houtput hmay
    simp [execFlitForward, hf, hloc, hn, hb, hs, hslot, houtput, hroute, hmay]

/-- A dynamic flit crosses its routed output where that may take it. -/
theorem exec_flitForward_dynamic (hf : s.flits[k]? = some f) (hl : placeBehind f port = some l) (hb : s.behindAnother k f = false)
    (hs : f.sched = false) (hport : port = s.routeOf f) (hmay : s.dynamicMay f port (2 * (s.tick.toNat % 512) + b2n half) = true) :
    exec (.flitForward k port half waited ecc) s = .next (s.passFlit k port f l (State.countWait f.loc port waited) ecc) := by
  show execFlitForward k port half waited ecc s = _
  obtain ⟨g, p, hloc, hn⟩ | ⟨q, p, hloc, hn⟩ := placeBehind_cases hl <;>
    simp only [execFlitForward, hf, hloc, hn, hb, hs, hmay, ← hport, true_and, if_true, Bool.false_eq_true, if_false]

/-- A dynamic flit takes no output but its routed one. -/
theorem exec_flitForward_off_route (hf : s.flits[k]? = some f) (hl : placeBehind f port = some l) (hb : s.behindAnother k f = false)
    (hs : f.sched = false) (hport : port ≠ s.routeOf f) : exec (.flitForward k port half waited ecc) s = .next s := by
  show execFlitForward k port half waited ecc s = _
  obtain ⟨g, p, hloc, hn⟩ | ⟨q, p, hloc, hn⟩ := placeBehind_cases hl <;>
    simp only [execFlitForward, hf, hloc, hn, hb, hs, hport, false_and, Bool.false_eq_true, if_false]

end

/-- A clean flit that crosses an output beyond its source's lane stands at the next place, and the channel that sent it is left alone. -/
theorem State.crossOutput_clean {f : Flit} (hlane : ∀ g p, f.loc = .router g p → 2 ≤ p) (k port : Nat) (l : Loc) (s : State) :
    (s.crossOutput k port f l .clean).flits = s.flits.set k { f with loc := l } ∧ (s.crossOutput k port f l .clean).tiles = s.tiles ∧
      (s.crossOutput k port f l .clean).hbm = s.hbm ∧ (s.crossOutput k port f l .clean).regs = s.regs := by
  cases hloc : f.loc with
  | router g p =>
    have hp : ¬p < 2 := Nat.not_lt.mpr (hlane g p hloc)
    simp [State.crossOutput, hloc, hp]
  | quadrant q p => simp [State.crossOutput, hloc]
  | target => simp [State.crossOutput, hloc]

/-- An uncorrectable header at a router is dropped, counted and a fault of the die's fabric. -/
theorem State.crossOutput_uncorrectable_router {f : Flit} {g p : Nat} (hloc : f.loc = .router g p) (k port : Nat) (l : Loc) (s : State) :
    s.crossOutput k port f l .uncorrectable =
      ((s.dropFlit k).bump (Reg.TILE_JS_ERR_UNCORR g) 1).fabricFault 0 (tileDie g) (0x40 + g) port := by
  simp only [State.crossOutput, hloc]

/-- An uncorrectable header at a quadrant is dropped, counted and a fault of the base fabric. -/
theorem State.crossOutput_uncorrectable_quadrant {f : Flit} {q p : Nat} (hloc : f.loc = .quadrant q p) (k port : Nat) (l : Loc) (s : State) :
    s.crossOutput k port f l .uncorrectable = ((s.dropFlit k).bump Reg.MEM_BSW_STAT_UNCORR 1).fabricFault 0 4 0x18 port := by
  simp only [State.crossOutput, hloc]

/-- Both sides of an output decide whether a flit is carried, lost or waits (`State.through`). -/
theorem flitsCrossOutputs : Part.FlitsCrossOutputs := by
  intro k port waited half ecc f l s hf hl
  refine ⟨fun hb => ⟨exec_flitForward_slot hf hl hb, exec_flitForward_dynamic hf hl hb, exec_flitForward_off_route hf hl hb,
      exec_flitForward_late hf hl hb⟩, fun hb => exec_flitForward_behind hf hb port half waited ecc,
    fun count => ⟨fun h0 h1 => ?_, fun h => ?_, fun h0 h1 h => ?_⟩,
    fun hlane => State.crossOutput_clean hlane k port l s, fun g p hloc => State.crossOutput_uncorrectable_router hloc k port l s,
    fun q p hloc => State.crossOutput_uncorrectable_quadrant hloc k port l s⟩
  · rw [State.passFlit, State.through_awake (by simp [h0, h1])]
  · rw [State.passFlit, State.through_off (by simpa using h)]
  · rw [State.passFlit, State.through_asleep (by simp [h0, h1]) (by simpa using h)]

/-! ### READ at a tile -/

theorem exec_jsRead_stale {k : Nat} {f : Flit} {s : State} (ha : s.arrived k .read = some f) (hs : s.serves f.dest f.epoch = false)
    (ecc : Secded) : exec (.jsRead k ecc) s = .next ((s.dropFlit k).bump Reg.MC_STALE_FLITS 1) := by
  show execJsRead k ecc s = _
  simp [execJsRead, ha, hs, State.stale]

theorem exec_jsRead_served {k : Nat} {f : Flit} {s : State} (ha : s.arrived k .read = some f) (hs : s.serves f.dest f.epoch = true)
    (ecc : Secded) : exec (.jsRead k ecc) s = .next (s.atTarget k f (State.takeRead f ecc)) := by
  show execJsRead k ecc s = _
  simp [execJsRead, ha, hs]

/-- A clean READ at a tile is answered with the bytes it names. -/
theorem State.takeRead_tile {f : Flit} {g : Nat} (hd : f.dest = 0x40 + g) (hg : g < 64) (s : State) :
    s.takeRead f .clean = ({ s with free := s.free + 256 } : State).rdata f
      ((s.tile g).looseRead s.free (s.get (Reg.TILE_MX_CFG_ACC g)) f.addr f.len) false := by
  have hhc : ¬f.dest < 0x10 := by omega
  have hlink : ¬0x80 ≤ f.dest := by omega
  have hi : f.dest - 0x40 = g := by omega
  simp only [State.takeRead, if_neg hhc, if_neg hlink, hi]
  rfl

/-! ### RDATA and WACK at a tile -/

/-- RDATA over a link with another epoch than the tile's is dropped and counted. -/
theorem exec_jsRdata_stale {k : Nat} {f : Flit} {s : State} (ha : s.arrived k .rdata = some f) (hd : f.dest < 0x80) (hsrc : 0x80 ≤ f.src)
    (he : s.ownEpoch f.dest ≠ f.epoch) : exec (.jsRdata k) s = .next ((s.dropFlit k).bump Reg.MC_STALE_FLITS 1) := by
  show execJsRdata k s = _
  simp only [execJsRdata, ha, hsrc, hd, he, ne_eq, not_false_eq_true, and_self, if_true, State.stale]

section
variable {k g : Nat} {f : Flit} {s : State} (hg : g < 64) (ht : s.twinOf g = none) (hd : f.dest = 0x40 + g)
include hg ht hd

/-- RDATA with the tile's epoch, or from within the module, reaches the tile. -/
theorem exec_jsRdata_tile (ha : s.arrived k .rdata = some f) (he : f.src < 0x80 ∨ s.ownEpoch f.dest = f.epoch) :
    exec (.jsRdata k) s = .next ((s.dropFlit k).takeRdata f g) := by
  show execJsRdata k s = _
  have hfresh : ¬(0x80 ≤ f.src ∧ f.dest < 0x80 ∧ s.ownEpoch f.dest ≠ f.epoch) := by
    rintro ⟨hsrc, -, hne⟩
    exact he.elim (fun h => absurd hsrc (by omega)) hne
  have hlink : ¬0x80 ≤ f.dest := by omega
  have hring : ¬f.dest = 0x01 := by omega
  have hi : f.dest - 0x40 = g := by omega
  simp only [execJsRdata, ha, if_neg hfresh, if_neg hlink, if_neg hring, hi, State.hearers_of_no_twin ((State.twinOf_dropFlit k g s).trans ht),
    List.foldl_cons, List.foldl_nil]

/-- A WACK reaches the tile. -/
theorem exec_jsWack_tile (ha : s.arrived k .wack = some f) : exec (.jsWack k) s = .next ((s.dropFlit k).takeWack f g) := by
  show execJsWack k s = _
  have hlink : ¬0x80 ≤ f.dest := by omega
  have hring : ¬f.dest = 0x01 := by omega
  have hi : f.dest - 0x40 = g := by omega
  simp only [execJsWack, ha, if_neg hlink, if_neg hring, hi, State.hearers_of_no_twin ((State.twinOf_dropFlit k g s).trans ht),
    List.foldl_cons, List.foldl_nil]

end

/-- RDATA that nobody awaits is absorbed. -/
theorem State.takeRdata_unawaited {f : Flit} {g : Nat} {s : State} (h : s.awaits g f true = false) : s.takeRdata f g = s.absorb g f := by
  simp [State.takeRdata, h]

/-- Awaited bytes for the tile's own scratchpad are written there, and the channel no longer waits for them. -/
theorem State.takeRdata_scratchpad {f : Flit} {g a : Nat} {d : List Byte} {rest : List (Nat × List Byte)} {s : State}
    (h : s.awaits g f true = true) (hdescs : ((s.tile g).chan f.ch).descs = (a, d) :: rest) (hpoison : f.poison = false)
    (hdata : f.data ≠ []) (hspace : dDstSpace d = 0) :
    ∃ n, s.takeRdata f g = ((s.modTile g (fun t => t.modChan f.ch (fun c => { c with reads := c.reads.erase f.src }))).modTile g
      (fun t => t.spWrite f.reply (convBytes (dConv d) (overlay ((s.tile g).chan f.ch).snap f.addr f.data)))).set (Reg.TILE_DMA_BYTES_BYTES g) n := by
  have hsome : f.data.isEmpty = false := by simpa using hdata
  simp only [State.takeRdata, h, hdescs, hpoison, hsome, hspace, Bool.not_true, Bool.false_eq_true, false_and, if_false, if_true]
  exact ⟨_, rfl⟩

/-- A WACK that nobody awaits is absorbed. -/
theorem State.takeWack_unawaited {f : Flit} {g : Nat} {s : State} (h : s.awaits g f false = false) : s.takeWack f g = s.absorb g f := by
  simp [State.takeWack, h]

/-- An awaited WACK of a write that was done ends the wait for it and counts its bytes. -/
theorem State.takeWack_done {f : Flit} {g : Nat} {s : State} (h : s.awaits g f false = true) (hst : f.status = stOK) :
    s.takeWack f g = (s.modTile g (fun t => t.modChan f.ch (fun c => { c with writes := c.writes.erase f.src }))).set
      (Reg.TILE_DMA_BYTES_BYTES g) (s.get (Reg.TILE_DMA_BYTES_BYTES g) + f.len) := by
  simp [State.takeWack, h, hst]

/-! ### ISWRITE at a tile -/

theorem exec_jsIswrite_stale {k : Nat} {f : Flit} {s : State} (ha : s.arrived k .iswrite = some f) (hs : s.serves f.dest f.epoch = false) :
    exec (.jsIswrite k) s = .next ((s.dropFlit k).bump Reg.MC_STALE_FLITS 1) := by
  show execJsIswrite k s = _
  simp [execJsIswrite, ha, hs, State.stale]

/-- An ISWRITE at a tile without a shadow, whose memory is up, writes a bundle and is acknowledged. -/
theorem exec_jsIswrite_tile {k g : Nat} {f : Flit} {s : State} (hg : g < 64) (ht : s.twinOf g = none) (hd : f.dest = 0x40 + g)
    (ha : s.arrived k .iswrite = some f) (hs : s.serves f.dest f.epoch = true) (hm : s.memoryUp g = true) :
    exec (.jsIswrite k) s = .next (((s.dropFlit k).modTile g (Tile.isWrite f.addr f.data)).wack f stOK) := by
  show execJsIswrite k s = _
  have hi : f.dest - 0x40 = g := by omega
  simp only [execJsIswrite, ha, hs, Bool.not_true, Bool.false_eq_true, if_false, State.atTarget_tile_up hd hg hm, hi,
    State.hearers_of_no_twin ((State.twinOf_dropFlit k g s).trans ht), List.foldl_cons, List.foldl_nil]

/-- Each flit at a tile without a shadow does what the lemma of its type says. -/
theorem flitsServedAtTargets : Part.FlitsServedAtTargets := by
  intro k g f s hg ht hd
  refine ⟨fun ha => ⟨fun hs hm => ?_, fun hs hm => ?_, fun hs => exec_jsRead_stale ha hs .clean⟩,
    fun ha => ⟨fun hsrc he => exec_jsRdata_stale ha (by omega) hsrc he, fun he => ⟨fun hw => ?_,
      fun a d rest hw hdescs hpoison hdata hspace hc => ?_⟩⟩,
    fun ha => ⟨fun hw => ?_, fun hw hst hc => ?_⟩,
    fun ha => ⟨fun hs hm => ?_, fun hs => exec_jsIswrite_stale ha hs⟩⟩
  case refine_1 =>
    have hstep := exec_jsRead_served ha hs .clean
    rw [State.atTarget_tile_up hd hg hm, State.takeRead_tile hd hg] at hstep
    obtain ⟨w, hw⟩ := State.rdata_flits f ((s.tile g).looseRead s.free (s.get (Reg.TILE_MX_CFG_ACC g)) f.addr f.len) false
      ({ s.dropFlit k with free := s.free + 256 } : State)
    obtain ⟨hflits, htyp, hdest, hdata, hpoison, htag⟩ := hw
    exact ⟨_, hstep, rfl, rfl, rfl, w, hflits, htyp, hdest, hdata, hpoison, htag⟩
  case refine_2 => rw [exec_jsRead_served ha hs, State.atTarget_tile_down hd hg hm]
  case refine_3 => rw [exec_jsRdata_tile hg ht hd ha he, State.takeRdata_unawaited (s := s.dropFlit k) hw]
  case refine_4 =>
    obtain ⟨n, hn⟩ := State.takeRdata_scratchpad (s := s.dropFlit k) hw hdescs hpoison hdata hspace
    refine ⟨_, (exec_jsRdata_tile hg ht hd ha he).trans (congrArg _ hn), ?_, ?_, fun h hne => ?_, rfl, rfl, keepsRegs_set _ _ _⟩
    · simp [hg]
    · simp [hg, hc]
    · simp [State.tile_modTile_ne hne.symm]
  case refine_5 => rw [exec_jsWack_tile hg ht hd ha, State.takeWack_unawaited (s := s.dropFlit k) hw]
  case refine_6 =>
    refine ⟨_, (exec_jsWack_tile hg ht hd ha).trans (congrArg _ (State.takeWack_done (s := s.dropFlit k) hw hst)), ?_, ?_, rfl, rfl,
      State.get_set_self _ _ _, keepsRegs_set _ _ _⟩
    · simp [hg, hc]
    · simp [hg]
  case refine_7 =>
    obtain ⟨htile, hother, hhbm, hregs, w, hflits, htyp, hdest, hstatus, -⟩ := State.modTile_wack hg rfl
    refine ⟨_, exec_jsIswrite_tile hg ht hd ha hs hm, ?_, ?_, ?_, hother, hhbm, hregs, w, hflits, htyp, hdest, hstatus⟩ <;> rw [htile] <;> rfl

/-- Settles O52: from its two parts, the outputs and the targets. -/
theorem flitsMoveAndAreServed : Obligations.FlitsMoveAndAreServed :=
  ⟨flitsCrossOutputs, flitsServedAtTargets⟩

end Sys2Proof.Machine
end

section
/-! Breeze packets (R197, R329, R330, R411, R492, R493). -/

namespace Sys2Proof.Machine

/-! ### CMD packets -/

theorem exec_breezeCmd_stale {k g : Nat} {p : Bz} {s : State} (hat : s.bzAt k .cmd = some p) (hd : p.dest = 0x40 + g)
    (hs : s.serves p.dest p.epoch = false) :
    exec (.breezeCmd k) s = .next (((s.dropBz k).bump Reg.MC_STALE_PACKETS 1).launchStale g) := by
  show execBreezeCmd k s = _
  have hr : 0x40 ≤ p.dest := by omega
  have hi : p.dest - 0x40 = g := by omega
  simp only [execBreezeCmd, hat, hs, hr, hi, Bool.not_false, if_true]

theorem exec_breezeCmd_asleep {k : Nat} {p : Bz} {s : State} (hat : s.bzAt k .cmd = some p) (hs : s.serves p.dest p.epoch = true)
    (h0 : s.domState (unitDom p.dest) ≠ 0) : exec (.breezeCmd k) s = .next (s.wakeDomain (unitDom p.dest)) := by
  show execBreezeCmd k s = _
  simp [execBreezeCmd, hat, hs, h0]

section
variable {k : Nat} {p : Bz} {s : State} (hat : s.bzAt k .cmd = some p) (hs : s.serves p.dest p.epoch = true)
  (h0 : s.domState (unitDom p.dest) = 0) (hway : ∀ n ∈ p.doms, s.domState n = 0)
include hat hs h0 hway

/-- A LAUNCH reaches a tile that is awake. -/
theorem exec_breezeCmd_tile {g : Nat} (hd : p.dest = 0x40 + g) :
    exec (.breezeCmd k) s = .next (((Carried p.doms s).dropBz k).tileLaunch g) := by
  show execBreezeCmd k s = _
  have hr : 0x40 ≤ p.dest := by omega
  have hi : p.dest - 0x40 = g := by omega
  simp [execBreezeCmd, hat, hs, h0, hr, hi, State.takeBz, State.through_awake hway]

/-- A Rime command reaches an engine that is awake. -/
theorem exec_breezeCmd_rime {d : Nat} (hd : p.dest = 0x10 + d) (hlt : d < 4) :
    exec (.breezeCmd k) s = .next (((Carried p.doms s).dropBz k).rimeTake d p) := by
  show execBreezeCmd k s = _
  have hr : ¬0x40 ≤ p.dest := by omega
  have hi : p.dest - 0x10 = d := by omega
  simp [execBreezeCmd, hat, hs, h0, hr, hi, State.takeBz, State.through_awake hway]

end

/-- A command that its ring holds joins the engine's queue. -/
theorem State.rimeTake_queue {d : Nat} {p : Bz} {c : RingCmd} {s : State} (hd : d < 4) (hc : s.cmd p.func p.ring p.index = some c) :
    ((s.rimeTake d p).rime d).queue = (s.rime d).queue ++ [(p.func, p.ring, p.index)] ∧ (s.rimeTake d p).breeze = s.breeze := by
  have hsync : ∀ z : State, (z.syncRime d).rime d = z.rime d := fun _ => rfl
  simp only [State.rimeTake, hc, hsync, State.rime_modRime_self _ _ _ hd]
  exact ⟨trivial, rfl⟩

/-! ### The start of a tile's load (R197) -/

/-- The counts that mirror a tile's queues are no part of its run state. -/
theorem State.syncTile_run (g : Nat) (s : State) : (s.syncTile g).run g = s.run g := by
  have hset : ∀ {x : Fld}, (Reg.TILE_STATE_RUN g).key ≠ x.key → ∀ v (z : State), (z.set x v).run g = z.run g :=
    fun h v z => State.get_set_ne h v z
  unfold State.syncTile State.syncVx State.syncMx State.syncDma State.syncSb
  dsimp only
  repeat rw [hset (by simp only [Fld.key, Reg.TILE_STATE_RUN, Reg.TILE_STATE_SBCOUNT, Reg.TILE_DMA_STATUS_QC, Reg.TILE_MX_STATUS_QCOUNT,
    Reg.TILE_MX_STATUS_BUSY, Reg.TILE_MX_CFG_LOADED, Reg.TILE_VX_STATUS_QCOUNT, Reg.TILE_VX_STATUS_BUSY]; omega)]

theorem State.setRun_run {r : Nat} (hr : r < 8) (g : Nat) (s : State) : (s.setRun g r).run g = r :=
  (State.get_set_self _ _ _).trans (Nat.mod_eq_of_lt hr)

@[simp] theorem State.unset_tiles (fs : List Fld) (s : State) : (s.unset fs).tiles = s.tiles :=
  foldl_keep State.tiles fs _ s (fun _ _ _ => rfl)

theorem State.syncTile_tiles (g : Nat) (s : State) : (s.syncTile g).tiles = s.tiles := by
  unfold State.syncTile State.syncVx State.syncMx State.syncDma State.syncSb
  dsimp only
  repeat rw [State.set_tiles]

@[simp] theorem State.setRun_tiles (g r : Nat) (s : State) : (s.setRun g r).tiles = s.tiles := rfl

/-- The load of a tile changes that tile alone: its core registers are zero, its store buffer is empty, its memories are kept. -/
theorem State.tileLaunch_tiles {g a e n m : Nat} {s : State} (hl : (s.tile g).loading = some (a, e, n, m)) :
    ∃ F : Tile → Tile, (s.tileLaunch g).tiles = (s.modTile g F).tiles ∧ ∀ t, (F t).g = Vector.replicate 64 0 ∧
      (F t).a = Vector.replicate 16 0 ∧ (F t).p = 0 ∧ (F t).cycle = 0 ∧ (F t).sb = [] ∧ (F t).sp = t.sp ∧ (F t).istore = t.istore := by
  simp only [State.tileLaunch, hl, State.syncTile_tiles, State.setRun_tiles, State.set_tiles, State.unsetRange_tiles, State.unset_tiles]
  exact ⟨_, rfl, fun t => ⟨rfl, rfl, rfl, rfl, rfl, rfl, rfl⟩⟩

/-- A tile whose load begins is idle. -/
theorem State.tileLaunch_run {g a e n m : Nat} {s : State} (hl : (s.tile g).loading = some (a, e, n, m)) : (s.tileLaunch g).run g = runIdle := by
  simp only [State.tileLaunch, hl, State.syncTile_run, State.setRun_run (show runIdle < 8 by decide)]

/-! ### EPOCH, REPORT and CTRL packets -/

/-- What the requesters hold for a unit after a broadcast of its new epoch. -/
theorem State.heldEpoch_setReqEpoch {u e : Nat} {s t : State} (hu : u < 256) (he : e < 2 ^ 16)
    (ht : t.reqEpoch = s.reqEpoch.setIfInBounds u (BitVec.ofNat 16 e)) : t.heldEpoch u = e := by
  simp only [State.heldEpoch, ht, Vector.getElem?_setIfInBounds_self_of_lt hu, Option.getD_some, BitVec.toNat_ofNat, Nat.mod_eq_of_lt he]

/-- What an EPOCH packet does where it arrives: from phase 0 on its unit drains, and every requester holds the new epoch (R493, R495, R496). -/
def State.takeEpoch (p : Bz) (s : State) : State :=
  let u := bits p.beat1 0 8
  let z := if bits p.beat1 24 2 = 0 ∧ s.get (Reg.MC_EPOCH_QSTATE u) = 1 then s.set (Reg.MC_EPOCH_QSTATE u) 2 else s
  { z with reqEpoch := z.reqEpoch.setIfInBounds u (BitVec.ofNat 16 (bits p.beat1 8 16)) }

theorem exec_breezeEpoch {k : Nat} {p : Bz} {s : State} (hat : s.bzAt k .epoch = some p) :
    exec (.breezeEpoch k) s = .next (s.takeBz k p (State.takeEpoch p)) := by
  show execBreezeEpoch k s = _
  simp only [execBreezeEpoch, hat]
  rfl

/-- An EPOCH packet changes no packet under way and no unit's own epoch, and of the requesters' epochs its unit's alone. -/
theorem State.takeEpoch_frame (p : Bz) (s : State) : (s.takeEpoch p).breeze = s.breeze ∧ (s.takeEpoch p).unitEpoch = s.unitEpoch ∧
    (s.takeEpoch p).reqEpoch = s.reqEpoch.setIfInBounds (bits p.beat1 0 8) (BitVec.ofNat 16 (bits p.beat1 8 16)) := by
  unfold State.takeEpoch
  dsimp only
  split <;> exact ⟨rfl, rfl, rfl⟩

/-- At phase 0 a unit whose quiesce has begun drains. -/
theorem State.takeEpoch_drains {p : Bz} {s : State} (hphase : bits p.beat1 24 2 = 0) (h : s.get (Reg.MC_EPOCH_QSTATE (bits p.beat1 0 8)) = 1) :
    (s.takeEpoch p).get (Reg.MC_EPOCH_QSTATE (bits p.beat1 0 8)) = 2 := by
  simp only [State.takeEpoch, hphase, h, and_self, if_true]
  exact State.get_set_self _ _ _

theorem State.takeEpoch_keepsRegs (p : Bz) (s : State) : KeepsRegs [Reg.MC_EPOCH_QSTATE (bits p.beat1 0 8)] s (s.takeEpoch p) := by
  unfold State.takeEpoch
  dsimp only
  split
  · exact keepsRegs_set _ _ _
  · exact fun x _ => rfl

theorem exec_breezeReport {k : Nat} {p : Bz} {s : State} (hat : s.bzAt k .report = some p) :
    exec (.breezeReport k) s = .next (s.takeBz k p (State.takeReport p)) := by
  show execBreezeReport k s = _
  simp only [execBreezeReport, hat]

theorem exec_breezeCtrl {k : Nat} {p : Bz} {s : State} (hat : s.bzAt k .ctrl = some p) :
    exec (.breezeCtrl k) s = .next (s.takeBz k p id) := by
  show execBreezeCtrl k s = _
  simp only [execBreezeCtrl, hat]

/-- A REPORT of a tile without a LAUNCH is a later failure. -/
theorem State.takeReport_no_launch {p : Bz} {s : State} (h : s.launchOf (p.src - 0x40) = none) :
    s.takeReport p = s.laterFailure (p.src - 0x40) (bits p.beat1 0 8) p.status (bits p.beat1 8 4) (bits p.beat1 12 11) := by
  simp [State.takeReport, h]

/-! ### CRC errors (R330) -/

section
variable {k : Nat} {p : Bz} {s : State} (hp : s.breeze[k]? = some p)
include hp

/-- A packet's first CRC error: it is lost, to be sent again, and logged. -/
theorem exec_breezeCrcError_first (hlost : p.lost = false) (hretried : p.retried = false) (unit : Nat) :
    exec (.breezeCrcError k unit) s = .next ((State.correctedPacket p
      { s with breeze := s.breeze.set k { p with retried := true, lost := true, lostAt := s.tick } }).fabricCorrected 1 unit 0) := by
  show execBreezeCrcError k unit s = _
  simp only [execBreezeCrcError, hp, hlost, hretried, Bool.false_eq_true, if_false]

/-- A packet's second CRC error: the fabric fails. -/
theorem exec_breezeCrcError_second (hlost : p.lost = false) (hretried : p.retried = true) (unit : Nat) :
    exec (.breezeCrcError k unit) s = .next ((s.dropBz k).fabricFault 1 (stationDie unit) unit 0) := by
  show execBreezeCrcError k unit s = _
  simp only [execBreezeCrcError, hp, hlost, hretried, Bool.false_eq_true, if_false, if_true]

/-- A lost packet is sent again from 4 ns on. -/
theorem exec_breezeResend_due (hlost : p.lost = true) (hdue : 4 ≤ s.since p.lostAt) :
    exec (.breezeResend k) s = .next { s with breeze := s.breeze.set k { p with lost := false } } := by
  show execBreezeResend k s = _
  simp only [execBreezeResend, hp, hlost, ge_iff_le, hdue, and_self, if_true]

/-- A packet that is not lost, or not due, is not sent. -/
theorem exec_breezeResend_early (h : p.lost = false ∨ s.since p.lostAt < 4) : exec (.breezeResend k) s = .next s := by
  show execBreezeResend k s = _
  have hn : ¬(p.lost = true ∧ s.since p.lostAt ≥ 4) := by
    rintro ⟨hlost, hdue⟩
    exact h.elim (fun hf => Bool.false_ne_true (hf.symm.trans hlost)) (Nat.not_lt.mpr hdue)
  simp only [execBreezeResend, hp, if_neg hn]

end

/-- Settles O19: the way of a packet decides whether it is carried or waits (`State.through`); its kind says what it does there. -/
theorem breezePacketsAct : Obligations.BreezePacketsAct := by
  intro k unit p s
  refine ⟨fun hway => ⟨fun g hat hd _ hs h0 => exec_breezeCmd_tile hat hs h0 hway hd, fun d c hat hd hlt hs h0 hc => ?_,
      fun hat => ?_, fun hat => ?_, fun hat => ?_⟩,
    fun h0 h5 => ⟨fun hat => ?_, fun hat => ?_, fun hat => ?_⟩,
    fun g hat _ hs h0 => exec_breezeCmd_asleep hat hs h0, fun g hat hd hs => exec_breezeCmd_stale hat hd hs,
    fun g a e n m hl hg => ?_,
    State.takeReport_no_launch, fun hp hlost hretried => ⟨_, rfl, exec_breezeCrcError_first hp hlost hretried unit⟩,
    fun hp hlost hretried => exec_breezeCrcError_second hp hlost hretried unit, fun hp hlost hdue => exec_breezeResend_due hp hlost hdue,
    fun hp h => exec_breezeResend_early hp h⟩
  case refine_1 =>
    have hc' : ((Carried p.doms s).dropBz k).cmd p.func p.ring p.index = some c := (State.cmd_congr (Carried_rings ..) ..).trans hc
    obtain ⟨hqueue, hbreeze⟩ := State.rimeTake_queue hlt hc'
    have hrime : ((Carried p.doms s).dropBz k).rime d = s.rime d := by simp [State.rime, State.dropBz]
    exact ⟨_, exec_breezeCmd_rime hat hs h0 hway hd hlt, hqueue.trans (by rw [hrime]), hbreeze.trans (by simp [State.dropBz])⟩
  case refine_2 =>
    obtain ⟨hbreeze, hunit, hreq⟩ := State.takeEpoch_frame p ((Carried p.doms s).dropBz k)
    have hget : ∀ x, ((Carried p.doms s).dropBz k).get x = s.get x := State.get_congr (Carried_regs ..)
    refine ⟨((Carried p.doms s).dropBz k).takeEpoch p, ?_, hbreeze.trans (by simp [State.dropBz]),
      fun hu => State.heldEpoch_setReqEpoch hu (Nat.mod_lt _ (by decide)) hreq, hunit.trans (by simp [State.dropBz]),
      fun hphase h1 => State.takeEpoch_drains hphase ((hget _).trans h1), fun x hx => (State.takeEpoch_keepsRegs p _ x hx).trans (hget x)⟩
    rw [exec_breezeEpoch hat, State.takeBz, State.through_awake hway]
  case refine_3 => rw [exec_breezeReport hat, State.takeBz, State.through_awake hway]
  case refine_4 => rw [exec_breezeCtrl hat, State.takeBz, State.through_awake hway, id]
  case refine_5 => rw [exec_breezeEpoch hat, State.takeBz, State.through_asleep h5 h0]
  case refine_6 => rw [exec_breezeReport hat, State.takeBz, State.through_asleep h5 h0]
  case refine_7 => rw [exec_breezeCtrl hat, State.takeBz, State.through_asleep h5 h0]
  case refine_8 =>
    obtain ⟨F, htiles, hF⟩ := State.tileLaunch_tiles hl
    have htile : (s.tileLaunch g).tile g = F (s.tile g) := (State.tile_congr htiles g).trans (State.tile_modTile_self g F s hg)
    obtain ⟨hgr, har, hpr, hcycle, hsb, hsp, histore⟩ := hF (s.tile g)
    dsimp only
    rw [htile]
    exact ⟨hgr, har, hpr, hcycle, hsb, hsp, histore, State.tileLaunch_run hl⟩

end Sys2Proof.Machine
end

section
/-! SUPPORT. The core registers of a tile (R160), and the operations that leave those of every tile as they are. -/

namespace Sys2Proof.Machine

/-- The general, address and predicate registers of a tile. -/
def Tile.core (t : Tile) : Vector Word 64 × Vector (BitVec 48) 16 × BitVec 16 := (t.g, t.a, t.p)

/-- The core registers of every tile. -/
def State.cores (s : State) (g : Nat) : Vector Word 64 × Vector (BitVec 48) 16 × BitVec 16 := (s.tile g).core

/-! ### Operations on one tile -/

/-- A fold keeps the core registers that each of its steps keeps. -/
theorem Tile.foldl_core {α : Type} (l : List α) {f : Tile → α → Tile} (h : ∀ t a, (f t a).core = t.core) (t : Tile) :
    (l.foldl f t).core = t.core := by
  induction l generalizing t with
  | nil => rfl
  | cons a l ih => rw [List.foldl_cons, ih, h]

@[simp] theorem Tile.spWrite_core (a : Nat) (bs : List Byte) (t : Tile) : (t.spWrite a bs).core = t.core := rfl
@[simp] theorem Tile.modChan_core (c : Nat) (h : Chan → Chan) (t : Tile) : (t.modChan c h).core = t.core := rfl
@[simp] theorem Tile.modPanel_core (p : Nat) (h : Panel → Panel) (t : Tile) : (t.modPanel p h).core = t.core := rfl
@[simp] theorem Tile.drainEntry_core (t : Tile) (e : SbEntry) : (t.drainEntry e).core = t.core := rfl
@[simp] theorem Tile.unload_core (t : Tile) : t.unload.core = t.core := rfl

/-- What a stop resets beside the engines is no core register. -/
theorem Tile.idled_core (t : Tile) :
    ({ t with wait := {}, halting := false, debugPending := false, stepping := false, loading := none } : Tile).core = t.core := rfl

@[simp] theorem Tile.drainAll_core (t : Tile) : t.drainAll.core = t.core :=
  Tile.foldl_core t.sb Tile.drainEntry_core t

@[simp] theorem Tile.sbStore_core (a : Nat) (bs : List Byte) (t : Tile) : (t.sbStore a bs).core = t.core := by
  unfold Tile.sbStore
  dsimp only
  split
  · split <;> rfl
  · rfl

@[simp] theorem Tile.drainFor_core (a n : Nat) (t : Tile) : (t.drainFor a n).core = t.core := by
  unfold Tile.drainFor
  split
  · split
    · rfl
    · exact Tile.foldl_core _ Tile.drainEntry_core t
  · rfl

@[simp] theorem Tile.localRow_core (d : List Byte) (k : Nat) (r : DmaRow) (t : Tile) : (t.localRow d k r).core = t.core := by
  refine Tile.foldl_core _ (fun _ _ => ?_) t
  rfl

@[simp] theorem Tile.localRun_core (d : List Byte) (n r k : Nat) (t : Tile) : (t.localRun d n r k).core = t.core := by
  induction n generalizing r k t with
  | zero => rfl
  | succ n ih =>
    unfold Tile.localRun
    dsimp only
    split
    · rfl
    · rw [ih, Tile.localRow_core]

@[simp] theorem Tile.stopChan_core (n : Nat) (t : Tile) (c : Nat) : (t.stopChan n c).core = t.core := by
  unfold Tile.stopChan
  rw [Tile.modChan_core]
  split
  · exact Tile.localRun_core ..
  · rfl

@[simp] theorem Tile.freeEntries_core (n : Nat) (es : List (Nat × Nat)) (t : Tile) : (t.freeEntries n es).core = t.core := by
  refine Tile.foldl_core _ (fun _ _ => ?_) t
  rfl

@[simp] theorem Tile.freeRows_core (n : Nat) (rows : List (Nat × Nat)) (t : Tile) : (t.freeRows n rows).core = t.core := by
  refine Tile.foldl_core _ (fun _ _ => ?_) t
  rfl

@[simp] theorem Tile.abandonEngines_core (n : Nat) (t : Tile) : (t.abandonEngines n).core = t.core :=
  (Tile.freeRows_core ..).trans (Tile.freeEntries_core ..)

/-! ### Operations on the state -/

theorem State.cores_congr {s t : State} (h : t.tiles = s.tiles) : t.cores = s.cores :=
  funext fun g => congrArg Tile.core (State.tile_congr h g)

/-- A change of one tile that keeps its core registers keeps those of all tiles. -/
theorem State.modTile_cores (g : Nat) {F : Tile → Tile} (s : State) (hF : (F (s.tile g)).core = (s.tile g).core) :
    (s.modTile g F).cores = s.cores := by
  funext h
  by_cases hgh : g = h
  · subst hgh
    by_cases hg : g < 64
    · simp only [State.cores, State.tile_modTile_self _ _ _ hg, hF]
    · simp [State.cores, State.tile, State.modTile, hg]
  · simp only [State.cores, State.tile_modTile_ne hgh]

@[simp] theorem State.set_cores (f : Fld) (v : Nat) (s : State) : (s.set f v).cores = s.cores := rfl
@[simp] theorem State.bump_cores (f : Fld) (n : Nat) (s : State) : (s.bump f n).cores = s.cores := rfl
@[simp] theorem State.wrapAdd_cores (f : Fld) (n : Nat) (s : State) : (s.wrapAdd f n).cores = s.cores := rfl
@[simp] theorem State.setRun_cores (g r : Nat) (s : State) : (s.setRun g r).cores = s.cores := rfl
@[simp] theorem State.sendIso_cores (p : Iso) (s : State) : (s.sendIso p).cores = s.cores := rfl
@[simp] theorem State.syncSb_cores (g : Nat) (s : State) : (s.syncSb g).cores = s.cores := rfl
@[simp] theorem State.syncDma_cores (g : Nat) (s : State) : (s.syncDma g).cores = s.cores := rfl
@[simp] theorem State.syncMx_cores (g : Nat) (s : State) : (s.syncMx g).cores = s.cores := rfl
@[simp] theorem State.syncVx_cores (g : Nat) (s : State) : (s.syncVx g).cores = s.cores := rfl
@[simp] theorem State.recordFault_cores (g code status slot addr : Nat) (s : State) : (s.recordFault g code status slot addr).cores = s.cores := rfl

@[simp] theorem State.syncTile_cores (g : Nat) (s : State) : (s.syncTile g).cores = s.cores := State.cores_congr (State.syncTile_tiles g s)

@[simp] theorem State.releaseClaim_cores (g : Nat) (s : State) : (s.releaseClaim g).cores = s.cores :=
  State.cores_congr (State.unset_tiles _ s)

@[simp] theorem State.failCmd_cores (f r idx : Nat) (e : Failure) (s : State) : (s.failCmd f r idx e).cores = s.cores :=
  State.cores_congr (State.modRing_tiles f r _ s)

@[simp] theorem State.dropWaiters_cores (gone : Waiter → Bool) (s : State) : (s.dropWaiters gone).cores = s.cores :=
  foldl_keep State.cores _ _ _ (fun _ _ _ => State.cores_congr (State.touchQ_tiles ..))

@[simp] theorem State.departToken_cores (g : Nat) (p : Iso) (s : State) : (s.departToken g p).cores = s.cores := by
  unfold State.departToken
  split
  · rfl
  · split
    · split <;> rfl
    · rfl

@[simp] theorem State.headDrained_cores (g : Nat) (s : State) : (s.headDrained g).cores = s.cores :=
  (foldl_keep State.cores _ _ _ (fun z p _ => State.departToken_cores g p z)).trans (State.modTile_cores g s rfl)

@[simp] theorem State.syncDrizzle_cores (g : Nat) (s : State) : (s.syncDrizzle g).cores = s.cores := by
  unfold State.syncDrizzle
  dsimp only
  split <;> split
  · exact State.modTile_cores g s rfl
  · rfl
  · rfl
  · exact State.modTile_cores g (s.bump _ _) rfl

@[simp] theorem State.settleRate_cores (g : Nat) (s : State) : (s.settleRate g).cores = s.cores := by
  unfold State.settleRate State.rateDown
  have hfall : (s.fall g (fullQuantum g)).cores = s.cores := State.cores_congr (congrArg State.tiles (State.fall_still g (fullQuantum g) s) :)
  split
  · rfl
  · split
    · rfl
    · exact hfall

/-! ### Stopping a tile (R187) -/

/-- Stopping the engines of a tile leaves the core registers alone. -/
@[simp] theorem State.quenchTile_cores (g : Nat) (s : State) : (s.quenchTile g).cores = s.cores := by
  unfold State.quenchTile
  extract_lets n moved s1 s2
  have h1 : s1.cores = s.cores := by
    refine (State.modTile_cores g (s.set _ _) ?_).trans (State.set_cores ..)
    rw [Tile.idled_core, Tile.abandonEngines_core, Tile.foldl_core _ (Tile.stopChan_core _), Tile.drainAll_core]
  have h2 : s2.cores = s1.cores := (State.dropWaiters_cores ..).trans (State.cores_congr rfl)
  simp only [State.settleRate_cores, State.syncDrizzle_cores, State.syncTile_cores, State.releaseClaim_cores, State.set_cores,
    State.headDrained_cores, h2, h1]

@[simp] theorem State.cancelThen_cores (g : Nat) (a : AfterCancel) (s : State) : (s.cancelThen g a).cores = s.cores := by
  have hsend : (s.sendCancel g).cores = s.cores := by
    unfold State.sendCancel
    split <;> rfl
  unfold State.cancelThen
  split
  · refine (State.modTile_cores g _ rfl).trans ?_
    exact ite_self_keep hsend
  · rfl

@[simp] theorem State.stopOne_cores (code status g : Nat) (s : State) : (s.stopOne code status g).cores = s.cores := by
  unfold State.stopOne State.stopNow
  split
  · split
    · exact State.cancelThen_cores ..
    · rw [State.setRun_cores, State.quenchTile_cores, State.recordFault_cores]
  · rfl

end Sys2Proof.Machine
end

section
/-! Exceptions of a tile (R184, R185, R187): the core registers stand, and the fault record names the slot. -/

namespace Sys2Proof.Machine

/-! ### Core registers -/

/-- An exception changes no core register of any tile. -/
@[simp] theorem State.raiseExc_cores (g code status slot addr : Nat) (s : State) : (s.raiseExc g code status slot addr).cores = s.cores := by
  unfold State.raiseExc
  extract_lets report
  have hreport : ∀ z : State, (report z).cores = z.cores := fun _ => rfl
  split
  · exact State.cancelThen_cores ..
  split
  · exact hreport s
  rename_i ba s2 _ _
  have h2 : s2.cores = s.cores := by
    rw [hreport, State.setRun_cores, State.quenchTile_cores, State.recordFault_cores]
  split
  · exact h2
  · refine (foldl_keep State.cores _ _ _ fun z h _ => ?_).trans ((State.failCmd_cores ..).trans h2)
    split
    · rfl
    · exact State.stopOne_cores ..

/-! ### The fault record -/

/-- A field of TILE_FAULT_INFO of tile `g`. -/
def OfFaultInfo (g : Nat) (x : Fld) : Prop := x.off = 0x400008 + 0x10000 * g ∧ x.lo < 64

theorem ofFaultInfo_fields (g : Nat) : OfFaultInfo g (Reg.TILE_FAULT_INFO_CODE g) ∧ OfFaultInfo g (Reg.TILE_FAULT_INFO_SLOT g) ∧
    OfFaultInfo g (Reg.TILE_FAULT_INFO_BA g) ∧ OfFaultInfo g (Reg.TILE_FAULT_INFO_VALID g) := by
  simp [OfFaultInfo, Reg.TILE_FAULT_INFO_CODE, Reg.TILE_FAULT_INFO_SLOT, Reg.TILE_FAULT_INFO_BA, Reg.TILE_FAULT_INFO_VALID]

theorem State.get_unset {fs : List Fld} {x : Fld} (h : ∀ f ∈ fs, x.key ≠ f.key) (s : State) : (s.unset fs).get x = s.get x :=
  foldl_keep (fun s => s.get x) _ _ _ (fun z f hf => State.get_set_ne (h f hf) _ z)

theorem State.departToken_regs (g : Nat) (p : Iso) (s : State) : (s.departToken g p).regs = s.regs := by
  unfold State.departToken
  split
  · rfl
  · split
    · split <;> rfl
    · rfl

theorem State.headDrained_regs (g : Nat) (s : State) : (s.headDrained g).regs = s.regs :=
  foldl_keep State.regs _ _ _ (fun z p _ => State.departToken_regs g p z)

theorem State.touchQ_regs (pool : Bool) (tile queue port : Nat) (old : Queue) (s : State) :
    (s.touchQ pool tile queue port old).regs = s.regs := by
  unfold State.touchQ
  dsimp only
  split <;> rfl

theorem State.dropWaiters_regs (gone : Waiter → Bool) (s : State) : (s.dropWaiters gone).regs = s.regs :=
  foldl_keep State.regs _ _ _ (fun _ _ _ => State.touchQ_regs ..)

theorem State.settleRate_get (g : Nat) (s : State) (x : Fld) : (s.settleRate g).get x = s.get x := by
  unfold State.settleRate State.rateDown
  split
  · rfl
  · split
    · rfl
    · rw [State.get_modDom, State.get_fall]

theorem State.syncDrizzle_get {g : Nat} {x : Fld} (hx : OfFaultInfo g x) (s : State) : (s.syncDrizzle g).get x = s.get x := by
  have hkey : x.key ≠ (Reg.TILE_MX_WORK_DRIZZLE g).key := by
    obtain ⟨hoff, hlo⟩ := hx
    simp only [Fld.key, hoff, Reg.TILE_MX_WORK_DRIZZLE]
    omega
  unfold State.syncDrizzle
  dsimp only
  split <;> split
  · rfl
  · rfl
  · rfl
  · rw [State.get_modTile, State.bump, State.get_set_ne hkey]

theorem State.syncTile_get {g : Nat} {x : Fld} (hx : OfFaultInfo g x) (s : State) : (s.syncTile g).get x = s.get x := by
  obtain ⟨hoff, hlo⟩ := hx
  unfold State.syncTile State.syncVx State.syncMx State.syncDma State.syncSb
  dsimp only
  repeat rw [State.get_set_ne (by simp only [Fld.key, hoff, Reg.TILE_STATE_SBCOUNT, Reg.TILE_DMA_STATUS_QC, Reg.TILE_MX_STATUS_QCOUNT,
    Reg.TILE_MX_STATUS_BUSY, Reg.TILE_MX_CFG_LOADED, Reg.TILE_VX_STATUS_QCOUNT, Reg.TILE_VX_STATUS_BUSY]; omega)]

theorem State.releaseClaim_get {g : Nat} {x : Fld} (hx : OfFaultInfo g x) (s : State) : (s.releaseClaim g).get x = s.get x := by
  obtain ⟨hoff, hlo⟩ := hx
  refine State.get_unset (fun f hf => ?_) s
  simp only [List.mem_cons, List.not_mem_nil, or_false] at hf
  obtain rfl | rfl | rfl := hf <;>
    simp only [Fld.key, hoff, Reg.TILE_VX_STATUS_CLAIMED, Reg.TILE_VX_STATUS_CPANEL, Reg.TILE_VX_STATUS_CBANK] <;> omega

/-- Stopping the engines of a tile leaves its fault record. -/
theorem State.quenchTile_get {g : Nat} {x : Fld} (hx : OfFaultInfo g x) (s : State) : (s.quenchTile g).get x = s.get x := by
  have hkey : x.key ≠ (Reg.TILE_DMA_BYTES_BYTES g).key ∧ x.key ≠ (Reg.TILE_Q_WAIT_ACTIVE g).key ∧
      x.key ≠ (Reg.PWR_DOM_STATE_WAITLULL g).key := by
    obtain ⟨hoff, hlo⟩ := hx
    simp only [Fld.key, hoff, Reg.TILE_DMA_BYTES_BYTES, Reg.TILE_Q_WAIT_ACTIVE, Reg.PWR_DOM_STATE_WAITLULL]
    omega
  obtain ⟨hbytes, hactive, hlull⟩ := hkey
  unfold State.quenchTile
  extract_lets n moved s1 s2
  have h1 : s1.get x = s.get x := (State.get_modTile ..).trans (State.get_set_ne hbytes _ _)
  have h2 : s2.get x = s1.get x := (State.get_congr (State.dropWaiters_regs ..) x).trans (State.get_congr rfl x)
  rw [State.settleRate_get, State.syncDrizzle_get hx, State.syncTile_get hx, State.releaseClaim_get hx, State.get_set_ne hlull,
    State.get_set_ne hactive, State.get_congr (State.headDrained_regs ..), h2, h1]

/-- A synchronous exception of a tile that runs no LAUNCH: the registers are those of the record, the stopped engines and RUN Faulted. -/
theorem State.raiseExc_regs {g slot : Nat} {s : State} (hslot : slot ≠ 0xF) (hl : s.launchOf g = none) (code status addr : Nat) :
    (s.raiseExc g code status slot addr).regs = (((s.recordFault g code status slot addr).quenchTile g).setRun g runFaulted).regs := by
  unfold State.raiseExc
  rw [if_neg (fun h => hslot h.1), if_neg (fun h => hslot h.1)]
  simp only [hl]

/-- The fault record as an exception writes it (R185). -/
theorem State.recordFault_get (g code status slot addr : Nat) (s : State) :
    (s.recordFault g code status slot addr).get (Reg.TILE_FAULT_INFO_CODE g) = code % 256 ∧
    (s.recordFault g code status slot addr).get (Reg.TILE_FAULT_INFO_SLOT g) = slot % 16 ∧
    (s.recordFault g code status slot addr).get (Reg.TILE_FAULT_INFO_BA g) = s.get (Reg.TILE_STATE_BA g) % 2048 ∧
    (s.recordFault g code status slot addr).get (Reg.TILE_FAULT_INFO_VALID g) = 1 := by
  unfold State.recordFault
  refine ⟨?_, ?_, ?_, ?_⟩
  all_goals
    repeat rw [State.get_set_ne (by simp only [Fld.key, Reg.TILE_FAULT_INFO_CODE, Reg.TILE_FAULT_INFO_STATUS, Reg.TILE_FAULT_INFO_SLOT,
      Reg.TILE_FAULT_INFO_BA, Reg.TILE_FAULT_INFO_EPOCH, Reg.TILE_FAULT_INFO_VALID, Reg.TILE_FAULT_ADDR_ADDR]; omega)]
    exact State.get_set_self ..

/-- Settles O14: the core registers stand (`State.raiseExc_cores`); the record is written before the engines stop, and stopping them leaves it. -/
theorem faultingBundleHasNoEffect : Obligations.FaultingBundleHasNoEffect := by
  intro tile slot code status addr s hslot
  have hcore : ((s.raiseExc tile.val code status slot addr).tile tile.val).core = (s.tile tile.val).core :=
    congrFun (State.raiseExc_cores ..) tile.val
  simp only [Tile.core, Prod.mk.injEq] at hcore
  obtain ⟨hg, ha, hp⟩ := hcore
  refine ⟨hg, ha, hp, fun hl => ?_⟩
  have hregs : ∀ x, (s.raiseExc tile.val code status slot addr).get x =
      (((s.recordFault tile.val code status slot addr).quenchTile tile.val).setRun tile.val runFaulted).get x :=
    State.get_congr (State.raiseExc_regs (by omega) hl code status addr)
  have hget : ∀ {x : Fld}, OfFaultInfo tile.val x →
      (s.raiseExc tile.val code status slot addr).get x = (s.recordFault tile.val code status slot addr).get x := fun {x} hx => by
    have hrun : x.key ≠ (Reg.TILE_STATE_RUN tile.val).key := by
      obtain ⟨hoff, hlo⟩ := hx
      simp only [Fld.key, hoff, Reg.TILE_STATE_RUN]
      omega
    rw [hregs, State.setRun, State.get_set_ne hrun, State.quenchTile_get hx]
  obtain ⟨fcode, fslot, fba, fvalid⟩ := ofFaultInfo_fields tile.val
  obtain ⟨hcode, hslot', hba, hvalid⟩ := State.recordFault_get tile.val code status slot addr s
  refine ⟨(hregs _).trans (State.setRun_run (by decide) _ _), (hget fcode).trans hcode, (hget fslot).trans (hslot'.trans ?_),
    (hget fba).trans hba, (hget fvalid).trans hvalid⟩
  exact Nat.mod_eq_of_lt (by omega)

end Sys2Proof.Machine
end

section
/-! The effects of a bundle (R162, R163, R175): its core register results come from the registers before it. -/

namespace Sys2Proof.Machine

/-! ### Effects that write no core register -/

theorem State.issueL_cores (g w : Nat) (s : State) : (s.issueL g w).cores = s.cores := by
  have hbuffer : ∀ t : Tile, (if lIsStore (wOp w) then t.sbStore (t.lAddr w) (t.storeBytes w) else t.drainFor (t.lAddr w) (lSize (wOp w))).core =
      t.core := fun t => by
    split
    · exact Tile.sbStore_core ..
    · exact Tile.drainFor_core ..
  have hsettle : ∀ (n : Nat) (z : State), (z.settleHead g n).cores = z.cores := fun n z => ite_self_keep (State.headDrained_cores g z)
  unfold State.issueL
  dsimp only
  split
  · rfl
  · rw [State.syncSb_cores, hsettle, State.modTile_cores g s (hbuffer _)]

theorem State.issueD_cores (g w : Nat) (s : State) : (s.issueD g w).cores = s.cores := by
  unfold State.issueD
  refine ite_self_keep ((State.syncDma_cores ..).trans ?_)
  exact State.modTile_cores g s rfl

theorem State.mxIssue_cores (g w : Nat) (s : State) : (s.mxIssue g w).cores = s.cores := by
  unfold State.mxIssue
  dsimp only
  split
  · rw [State.syncMx_cores, State.modTile_cores _ _ (Tile.unload_core _)]
    rfl
  split
  · rw [State.syncMx_cores, State.modTile_cores _ _ (Tile.modPanel_core ..)]
  split
  · rw [State.syncMx_cores, State.modTile_cores _ _ (Tile.foldl_core _ (fun _ _ => Tile.modPanel_core ..) _)]
  · rfl

theorem State.issueV_cores (g w : Nat) (s : State) : (s.issueV g w).cores = s.cores := by
  unfold State.issueV
  dsimp only
  split
  · rfl
  · rw [State.syncVx_cores]
    exact State.modTile_cores g s rfl

theorem State.issueQ_cores (g w : Nat) (s : State) : (s.issueQ g w).cores = s.cores := by
  have hlatch : (if qPool w && s.isSweepQ (s.tileTen g) (qQueue w) then s.set (Reg.TILE_Q_WAIT_SWEEPLATCH g) 0 else s).cores = s.cores :=
    ite_self_keep (State.set_cores ..)
  unfold State.issueQ
  dsimp only
  split
  · split
    · exact State.departToken_cores ..
    · exact State.modTile_cores g s rfl
  · split
    · rw [State.syncTile_cores, State.releaseClaim_cores, State.modTile_cores _ _ (Tile.unload_core _), hlatch]
    · exact hlatch
  · exact hlatch
  · split
    · have hpeek : (s.modTile g (fun t => { t with peeks := t.peeks ++ [(qQueue w, qG w)] })).cores = s.cores := State.modTile_cores g s rfl
      split
      · exact hpeek
      · exact hpeek
    · rfl
  · rfl

theorem State.issueB_cores (g : Nat) (on : Bool) (w : Nat) (target : Option Nat) (s : State) : (s.issueB g on w target).cores = s.cores := by
  unfold State.issueB
  extract_lets ba s1
  have h1 : s1.cores = s.cores := State.modTile_cores g s rfl
  split
  · rw [State.set_cores, h1]
  · rw [State.modTile_cores g _ rfl, State.set_cores, h1]

/-! ### Results -/

/-- What a result leaves in the core registers depends on those alone. -/
theorem RegWrite.apply_core_congr {t u : Tile} (h : t.core = u.core) (r : RegWrite) : (r.apply t).core = (r.apply u).core := by
  simp only [Tile.core, Prod.mk.injEq] at h
  obtain ⟨hg, ha, hp⟩ := h
  cases r with
  | g i v => simp only [RegWrite.apply, Tile.setG, Tile.core, hg, ha, hp]
  | a i v => simp only [RegWrite.apply, Tile.setA, Tile.core, hg, ha, hp]
  | p i v =>
    simp only [RegWrite.apply, Tile.setP]
    split <;> simp only [Tile.core, hg, ha, hp]

theorem RegWrite.foldl_apply_core_congr (l : List RegWrite) {t u : Tile} (h : t.core = u.core) :
    (l.foldl RegWrite.apply t).core = (l.foldl RegWrite.apply u).core := by
  induction l generalizing t u with
  | nil => exact h
  | cons r l ih => exact ih (RegWrite.apply_core_congr h r)

/-- After a bundle its tile is one whose core registers the results left, with the cycle count one further beside the stalls. -/
theorem State.bundleEffects_tile {g : Nat} (hg : g < 64) (dep mem other : Nat) (b : List Byte) (s : State) :
    let cyc := (s.tile g).cycle + BitVec.ofNat 64 (dep + mem + other)
    ∃ v : Tile, (s.bundleEffects g dep mem other b none).tile g = { v with cycle := cyc + 1, pastBp := false, wait := {} } ∧
      v.core = (((s.tile g).results s.free (s.get (Reg.TILE_MX_CFG_ACC g)) s.tick cyc g (s.get (Reg.TILE_STATE_BA g)) b).foldl
        RegWrite.apply (s.tile g)).core := by
  intro cyc
  unfold State.bundleEffects
  extract_lets t ba _ q fx s1 take s2 s3 s4
  refine ⟨s4.tile g, (State.tile_set ..).trans (State.tile_modTile_self g _ _ hg), ?_⟩
  have hfx : ∀ (i : Nat) {h : Nat → State → State}, (∀ w z, (h w z).cores = z.cores) → ∀ z, (fx i h z).cores = z.cores :=
    fun i h hh z => ite_self_keep (hh _ z)
  have h1 : s1.cores = s.cores := by
    rw [hfx 6 (State.issueQ_cores g), hfx 5 (State.issueV_cores g), hfx 4 (State.mxIssue_cores g), hfx 3 (State.issueD_cores g),
      hfx 2 (State.issueL_cores g)]
  have h4 : s4.cores = s2.cores := by
    rw [State.wrapAdd_cores, State.bump_cores, State.bump_cores, State.issueB_cores]
  calc (s4.tile g).core = (s2.tile g).core := congrFun h4 g
    _ = ((t.results s.free (s.get (Reg.TILE_MX_CFG_ACC g)) s.tick cyc g ba b).foldl RegWrite.apply (s1.tile g)).core := by
      rw [State.tile_modTile_self g _ _ hg, List.append_nil]
    _ = _ := RegWrite.foldl_apply_core_congr _ (congrFun h1 g)

/-- Settles O13: the effects of the slots write no core register (the lemmas above), so the results, which are read from the tile before the
bundle, are all that does. -/
theorem bundleReadsBeforeItWrites : Obligations.BundleReadsBeforeItWrites := by
  intro g dep mem other b s hg
  obtain ⟨v, hv, hcore⟩ := State.bundleEffects_tile hg dep mem other b s
  simp only [Tile.core, Prod.mk.injEq] at hcore
  obtain ⟨hgr, har, hpr⟩ := hcore
  dsimp only
  rw [hv]
  exact ⟨hgr, har, hpr, rfl⟩

end Sys2Proof.Machine
end

section
/-! The debug commands of a ring (R191, R192, R193, R415). -/

namespace Sys2Proof.Machine

/-! ### A dispatched command reaches its tile -/

section
variable {f r op : Nat} {idx : BitVec 32} {c : RingCmd} {s : State}

/-- A dispatched command of a present epoch acts. -/
theorem State.withCmd_dispatched (hd : Dispatched f r idx op c s) (k : RingCmd → State → State) :
    s.withCmd f r idx.toNat op k = k c s := by
  obtain ⟨hphase, hcmd, hop, hst, -⟩ := hd
  simp only [State.withCmd, hcmd, hop, hst, hphase, and_self, if_true]

theorem State.fresh_dispatched (hd : Dispatched f r idx op c s) (k : RingCmd → State → State) : s.fresh f r k c = k c s := by
  obtain ⟨-, -, -, -, hepoch⟩ := hd
  simp only [State.fresh, hepoch, ne_eq, not_true_eq_false, if_false]

variable (hu : s.tileUsable (s.dbgTile c) = true) (h0 : s.domState (s.dbgTile c) = 0)
include hu h0

theorem State.atTile_awake (k : RingCmd → State → State) : s.atTile f r k c = k c s := by
  simp only [State.atTile, hu, h0, Bool.not_true, Bool.false_eq_true, if_false, if_true]

/-- A DBGCTL row whose action the command names. -/
theorem State.dbgRow_dispatched {action : Nat} (hd : Dispatched f r idx 0x30 c s) (ha : leAt c.desc 9 1 = action) (pinnable : Bool)
    (act : Nat → State → State) : s.dbgRow f r idx.toNat action pinnable act = s.dbgCtl f r pinnable act c := by
  rw [State.dbgRow, State.withCmd_dispatched hd, if_neg (not_not_intro ha), State.fresh_dispatched hd, State.atTile_awake hu h0]

end

/-- An action completes with the word of TILE_STATE, but one that would stop a tile of a pinned tenancy. -/
theorem State.dbgCtl_acts {f : Nat} {pinnable : Bool} {s : State} (h : pinnable = true ∨ s.tnPinned f = false) (r : Nat)
    (act : Nat → State → State) (c : RingCmd) : s.dbgCtl f r pinnable act c =
      (act (s.dbgTile c) s).endCmd f r c stOK ((act (s.dbgTile c) s).tileStateWord (s.dbgTile c)) := by
  refine if_neg ?_
  rintro ⟨hpinnable, hpinned⟩
  simp [hpinned] at h
  simp [h] at hpinnable

/-- A stop of a pinned tenancy's tile is refused (R192). -/
theorem State.dbgCtl_pinned {f : Nat} {s : State} (h : s.tnPinned f = true) (r : Nat) (act : Nat → State → State) (c : RingCmd) :
    s.dbgCtl f r false act c = s.noResource f r c :=
  if_pos ⟨by decide, h⟩

theorem State.dbgRead_unreadable {c : RingCmd} {s : State} (h : s.debugReadable (s.dbgTile c) = false) (f r : Nat) :
    s.dbgRead f r c = s.noResource f r c := by
  simp only [State.dbgRead, h, Bool.not_false, if_true]

theorem State.dbgRead_readable {c : RingCmd} {s : State} (h : s.debugReadable (s.dbgTile c) = true) (hn : leAt c.desc 16 4 ≠ 0) (f r : Nat) :
    s.dbgRead f r c = (s.emit (.hostWrite f (leAt c.desc 24 8)
      (s.debugBytes (s.dbgTile c) (leAt c.desc 9 1) (leAt c.desc 12 4) (leAt c.desc 16 4)) (s.relaxed f r))).endCmd
      f r c stOK (leAt c.desc 16 4) := by
  simp only [State.dbgRead, h, hn, Bool.not_true, Bool.false_eq_true, if_false]

theorem State.dbgWrite_unreadable {c : RingCmd} {s : State} (h : s.debugReadable (s.dbgTile c) = false) (f r : Nat) :
    s.dbgWrite f r c = s.noResource f r c := by
  simp only [State.dbgWrite, h, Bool.not_false, if_true]

theorem State.dbgWrite_readable {c : RingCmd} {s : State} (h : s.debugReadable (s.dbgTile c) = true) (hn : leAt c.desc 16 4 ≠ 0) (f r : Nat) :
    s.dbgWrite f r c = (s.modCmd f r c.idx (fun c => { c with st := .running })).emit (.hostRead f (leAt c.desc 24 8) (leAt c.desc 16 4)) := by
  simp only [State.dbgWrite, h, hn, Bool.not_true, Bool.false_eq_true, if_false]

/-! ### What the actions do to the run state (R191) -/

/-- A running tile that is awake and in no TAKE is debug-halted at once. -/
theorem State.debugHalt_run {g : Nat} {s : State} (hrun : s.run g = runRunning) (hhalt : (s.tile g).halting = false)
    (htake : s.inTake g = false) (h0 : s.domState g = 0) : (s.debugHalt g).run g = runDebug := by
  simp only [State.debugHalt, State.debugHaltNow, hrun, h0, hhalt, htake, ne_eq, not_true_eq_false, false_and,
    Bool.false_eq_true, if_true, if_false]
  exact State.setRun_run (by decide) _ _

/-- A debug-halted tile that is awake issues again. -/
theorem State.debugGo_awake {g : Nat} {s : State} (hrun : s.run g = runDebug) (h0 : s.domState g = 0) (step : Bool) :
    s.debugGo g step = (s.modTile g (fun t => { t with pastBp := true, stepping := step })).setRun g runRunning := by
  have hdom : ((s.modTile g (fun t => { t with pastBp := true, stepping := step })).setRun g runRunning).domState g = 0 := by
    refine (State.get_set_ne ?_ _ _).trans h0
    simp only [Fld.key, Reg.PWR_DOM_STATE_STATE, Reg.TILE_STATE_RUN]
    omega
  simp only [State.debugGo, hrun, hdom, ne_eq, not_true_eq_false, if_false, if_true]

theorem State.debugGo_run {g : Nat} {s : State} (hrun : s.run g = runDebug) (h0 : s.domState g = 0) (step : Bool) :
    (s.debugGo g step).run g = runRunning := by
  rw [State.debugGo_awake hrun h0]
  exact State.setRun_run (by decide) _ _

theorem State.debugGo_stepping {g : Nat} {s : State} (hrun : s.run g = runDebug) (h0 : s.domState g = 0) (hg : g < 64) (step : Bool) :
    ((s.debugGo g step).tile g).stepping = step := by
  rw [State.debugGo_awake hrun h0, State.setRun, State.tile_set, State.tile_modTile_self _ _ _ hg]

/-- Settles O26: a dispatched command reaches its awake tile, where its row acts or refuses (`State.dbgCtl_acts`, `State.dbgCtl_pinned`). -/
theorem debugCommandsComplete : Obligations.DebugCommandsComplete := by
  intro func ring idx c s hu h0
  have hrow : ∀ {action : Nat} {pinnable : Bool} {act : Nat → State → State}, Dispatched func.val ring.val idx 0x30 c s →
      leAt c.desc 9 1 = action → s.dbgRow func.val ring.val idx.toNat action pinnable act = s.dbgCtl func.val ring.val pinnable act c :=
    fun hd ha => State.dbgRow_dispatched hu h0 hd ha _ _
  have hmove : ∀ {op : Nat} {k : RingCmd → State → State}, Dispatched func.val ring.val idx op c s →
      s.withCmd func.val ring.val idx.toNat op (State.fresh func.val ring.val (State.atTile func.val ring.val k)) = k c s := fun hd => by
    rw [State.withCmd_dispatched hd, State.fresh_dispatched hd, State.atTile_awake hu h0]
  refine ⟨_, _, _, rfl, rfl, rfl, fun hd hp => ⟨fun ha => ?_, fun ha => ?_⟩, fun hd hp => ⟨fun ha => ?_, fun ha => ?_⟩,
    fun hd => ⟨fun ha => ?_, fun ha => ⟨_, rfl, ?_⟩, fun ha => ⟨_, rfl, ?_⟩⟩, fun hd hr hn => ?_, fun hd hr => ?_, fun hd hr hn => ?_,
    fun hd hr => ?_, fun hrun hhalt htake _ => State.debugHalt_run hrun hhalt htake h0,
    fun hrun hg => ⟨State.debugGo_run hrun h0 false, State.debugGo_stepping hrun h0 hg false, State.debugGo_stepping hrun h0 hg true⟩⟩
  · exact congrArg _ ((hrow hd ha).trans (State.dbgCtl_acts (.inr hp) ..))
  · exact congrArg _ ((hrow hd ha).trans (State.dbgCtl_acts (.inr hp) ..))
  · exact congrArg _ ((hrow hd ha).trans (State.dbgCtl_pinned hp ..))
  · exact congrArg _ ((hrow hd ha).trans (State.dbgCtl_pinned hp ..))
  · exact congrArg _ ((hrow hd ha).trans (State.dbgCtl_acts (.inl rfl) ..))
  · exact congrArg _ ((hrow hd ha).trans (State.dbgCtl_acts (.inl rfl) ..))
  · exact congrArg _ ((hrow hd ha).trans (State.dbgCtl_acts (.inl rfl) ..))
  · exact congrArg _ ((hmove hd).trans (State.dbgRead_readable hr hn ..))
  · exact congrArg _ ((hmove hd).trans (State.dbgRead_unreadable hr ..))
  · exact congrArg _ ((hmove hd).trans (State.dbgWrite_readable hr hn ..))
  · exact congrArg _ ((hmove hd).trans (State.dbgWrite_unreadable hr ..))

end Sys2Proof.Machine
end

section
/-! The issue of a bundle (R162, R163, R175, R184, R185) and the drain of the store buffer (R179, R181). -/

namespace Sys2Proof.Machine

/-! ### An issue that meets no memory error -/

@[simp] theorem State.countIssue_clean (g : Nat) (b : List Byte) (s : State) : s.countIssue g TileEcc.clean b = s := rfl
@[simp] theorem State.issueAsync_clean (g : Nat) (b : List Byte) (s : State) : s.issueAsync g TileEcc.clean b = none := rfl
@[simp] theorem State.dropEntry_none (g : Nat) (b : List Byte) (s : State) : s.dropEntry g none b = s := rfl
@[simp] theorem issuedBundle_none (b : List Byte) : issuedBundle none b = b := rfl
@[simp] theorem State.raiseAsync_none (g : Nat) (b : List Byte) (s : State) : s.raiseAsync g none b = s := rfl

theorem TileEcc.clean_fetch : TileEcc.clean.fetch ≠ .uncorrectable := by decide

/-- A bundle whose TAKE at a local queue is satisfied leaves `rest` in that queue. -/
def State.lowerQueue (g : Nat) (b : List Byte) (rest : Option Nat) (s : State) : State :=
  match rest with
  | some v => s.modTile g (fun t => t.setLq (qQueue (slotWord b 6)) { t.queue (qQueue (slotWord b 6)) with value := BitVec.ofNat 24 v })
  | none => s

/-- Without a memory error no L slot raises the uncorrectable load's exception, 7. -/
theorem Tile.lFault_clean_code {t : Tile} {w : Nat} {e : Nat × Nat × Nat} (h : t.lFault .clean w = some e) : e.1 ≠ 7 := by
  simp only [Tile.lFault, show (Secded.clean == Secded.uncorrectable) = false from rfl, Bool.and_false, Bool.false_and, Bool.false_eq_true,
    if_false] at h
  split at h
  · simp at h
  split at h
  · cases h
    simp
  split at h
  · cases h
    simp
  · simp at h

theorem Tile.dFault_code {t : Tile} {w : Nat} {e : Nat × Nat × Nat} (h : t.dFault w = some e) : e.1 ≠ 7 := by
  unfold Tile.dFault at h
  dsimp only at h
  split at h
  · simp at h
  split at h
  · cases h
    simp
  split at h
  · cases h
    simp
  · simp at h

theorem Tile.bFault_code {t : Tile} {w : Nat} {e : Nat × Nat × Nat} (h : t.bFault w = some e) : e.1 ≠ 7 := by
  unfold Tile.bFault at h
  split at h
  · cases h
    simp
  · simp at h

/-- Without a memory error no slot raises exception 7. -/
theorem State.slotFault_clean_code {s : State} {g i : Nat} {b : List Byte} {e : Nat × Nat × Nat} (h : s.slotFault g TileEcc.clean b i = some e) :
    e.1 ≠ 7 := by
  unfold State.slotFault at h
  dsimp only at h
  split at h
  · cases h
    simp
  split at h
  · cases h
    simp
  split at h
  · simp at h
  split at h
  · cases h
    simp
  split at h
  · exact Tile.lFault_clean_code h
  · exact Tile.dFault_code h
  · obtain ⟨x, -, rfl⟩ := Option.map_eq_some_iff.mp h
    exact (by decide : (8 : Nat) ≠ 7)
  · obtain ⟨x, -, rfl⟩ := Option.map_eq_some_iff.mp h
    exact (by decide : (8 : Nat) ≠ 7)
  · exact Tile.bFault_code h
  · simp at h

theorem State.bundleFault_clean_code {s : State} {g i code status addr : Nat} {b : List Byte}
    (h : s.bundleFault g TileEcc.clean b = some (i, code, status, addr)) : code ≠ 7 := by
  obtain ⟨j, -, hj⟩ := List.exists_of_findSome?_eq_some h
  obtain ⟨e, he, heq⟩ := Option.map_eq_some_iff.mp hj
  obtain ⟨-, rfl⟩ := Prod.mk.inj heq
  exact State.slotFault_clean_code he

/-! ### The outcomes of an issue -/

/-- A tile in no twin pair issues on its own; where it may not, nothing changes. -/
theorem exec_bundleIssue_alone {tile : Fin 64} {s : State} (hp : s.pairOf tile.val = none) (dep mem other : Nat) (ecc : TileEcc) :
    exec (.bundleIssue tile dep mem other ecc) s = .next ((s.tryIssue tile.val dep mem other ecc).getD s) := by
  show execBundleIssue tile dep mem other ecc s = _
  simp only [execBundleIssue, hp]

theorem State.tryIssue_may_not {g : Nat} {s : State} (h : s.canIssue g = false) (dep mem other : Nat) (ecc : TileEcc) :
    s.tryIssue g dep mem other ecc = none := by
  simp [State.tryIssue, h]

section
variable {g : Nat} {b : List Byte} {s : State} (hat : StandsAt g b s) (dep mem other : Nat)
include hat

/-- An enabled slot that waits holds the bundle back, where no slot before it faults. -/
theorem State.tryIssue_stalled (hf : s.bundleFault g TileEcc.clean b = none) (hs : ∃ i < 8, s.slotStall g b i = true) :
    s.tryIssue g dep mem other TileEcc.clean = none := by
  obtain ⟨-, hcan, hbreak, hend, -, hfetch, hinter⟩ := hat
  have hany : (List.range 8).any (s.slotStall g b) = true := by simpa using hs
  simp only [State.tryIssue, hcan, hbreak, hend, hfetch, hinter, hf, hany, TileEcc.clean_fetch, Bool.not_true, Bool.false_and,
    Bool.false_eq_true, if_false, Bool.or_true, if_true]

/-- A slot before Q that faults raises its exception, whatever the queue operation would do. -/
theorem State.tryIssue_faults {i code status addr : Nat} (hf : s.bundleFault g TileEcc.clean b = some (i, code, status, addr)) (hi : i < 6)
    (hs : ∀ k < i, s.slotStall g b k = false) : s.tryIssue g dep mem other TileEcc.clean = some (s.raiseExc g code status i addr) := by
  obtain ⟨-, hcan, hbreak, hend, hwait, hfetch, hinter⟩ := hat
  have hany : (List.range i).any (s.slotStall g b) = false := by simpa using hs
  have hcode : code ≠ 7 := State.bundleFault_clean_code hf
  have hq : decide (i > 6) = false := decide_eq_false (by omega)
  simp only [State.tryIssue, hcan, hbreak, hend, hwait, hfetch, hinter, hf, hany, TileEcc.clean_fetch, reduceCtorEq, Bool.not_true,
    Bool.false_and, Bool.false_eq_true, if_false, Bool.or_self, State.countIssue_clean]
  cases s.qGate g b <;> simp only [hcode, hq, Bool.false_and, Bool.false_eq_true, if_false]

variable (hf : s.bundleFault g TileEcc.clean b = none) (hs : ∀ i < 8, s.slotStall g b i = false)
include hf hs

/-- A queue operation that is not satisfied holds the bundle. -/
theorem State.tryIssue_held {u : State} (hq : s.qGate g b = .held u) : s.tryIssue g dep mem other TileEcc.clean = some u := by
  obtain ⟨-, hcan, hbreak, hend, hwait, hfetch, hinter⟩ := hat
  have hany : (List.range 8).any (s.slotStall g b) = false := by simpa using hs
  simp only [State.tryIssue, hcan, hbreak, hend, hwait, hfetch, hinter, hf, hany, TileEcc.clean_fetch, reduceCtorEq, hq, Bool.not_true,
    Bool.false_and, Bool.false_eq_true, if_false, Bool.or_self]

/-- A bundle that nothing holds back has all its effects; a TAKE of its own lowers the queue first. -/
theorem State.tryIssue_issues {rest : Option Nat} (hq : s.qGate g b = .go rest) : s.tryIssue g dep mem other TileEcc.clean =
    some (((s.lowerQueue g b rest).bundleEffects g dep mem other b rest).afterIssue g ((s.tile g).slotOn (slotWord b 7)) b .none) := by
  obtain ⟨-, hcan, hbreak, hend, hwait, hfetch, hinter⟩ := hat
  have hany : (List.range 8).any (s.slotStall g b) = false := by simpa using hs
  simp only [State.tryIssue, hcan, hbreak, hend, hwait, hfetch, hinter, hf, hany, TileEcc.clean_fetch, reduceCtorEq, hq, Bool.not_true,
    Bool.false_and, Bool.false_eq_true, if_false, Bool.or_self, State.countIssue_clean, State.issueAsync_clean, State.dropEntry_none,
    issuedBundle_none, State.raiseAsync_none]
  cases rest <;> rfl

end

/-- What a tile that stands at a bundle does: it issues, waits, faults or stalls (`State.tryIssue`). -/
theorem bundleIssues : Part.BundleIssues := by
  intro tile dep mem other b s
  refine ⟨fun hat => ?_, fun hp hcan => ?_⟩
  · have halone : s.pairOf tile.val = none := hat.1
    refine ⟨fun hf hs => ⟨fun hq => ?_, fun v hq => ?_, fun u hq => ?_⟩, fun i code status addr hf hi hs => ?_, fun hf hs => ?_⟩ <;>
      rw [exec_bundleIssue_alone halone]
    · rw [State.tryIssue_issues hat _ _ _ (Option.isNone_iff_eq_none.mp hf) hs hq, Option.getD_some, State.lowerQueue]
    · rw [State.tryIssue_issues hat _ _ _ (Option.isNone_iff_eq_none.mp hf) hs hq, Option.getD_some, State.lowerQueue]
    · rw [State.tryIssue_held hat _ _ _ (Option.isNone_iff_eq_none.mp hf) hs hq, Option.getD_some]
    · rw [State.tryIssue_faults hat _ _ _ hf hi hs, Option.getD_some]
    · rw [State.tryIssue_stalled hat _ _ _ (Option.isNone_iff_eq_none.mp hf) hs, Option.getD_none]
  · rw [exec_bundleIssue_alone hp, State.tryIssue_may_not hcan, Option.getD_none]

/-! ### The drain of the store buffer -/

/-- An entry's drain changes the bytes of its word that its mask names. -/
theorem Tile.spGet_drainEntry (t : Tile) (e : SbEntry) (a : Nat) : spGet ramByte (t.drainEntry e).sp a =
    if a / 8 = e.word ∧ e.mask.getLsbD (a % 8) = true then (leBytes 8 e.data.toNat).getD (a % 8) 0 else spGet ramByte t.sp a := by
  have hmerge : ∀ i < 8, (sbMerge e.mask (leBytes 8 e.data.toNat) (t.spRead (8 * e.word) 8)).getD i ramByte =
      if e.mask.getLsbD i then (leBytes 8 e.data.toNat).getD i 0 else spGet ramByte t.sp (8 * e.word + i) := fun i hi => by
    have hold : (t.spRead (8 * e.word) 8).getD i 0 = spGet ramByte t.sp (8 * e.word + i) := memRead_getD _ _ _ _ _ hi
    simp [sbMerge, hi, ← hold]
  rw [Tile.drainEntry, Tile.spWrite_sp, spGet_memWrite]
  by_cases hw : a / 8 = e.word
  · have hin : 8 * e.word ≤ a ∧ a < 8 * e.word + (sbMerge e.mask (leBytes 8 e.data.toNat) (t.spRead (8 * e.word) 8)).length := by
      simp only [sbMerge, List.length_map, List.length_range]
      omega
    have hi : a - 8 * e.word = a % 8 := by omega
    have ha : 8 * e.word + a % 8 = a := by omega
    rw [if_pos hin, hi, hmerge _ (by omega), ha]
    simp only [hw, true_and]
  · have hout : ¬(8 * e.word ≤ a ∧ a < 8 * e.word + (sbMerge e.mask (leBytes 8 e.data.toNat) (t.spRead (8 * e.word) 8)).length) := by
      simp only [sbMerge, List.length_map, List.length_range]
      omega
    rw [if_neg hout, if_neg (fun h => hw h.1)]

theorem exec_storeBufferDrain {tile : Fin 64} {s : State} (h0 : s.domState tile.val = 0) (ecc : Secded) :
    exec (.storeBufferDrain tile ecc) s = .next (s.drainHead tile.val ecc) :=
  if_pos h0

theorem exec_corePortRescue {tile : Fin 64} {s : State} (h0 : s.domState tile.val = 0) (ecc : Secded) :
    exec (.corePortRescue tile ecc) s = .next (s.drainHead tile.val ecc) :=
  if_pos h0

section
variable {g : Nat} {e : SbEntry} {l : List SbEntry} {s : State} (hsb : (s.tile g).sb = e :: l)
include hsb

theorem State.drainHead_clean : s.drainHead g .clean =
    ((s.modTile g (fun t => { t.drainEntry e with sb := l })).headDrained g).syncSb g := by
  have hbad : (Secded.clean == Secded.uncorrectable) = false := by decide
  have hcorr : (Secded.clean == Secded.corrected) = false := by decide
  simp only [State.drainHead, hsb, hbad, hcorr, Bool.and_false, Bool.false_eq_true, if_false]

/-- A drain of a whole word reads nothing, so that it meets no error. -/
theorem State.drainHead_whole (hm : e.mask = 0xFF) (x : Secded) : s.drainHead g x = s.drainHead g .clean := by
  have hreads : (e.mask != 0xFF) = false := by simpa using hm
  simp only [State.drainHead, hsb, hreads, Bool.false_and]

/-- A partial drain that finds an uncorrectable error drops its entry and raises the asynchronous exception. -/
theorem State.drainHead_uncorrectable (hm : e.mask ≠ 0xFF) : s.drainHead g .uncorrectable =
    ((((s.modTile g (fun t => { t with sb := l })).headDrained g).syncSb g).spUncorrected g (8 * e.word)).raiseExc
      g 0x22 stUncorrected 0xF (8 * e.word) := by
  have hreads : (e.mask != 0xFF) = true := by simpa using hm
  have hbad : (Secded.uncorrectable == Secded.uncorrectable) = true := by decide
  simp only [State.drainHead, hsb, hreads, hbad, Bool.and_self, if_true]

end

/-- The head of the store buffer of an awake tile drains, through the core port in turn or by its rescue (`State.drainHead`). -/
theorem storeBufferDrainsHead : Part.StoreBufferDrainsHead := by
  intro tile e l s h0 hsb
  refine ⟨fun c hc => ?_, fun hm x => ?_, fun hm c hc => ?_, Tile.spGet_drainEntry _ e⟩
  · simp only [List.mem_cons, List.not_mem_nil, or_false] at hc
    obtain rfl | rfl := hc
    · rw [exec_storeBufferDrain h0, State.drainHead_clean hsb]
    · rw [exec_corePortRescue h0, State.drainHead_clean hsb]
  · simp only [exec_storeBufferDrain h0, exec_corePortRescue h0, State.drainHead_whole hsb hm x, and_self]
  · simp only [List.mem_cons, List.not_mem_nil, or_false] at hc
    obtain rfl | rfl := hc
    · rw [exec_storeBufferDrain h0, State.drainHead_uncorrectable hsb hm]
    · rw [exec_corePortRescue h0, State.drainHead_uncorrectable hsb hm]

/-- Settles O53: from its two parts, the issue and the drain. -/
theorem bundlesIssueAndDrain : Obligations.BundlesIssueAndDrain :=
  ⟨bundleIssues, storeBufferDrainsHead⟩

end Sys2Proof.Machine
end

section
/-! The registers that command a link or the domain, and the frame boundary (R367, R370, R371, R376, R382, R389, R390, R577). -/

namespace Sys2Proof.Machine

/-! ### Words and fields -/

@[simp] theorem partOf_whole (old : Nat) (v : Word) : partOf old .whole v = v.toNat := rfl

theorem b2n_bitAt (x i : Nat) : b2n (bitAt x i) = bits x i 1 := by
  have h : x / 2 ^ i % 2 < 2 := Nat.mod_lt _ (by decide)
  simp only [b2n, bitAt, bits, beq_iff_eq]
  split <;> omega

theorem bitAt_eq_of_bits {x i b : Nat} (h : bits x i 1 = b) : bitAt x i = (b == 1) := by
  rw [← h]
  rfl

/-- A bit range cut to the width of the field that takes it. -/
theorem bits_mod_width {f : Fld} {w : Nat} (h : f.width = w) (x lo : Nat) : bits x lo w % 2 ^ f.width = bits x lo w := by
  rw [h]
  exact Nat.mod_mod _ _

/-- The low two bits of a register, put into its word again: a write of LNK_CTL.EN and RETRAIN alone. -/
theorem low_bits_replaced {b : Nat} (hb : b < 4) (old : Nat) :
    bits (BitVec.ofNat 64 (old / 4 * 4 + b)).toNat 0 1 = b % 2 ∧ bits (BitVec.ofNat 64 (old / 4 * 4 + b)).toNat 1 1 = b / 2 := by
  simp only [bits, BitVec.toNat_ofNat]
  omega

/-- A field that takes the value it has: no read of the register file changes. -/
theorem State.get_set_same {f : Fld} {v : Nat} {s : State} (h : s.get f = v % 2 ^ f.width) (x : Fld) : (s.set f v).get x = s.get x := by
  by_cases hx : x.key = f.key
  · rw [State.get_set, if_pos hx, ← h]
    simp only [State.get, hx, Nat.xor_assoc, Nat.xor_self, Nat.xor_zero]
  · exact State.get_set_ne hx v s

theorem State.on_iff {s : State} {f : Fld} : s.on f = true ↔ s.get f = 1 := beq_iff_eq

theorem State.on_of_get_zero {s : State} {f : Fld} (h : s.get f = 0) : s.on f = false := by
  rw [State.on, h]
  rfl

/-- The fields of LNK_CTL lie apart from the states of the links. -/
theorem State.linkState_set {f : Fld} (hf : f.off % 0x1000 = 8) (hlo : f.lo < 64) (v : Nat) (j : Nat) (s : State) :
    (s.set f v).linkState j = s.linkState j := by
  refine State.get_set_ne ?_ v s
  simp only [Fld.key, Reg.LNK_STATUS_STATE]
  omega

/-- LNK_DOM_MAP follows the links, and no field below it does. -/
theorem State.syncDomMap_get {x : Fld} (h : x.off < 0x940000) (hlo : x.lo < 64) (s : State) : s.syncDomMap.get x = s.get x := by
  have hne : ∀ i, x.key ≠ (Reg.LNK_DOM_MAP_MAP i).key := by
    intro i
    simp only [Fld.key, Reg.LNK_DOM_MAP_MAP]
    omega
  simp only [State.syncDomMap, State.get_set_ne (hne _)]

theorem State.whenReady_ready {s : State} (h : s.phase = .ready) (k : State → State) : s.whenReady k = k s := if_pos h

/-! ### A link and the cause that holds it -/

theorem State.linkUp_iff (s : State) (j : Nat) : s.linkUp j = true ↔ lnkIdentify ≤ s.linkState j ∧ s.linkState j ≤ lnkFenced := by
  simp [State.linkUp, lnkIdentify, lnkFenced]

theorem State.linkState_of_up {s : State} {j : Nat} (h : s.linkUp j = true) : s.linkState j ≠ lnkDown ∧ s.linkState j ≠ lnkDisabled := by
  rw [State.linkUp_iff] at h
  simp only [lnkIdentify, lnkFenced, lnkDown, lnkDisabled] at *
  omega

/-- A link whose EN is 0 is held: by EN where nothing before it holds the link. -/
theorem State.linkCause_of_off {s : State} {j : Nat} (h : s.on (Reg.LNK_CTL_EN j) = false) : ∃ c, s.linkCause j = some c := by
  unfold State.linkCause
  simp only [h, Bool.not_false, if_true]
  repeat' split
  all_goals exact ⟨_, rfl⟩

/-- What holds a link stands in the registers, the phase, the fuses and the list of excluded units. -/
theorem State.linkCause_congr {s t : State} (hget : ∀ x, t.get x = s.get x) (hphase : t.phase = s.phase) (hfuses : t.fuses = s.fuses)
    (hexcluded : t.excluded = s.excluded) (j : Nat) : t.linkCause j = s.linkCause j := by
  have hg : t.get = s.get := funext hget
  unfold State.linkCause State.linkMapped State.portPresent State.fuse State.linkState State.unitHeld State.domN State.domP State.on
  rw [hg, hphase, hfuses, hexcluded]

/-- A link that nothing holds and that is not DISABLED stays as it is. -/
theorem State.linkSettle_free {s : State} {j : Nat} (hc : s.linkCause j = none) (hd : s.linkState j ≠ lnkDisabled) : s.linkSettle j = s := by
  simp only [State.linkSettle, hc, if_neg hd]

/-! ### LNK_CTL (R367, R370, R389) -/

/-- The word of LNK_CTL shows EN in bit 0. -/
theorem State.wordOf_LNK_CTL_bit0 {j : Nat} {s : State} (h : s.get (Reg.LNK_CTL_EN j) = 1) :
    bits (s.wordOf (Reg.row_LNK_CTL.fields j 0)) 0 1 = 1 := by
  simp only [State.wordOf, Reg.row_LNK_CTL, List.foldl, h, bits]
  simp only [Reg.LNK_CTL_EN, Reg.LNK_CTL_RETRAIN, Reg.LNK_CTL_SPAREPEER, Reg.LNK_CTL_SPAREEN, Reg.LNK_CTL_SPAREMEMBER]
  omega

/-- A write that leaves RETRAIN 0, to a link other than the spare: EN is taken, and a link that is not DOWN is settled. -/
theorem State.writeLnkCtl_enable {j : Nat} (hj : j < 63) {v : Word} (hr : bits v.toNat 1 1 = 0) (func : Nat) (s : State) :
    s.writeLnkCtl func j .whole v = (if s.linkState j = lnkDown then s.set (Reg.LNK_CTL_EN j) (bits v.toNat 0 1)
      else (s.set (Reg.LNK_CTL_EN j) (bits v.toNat 0 1)).linkSettle j).syncDomMap := by
  have hne : j ≠ 63 := Nat.ne_of_lt hj
  have hst : (s.set (Reg.LNK_CTL_EN j) (bits v.toNat 0 1)).linkState j = s.linkState j :=
    State.linkState_set (by simp only [Reg.LNK_CTL_EN]; omega) (by simp [Reg.LNK_CTL_EN]) _ _ _
  simp [State.writeLnkCtl, bitAt_eq_of_bits hr, hne, hst]

/-- A write of RETRAIN to a link that is up and that nothing holds: its DOWN word leaves, and it is DOWN with cause 0. -/
theorem State.writeLnkCtl_retrain {j : Nat} (hj : j < 63) {v : Word} (hr : bits v.toNat 1 1 = 1) {u s : State}
    (hu : u = s.set (Reg.LNK_CTL_EN j) (bits v.toNat 0 1)) (hup : u.linkUp j = true) (hc : u.linkCause j = none) (func : Nat) :
    s.writeLnkCtl func j .whole v = ((u.sendDown j 4).linkToDown j 0).syncDomMap := by
  have hne : j ≠ 63 := Nat.ne_of_lt hj
  obtain ⟨hdown, hdis⟩ := State.linkState_of_up hup
  simp [State.writeLnkCtl, bitAt_eq_of_bits hr, hne, ← hu, State.linkSettle_free hc hdis, hup, hdown, hdis]

/-- SPAREEN is not set where it is 1 already. -/
theorem State.writeLnkCtl_spare_refused {s : State} (h : s.on (Reg.LNK_CTL_SPAREEN 63) = true) {v : Word} (hv : bitAt v.toNat 14 = true)
    (func : Nat) : s.writeLnkCtl func 63 .whole v = s.logRefused (Reg.LNK_CTL_EN 63).off func v.toNat :=
  if_pos ⟨rfl, h, hv⟩

/-- The settings of the spare that a write of its LNK_CTL takes. -/
def State.takeSpare (new : Nat) (s : State) : State :=
  (((s.set (Reg.LNK_CTL_EN 63) (bits new 0 1)).set (Reg.LNK_CTL_SPAREPEER 63) (bits new 8 6)).set (Reg.LNK_CTL_SPAREEN 63)
    (bits new 14 1)).set (Reg.LNK_CTL_SPAREMEMBER 63) (bits new 16 6)

theorem State.takeSpare_get (new : Nat) (s : State) :
    (s.takeSpare new).get (Reg.LNK_CTL_EN 63) = bits new 0 1 ∧ (s.takeSpare new).get (Reg.LNK_CTL_SPAREPEER 63) = bits new 8 6 ∧
    (s.takeSpare new).get (Reg.LNK_CTL_SPAREEN 63) = bits new 14 1 ∧
    (s.takeSpare new).get (Reg.LNK_CTL_SPAREMEMBER 63) = bits new 16 6 := by
  simp (disch := decide) only [State.takeSpare, State.get_set_self, State.get_set_ne, bits_mod_width, and_self]

theorem State.takeSpare_linkState (new j : Nat) (s : State) : (s.takeSpare new).linkState j = s.linkState j := by
  simp (disch := decide) only [State.takeSpare, State.linkState_set]

/-- While SPAREEN is 0 and the spare is DOWN, a write does no more than take the settings. -/
theorem State.writeLnkCtl_spare_taken {s : State} (h : s.on (Reg.LNK_CTL_SPAREEN 63) = false) (hd : s.linkState 63 = lnkDown)
    (func : Nat) (v : Word) : s.writeLnkCtl func 63 .whole v = (s.takeSpare v.toNat).syncDomMap := by
  have hst : (s.takeSpare v.toNat).linkState 63 = lnkDown := (State.takeSpare_linkState _ _ _).trans hd
  rw [State.takeSpare] at hst ⊢
  simp [State.writeLnkCtl, h, b2n_bitAt, hst]

/-! ### LNK_DOM_CFG (R365, R371, R390) -/

theorem State.domCfgRefused_joined {s : State} (hj : s.joined = true) {new : Nat}
    (h : bits new 0 6 ≠ s.modNum ∨ bits new 6 7 ≠ s.domN ∨ bits new 16 9 ≠ s.get Reg.LNK_DOM_CFG_HOLD) : s.domCfgRefused new = true := by
  have hany : (bits new 0 6 != s.modNum || bits new 6 7 != s.domN || bitAt new 13 != s.on Reg.LNK_DOM_CFG_P31 ||
      bits new 16 9 != s.get Reg.LNK_DOM_CFG_HOLD) = true := by
    simp only [Bool.or_eq_true, bne_iff_ne]
    obtain hm | hn | hh := h
    · exact Or.inl (Or.inl (Or.inl hm))
    · exact Or.inl (Or.inl (Or.inr hn))
    · exact Or.inr hh
  simp only [State.domCfgRefused, hj, hany, Bool.true_and, Bool.true_or]

/-- Legal settings for a domain of the variant: the limits of R365 and R390, with 63 ports. -/
theorem State.domCfgRefused_legal {s : State} (hj : s.joined = false) (hmax : s.get Reg.ID_VARIANT_MAXDOMAIN = 64)
    (hlinks : s.get Reg.ID_VARIANT_LINKS = 64) {new : Nat} (hm : bits new 0 6 < bits new 6 7) (hn2 : 2 ≤ bits new 6 7) (hn : bits new 6 7 ≤ 64)
    (hp : bits new 13 1 = 0) (hh1 : 100 ≤ bits new 16 9) (hh4 : bits new 16 9 ≤ 400) : s.domCfgRefused new = false := by
  have h2 : decide (bits new 6 7 < 2) = false := decide_eq_false (by omega)
  have h64 : decide (bits new 6 7 > 64) = false := decide_eq_false (by omega)
  have hM : decide (bits new 0 6 ≥ bits new 6 7) = false := decide_eq_false (by omega)
  have h100 : decide (bits new 16 9 < 100) = false := decide_eq_false (by omega)
  have h400 : decide (bits new 16 9 > 400) = false := decide_eq_false (by omega)
  simp only [State.domCfgRefused, hj, hmax, hlinks, bitAt_eq_of_bits hp, h2, h64, hM, h100, h400, Nat.reduceBEq, Bool.false_and,
    Bool.and_false, Bool.or_false]

theorem State.writeDomCfg_refused {s : State} {part : Part} {v : Word}
    (h : s.domCfgRefused (partOf (s.wordOf (Reg.row_LNK_DOM_CFG.fields 0 0)) part v) = true) (func : Nat) :
    s.writeDomCfg func part v = s.logRefused Reg.LNK_DOM_CFG_EN.off func v.toNat := if_pos h

/-- The settings that a write of LNK_DOM_CFG takes while the module is not joined. -/
def State.takeDomCfg (new : Nat) (s : State) : State :=
  (((s.set Reg.LNK_DOM_CFG_MODNUM (bits new 0 6)).set Reg.LNK_DOM_CFG_N (bits new 6 7)).set Reg.LNK_DOM_CFG_P31 (bits new 13 1)).set
    Reg.LNK_DOM_CFG_HOLD (bits new 16 9)

theorem State.takeDomCfg_get (new : Nat) (s : State) :
    (s.takeDomCfg new).get Reg.LNK_DOM_CFG_MODNUM = bits new 0 6 ∧ (s.takeDomCfg new).get Reg.LNK_DOM_CFG_N = bits new 6 7 ∧
    (s.takeDomCfg new).get Reg.LNK_DOM_CFG_HOLD = bits new 16 9 ∧ (s.takeDomCfg new).get Reg.LNK_DOM_CFG_P31 = bits new 13 1 ∧
    (s.takeDomCfg new).get Reg.LNK_DOM_CFG_EN = s.get Reg.LNK_DOM_CFG_EN := by
  simp (disch := decide) only [State.takeDomCfg, State.get_set_self, State.get_set_ne, bits_mod_width, and_self]

/-- A write with EN 1 and REJOIN 0 that is not refused: the module joins with the settings written. -/
theorem State.writeDomCfg_joins {s : State} (hj : s.joined = false) {v : Word} (hok : s.domCfgRefused v.toNat = false)
    (hen : bits v.toNat 32 1 = 1) (hre : bits v.toNat 33 1 = 0) (func : Nat) :
    s.writeDomCfg func .whole v = s.tellDomain (s.takeDomCfg v.toNat).joinDomain := by
  obtain ⟨-, -, -, -, hcfgEn⟩ := State.takeDomCfg_get v.toNat s
  have hj1 : (s.takeDomCfg v.toNat).joined = false := by rw [State.joined, State.on, hcfgEn]; exact hj
  rw [State.takeDomCfg] at hj1 ⊢
  simp [State.writeDomCfg, hok, hj, bitAt_eq_of_bits hen, bitAt_eq_of_bits hre, hj1]

/-! ### The frame boundary (R376) -/

/-- What every boundary ends with: the spare's slots, the links in IDENTIFY, LNK_DOM_MAP. -/
def State.endBoundary (s : State) : State :=
  ((List.range 64).foldl (fun s j => if s.linkState j = lnkIdentify then s.identify j else s) s.swapSpare).syncDomMap

theorem exec_frameBoundary_between {s : State} (h : s.tick.toNat % 1020 ≠ 0 ∨ s.joined = false) : exec .frameBoundary s = .next s :=
  if_pos (Or.inr (h.elim Or.inr (fun hj => Or.inl (by rw [hj]; rfl))))

section
variable {s : State} (hr : s.phase = .ready) (ht : s.tick.toNat % 1020 = 0) (hj : s.joined = true)
include hr ht hj

theorem exec_frameBoundary : exec .frameBoundary s = .next (s.tellDomain
    (if s.chooseMaster.on Reg.LNK_DOM_TIME_ISMASTER then
      ((List.range 64).filter (fun m => m < s.chooseMaster.domN && m ≠ s.chooseMaster.modNum)).foldl (fun s m => s.measure m) s.chooseMaster
    else s.chooseMaster.follow).endBoundary) :=
  if_neg (by simp [State.inService, hr, ht, hj])

theorem exec_frameBoundary_follower (hm : s.chooseMaster.on Reg.LNK_DOM_TIME_ISMASTER = false) :
    exec .frameBoundary s = .next (s.tellDomain s.chooseMaster.follow.endBoundary) := by
  rw [exec_frameBoundary hr ht hj, hm]
  rfl

theorem exec_frameBoundary_master (hm : s.chooseMaster.on Reg.LNK_DOM_TIME_ISMASTER = true) :
    exec .frameBoundary s = .next (s.tellDomain (((List.range 64).filter (fun m => m < s.chooseMaster.domN && m ≠ s.chooseMaster.modNum)).foldl
      (fun s m => s.measure m) s.chooseMaster).endBoundary) := by
  rw [exec_frameBoundary hr ht hj, if_pos hm]

end

/-- Where candidates are master or SYNCED, the lowest of them is chosen. -/
theorem State.chooseMaster_synced {s : State} {m : Nat} (h : lowest ((s.candidates.filter (·.2)).map (·.1)) = some m) :
    s.chooseMaster = (s.set Reg.LNK_DOM_TIME_MASTER m).set Reg.LNK_DOM_TIME_ISMASTER (b2n (m == s.modNum)) := by
  simp only [State.chooseMaster, h]

theorem State.chooseMaster_synced_get {s : State} {m : Nat} (h : lowest ((s.candidates.filter (·.2)).map (·.1)) = some m) :
    s.chooseMaster.get Reg.LNK_DOM_TIME_MASTER = m % 64 ∧
    (s.chooseMaster.on Reg.LNK_DOM_TIME_ISMASTER = true ↔ m = s.modNum) := by
  rw [State.chooseMaster_synced h, State.on_iff, State.get_set_self, State.get_set_ne (by decide), State.get_set_self]
  refine ⟨rfl, ?_⟩
  by_cases hm : m = s.modNum <;> simp [hm, b2n, Reg.LNK_DOM_TIME_ISMASTER]

/-! ### The commands that write a register -/

theorem exec_domainEnWrite {s : State} (hr : s.phase = .ready) (part : Part) (v : Word) :
    exec (.domainEnWrite part v) s = .next (s.writeDomCfg 0 part v) :=
  congrArg _ (State.whenReady_ready hr _)

theorem exec_spareConfigWrite {s : State} (hr : s.phase = .ready) (v : Word) :
    exec (.spareConfigWrite v) s = .next (s.writeLnkCtl 0 63 .whole v) :=
  congrArg _ (State.whenReady_ready hr _)

theorem exec_domainRejoin {s : State} (hr : s.phase = .ready) : exec .domainRejoin s = .next s.rejoin :=
  congrArg _ (State.whenReady_ready hr _)

section
variable {link : Fin 64} {s : State} (hr : s.phase = .ready) (hlt : link.val < 63)
include hr hlt

/-- A link disabled by its register: EN is 0, and the link is settled unless it is DOWN. -/
theorem exec_linkEnableWrite_off : exec (.linkEnableWrite link false) s =
    .next (if s.linkState link.val = lnkDown then s.set (Reg.LNK_CTL_EN link.val) 0
      else (s.set (Reg.LNK_CTL_EN link.val) 0).linkSettle link.val).syncDomMap := by
  obtain ⟨hen, hretrain⟩ := low_bits_replaced (b := 0) (by decide) (s.wordOf (Reg.row_LNK_CTL.fields link.val 0))
  have hwrite := State.writeLnkCtl_enable hlt hretrain 0 s
  rw [hen] at hwrite
  exact congrArg _ ((State.whenReady_ready hr _).trans hwrite)

/-- RETRAIN on a link that is up, enabled and held by nothing. -/
theorem exec_linkRetrain_up (hup : s.linkUp link.val = true) (hc : s.linkCause link.val = none) (hen : s.get (Reg.LNK_CTL_EN link.val) = 1) :
    exec (.linkRetrain link) s =
      .next ((((s.set (Reg.LNK_CTL_EN link.val) 1).sendDown link.val 4).linkToDown link.val 0).syncDomMap) := by
  have hsame : ∀ x, (s.set (Reg.LNK_CTL_EN link.val) 1).get x = s.get x := State.get_set_same (by rw [hen]; rfl)
  obtain ⟨hbit, hretrain⟩ := low_bits_replaced (b := 3) (by decide) (s.wordOf (Reg.row_LNK_CTL.fields link.val 0))
  have hup' : (s.set (Reg.LNK_CTL_EN link.val) 1).linkUp link.val = true := by
    simpa only [State.linkUp_iff, State.linkState, hsame] using hup
  have hc' : (s.set (Reg.LNK_CTL_EN link.val) 1).linkCause link.val = none := by
    rw [State.linkCause_congr hsame rfl rfl rfl, hc]
  have hwrite := State.writeLnkCtl_retrain hlt hretrain (by rw [hbit]) hup' hc' 0
  have hold := State.wordOf_LNK_CTL_bit0 hen
  refine congrArg _ ((State.whenReady_ready hr _).trans ?_)
  rw [hold]
  exact hwrite

end

/-- Settles O22: each write reaches the register's own rule (`State.writeLnkCtl`, `State.writeDomCfg`), and the boundary the branch of its
role (`exec_frameBoundary`). -/
theorem domainRegistersAct : Obligations.DomainRegistersAct := by
  intro link part v s hr
  refine ⟨fun hlt hst => ?_, fun hlt hst => ?_, fun hlt hup hc hen => ?_, fun hsp hv => ?_, fun hsp hd => ?_, fun href => ?_,
    fun hj hch => ?_, fun hj hmax hlinks hm hn2 hn hp hh1 hh4 hen hre => ?_, fun hf => ?_, fun hf => ?_, exec_frameBoundary_between,
    fun ht hj hm => exec_frameBoundary_follower hr ht hj hm, fun ht hj hm => exec_frameBoundary_master hr ht hj hm,
    fun m hlow => State.chooseMaster_synced_get hlow⟩
  · refine ⟨_, ?_, rfl, State.linkCause_of_off (State.on_of_get_zero (State.get_set_self _ _ _))⟩
    rw [exec_linkEnableWrite_off hr hlt, if_neg hst]
  · rw [exec_linkEnableWrite_off hr hlt, if_pos hst]
  · exact ⟨_, rfl, exec_linkRetrain_up hr hlt hup hc hen⟩
  · rw [exec_spareConfigWrite hr, State.writeLnkCtl_spare_refused (State.on_iff.mpr hsp) (by rw [bitAt_eq_testBit]; exact hv)]
  · refine ⟨(s.takeSpare v.toNat).syncDomMap, ?_, ?_⟩
    · rw [exec_spareConfigWrite hr, State.writeLnkCtl_spare_taken (State.on_of_get_zero hsp) hd]
    · simpa (disch := decide) only [State.syncDomMap_get] using State.takeSpare_get v.toNat s
  · rw [exec_domainEnWrite hr, State.writeDomCfg_refused href]
  · rw [exec_domainEnWrite hr, State.writeDomCfg_refused (part := .whole) (State.domCfgRefused_joined (new := v.toNat) hj hch)]
  · obtain ⟨hM, hN, hH, hP, -⟩ := State.takeDomCfg_get v.toNat s
    refine ⟨s.takeDomCfg v.toNat, ?_, hM, hN, hH, hP.trans hp⟩
    rw [exec_domainEnWrite hr, State.writeDomCfg_joins hj (State.domCfgRefused_legal hj hmax hlinks hm hn2 hn hp hh1 hh4) hen hre]
  · exact (exec_domainRejoin hr).trans (congrArg _ (if_pos (State.on_iff.mpr hf)))
  · exact (exec_domainRejoin hr).trans (congrArg _ (if_neg (Bool.eq_false_iff.mp (State.on_of_get_zero hf))))

end Sys2Proof.Machine
end
